-- ==== Sys2Proof/Word.lean ====
section
/-! DEFINITION. The word types of the device (R7, R39). -/
namespace Sys2Proof

/-- A 64-bit word: an instruction word, a lane's register value, an address. -/
abbrev Word := BitVec 64

/-- One byte of memory (R7). -/
abbrev Byte := BitVec 8

/-- A mask with one bit per logical lane (R78). -/
abbrev Mask := BitVec 64

/-- An 11-bit operand code (R47). -/
abbrev Code := BitVec 11

end Sys2Proof
end

