-- ==== Sys2Proof/Syntax.lean ====
section
/-! DEFINITION. The instructions of the opcode map (R53, R61) and the device's events, one constructor per row
of the opcode table. An instruction holds the fields of its word; an event holds what its outcome depends on
beside the state (which item moves, and what comes from outside the package). -/
namespace Sys2Proof

/-- The guard of an instruction word (R45) and the UNI bit that its clause header gives it (R40). -/
structure Guard where
  p : BitVec 3
  inv : Bool
  uni : Bool
  deriving DecidableEq, Repr

/-- R format (R53): three sources and a destination. -/
structure RForm where
  g : Guard
  lra : Bool
  lrb : Bool
  lrc : Bool
  d : Code
  a : Code
  b : Code
  c : Code
  cmp : BitVec 3
  deriving DecidableEq, Repr

/-- I format (R53): a source and an immediate. -/
structure IForm where
  g : Guard
  lra : Bool
  d : Code
  a : Code
  cmp : BitVec 3
  imm : BitVec 24
  deriving DecidableEq, Repr

/-- M format (R53): loads and stores. -/
structure MForm where
  g : Guard
  lrd : Bool
  lra : Bool
  d : Code
  a : Code
  ord : BitVec 5
  sz : BitVec 3
  ofs : BitVec 18
  deriving DecidableEq, Repr

/-- A format (R53): atomics. -/
structure AForm where
  g : Guard
  lrd : Bool
  lra : Bool
  lrb : Bool
  d : Code
  a : Code
  b : Code
  ord : BitVec 5
  op : BitVec 3
  asz : BitVec 2
  z : BitVec 4
  deriving DecidableEq, Repr

/-- X format (R53): the matrix engine. `rsv` is bits [14:12], which must be zero. -/
structure XForm where
  g : Guard
  h : BitVec 5
  a : Code
  b : Code
  fa : BitVec 3
  fb : BitVec 3
  ru : Bool
  z : Bool
  rsv : BitVec 3
  imm : BitVec 12
  deriving DecidableEq, Repr

/-- P format (R53): copies and placement. -/
structure PForm where
  g : Guard
  lra : Bool
  lrb : Bool
  lrc : Bool
  ld : BitVec 5
  ls : BitVec 5
  a : Code
  b : Code
  c : Code
  cmp : BitVec 4
  deriving DecidableEq, Repr

/-- S format (R53): barriers. `z` is bits [33:0], which must be zero. -/
structure SForm where
  g : Guard
  bar : BitVec 4
  ci : Bool
  cntf : Code
  z : BitVec 34
  deriving DecidableEq, Repr

/-- J format (R53): jumps. -/
structure JForm where
  g : Guard
  aux : BitVec 10
  off : BitVec 40
  deriving DecidableEq, Repr

/-- The four floating-point groups of the opcode map (R61). -/
inductive FTy where
  | f32 | f64 | f16 | bf16
  deriving DecidableEq, Repr

/-- What another package supplies to an event: nothing, bytes read there, or a failure with its trap code. DESIGN CHOICE: log entry 13. -/
inductive ExtData where
  | none
  | bytes (l : List Byte)
  | fail (cause : Nat)
  deriving DecidableEq, Repr

/-- One lane's reply to a remote load or atomic (R369): a failure's cause, or its data. With `apply` the failure is a timeout of
the apply request, and data says that it was applied all the same. -/
structure Reply where
  lane : Nat
  cause : Option Nat
  apply : Bool
  data : List Byte
  deriving DecidableEq, Repr

/-- What a participant on another package brings to a collective (R380, R381, R383): a failure has its cause and address. -/
structure CollIn where
  rank : Nat
  agrees : Bool
  cause : Option Nat
  addr : Word
  data : List Byte
  deriving DecidableEq, Repr

/-- What a fabric packet carries (R362, R369, R371, R375, R392): bytes to store, a counted flag, a read, the translation of an atomic's
page, an atomic step; or back to a sender, an acknowledgement or failure (cause 0 for success) and the replies of a remote access. -/
inductive PacketBody where
  | store (bytes : List (Nat × Byte)) (epoch : Nat) (counted : Bool)
  | flag (addr value : Word) (epoch count : Nat)
  | read (addr : Word) (len : Nat)
  | probe (addr : Word) (len : Nat)
  | atomic (addr : Word) (size op : Nat) (operand newValue : Word)
  | ack (packet cause : Nat)
  | reply (round : Nat) (lanes : List Reply)
  deriving DecidableEq, Repr

/-- A fabric packet (R362): the sending package, die and round, the target, the job number, the body, the time of
its first sending and the word that named its rank. -/
structure Packet where
  id : Nat
  srcPkg : Nat
  srcDie : Nat
  srcRound : Nat
  dstPkg : Nat
  dstDie : Nat
  job : Nat
  rankWord : Word
  body : PacketBody
  sent : Nat
  deriving DecidableEq, Repr

/-- An arriving packet: one that this package holds, of which some units land, or all that remain; or one that comes in from another
package over the fibre of package `via`, its sender or a relay (R363). DESIGN CHOICE: log entry 13. -/
inductive PacketIn where
  | queued (key : Nat) (units : Option (List Nat))
  | outside (p : Packet) (via : Nat)
  deriving DecidableEq, Repr

/-- What the loader knows of a kernel beside its record (R76, R77): the record's address, the image's point table of 64-byte entries,
and its .sdata. DESIGN CHOICE: log entry 19. -/
structure Image where
  kernel : Word
  table : List Byte
  sdata : List Byte
  deriving DecidableEq, Repr

/-- An entry of the store buffer, and which of its chunks leave now, or all (R291, R296). -/
structure StoreOut where
  entry : Nat
  units : Option (List Nat)
  deriving DecidableEq, Repr

/-- What a migration changes once the job is at rest (R367): ranges of memory moved within the package, as source, destination and length,
and the new entries of the job's table by rank. -/
structure Migration where
  moves : List (Nat × Nat × Nat)
  entries : List (Nat × Word)
  deriving DecidableEq, Repr

/-- A partition as the hypervisor assigns it (R336): its control cores and its image among others, and the images that its loader
places (R77). -/
structure PartSpec where
  num : Nat
  dies : BitVec 6
  control : List Nat
  diag : Bool
  grants : List (Nat × Nat)
  inbox : Word
  image : List Byte
  images : List Image
  deriving DecidableEq, Repr

/-- The rows of the opcode table: instructions first, then events. -/
inductive Instr where
  | iadd (f : RForm)   -- IADD, R110
  | isub (f : RForm)   -- ISUB, R110
  | imul (f : RForm)   -- IMUL, R110
  | imulh (f : RForm)   -- IMULH, R110
  | imad (f : RForm)   -- IMAD, R110
  | imin (f : RForm)   -- IMIN, R110
  | imax (f : RForm)   -- IMAX, R110
  | iabs (f : RForm)   -- IABS, R110
  | and (f : RForm)   -- AND, R110
  | or (f : RForm)   -- OR, R110
  | xor (f : RForm)   -- XOR, R110
  | andn (f : RForm)   -- ANDN, R110
  | not (f : RForm)   -- NOT, R110
  | shl (f : RForm)   -- SHL, R111
  | shr (f : RForm)   -- SHR, R111
  | sar (f : RForm)   -- SAR, R111
  | rol (f : RForm)   -- ROL, R110
  | popc (f : RForm)   -- POPC, R110
  | clz (f : RForm)   -- CLZ, R110
  | ctz (f : RForm)   -- CTZ, R110
  | brev (f : RForm)   -- BREV, R110
  | bfx (f : RForm)   -- BFX, R112
  | bfi (f : RForm)   -- BFI, R112
  | lea (f : RForm)   -- LEA, R110
  | mov (f : RForm)   -- MOV, R110
  | sel (f : RForm)   -- SEL, R115
  | bysel (f : RForm)   -- BYSEL, R113
  | icmp (f : RForm)   -- ICMP, R116
  | pcomb (f : RForm)   -- PCOMB, R117
  | vote (f : RForm)   -- VOTE, R118
  | pick (f : RForm)   -- PICK, R115
  | iaddi (f : IForm)   -- IADDI, R119
  | imuli (f : IForm)   -- IMULI, R119
  | andi (f : IForm)   -- ANDI, R119
  | ori (f : IForm)   -- ORI, R119
  | xori (f : IForm)   -- XORI, R119
  | shli (f : IForm)   -- SHLI, R119
  | shri (f : IForm)   -- SHRI, R119
  | sari (f : IForm)   -- SARI, R119
  | movi (f : IForm)   -- MOVI, R119
  | movk (f : IForm)   -- MOVK, R119
  | icmpi (f : IForm)   -- ICMPI, R116
  | fadd (ty : FTy) (f : RForm)   -- FADD, R121
  | fsub (ty : FTy) (f : RForm)   -- FSUB, R121
  | fmul (ty : FTy) (f : RForm)   -- FMUL, R121
  | ffma (ty : FTy) (f : RForm)   -- FFMA, R121
  | fmin (ty : FTy) (f : RForm)   -- FMIN, R122
  | fmax (ty : FTy) (f : RForm)   -- FMAX, R122
  | fcmp (ty : FTy) (f : RForm)   -- FCMP, R123
  | frnd (ty : FTy) (f : RForm)   -- FRND, R124
  | fneg (ty : FTy) (f : RForm)   -- FNEG, R122
  | fabs (ty : FTy) (f : RForm)   -- FABS, R122
  | fdot (ty : FTy) (f : RForm)   -- FDOT, R125
  | fclass (ty : FTy) (f : RForm)   -- FCLASS, R126
  | fcvt (f : IForm)   -- FCVT, R128
  | f2i (f : IForm)   -- F2I, R129
  | i2f (f : IForm)   -- I2F, R130
  | qnt (f : RForm)   -- QNT, R133
  | dqnt (f : RForm)   -- DQNT, R134
  | gcomp (f : RForm)   -- GCOMP, R135
  | cvtw (f : RForm)   -- CVTW, R136
  | wreb (f : RForm)   -- WREB, R136
  | shfl (f : RForm)   -- SHFL, R138
  | shflx (f : RForm)   -- SHFLX, R139
  | bcst (f : RForm)   -- BCST, R140
  | radd (f : RForm)   -- RADD, R141
  | rmin (f : RForm)   -- RMIN, R141
  | rmax (f : RForm)   -- RMAX, R141
  | rminx (f : RForm)   -- RMINX, R142
  | rmaxx (f : RForm)   -- RMAXX, R142
  | rbit (f : RForm)   -- RBIT, R143
  | scana (f : RForm)   -- SCANA, R144
  | scanae (f : RForm)   -- SCANAE, R144
  | scanmin (f : RForm)   -- SCANMIN, R144
  | scanmax (f : RForm)   -- SCANMAX, R144
  | matchLanes (f : RForm)   -- MATCH, R145
  | ld (f : MForm)   -- LD, R291
  | st (f : MForm)   -- ST, R291
  | lds (f : MForm)   -- LDS, R154
  | sts (f : MForm)   -- STS, R154
  | ldh (f : MForm)   -- LDH, R291
  | sth (f : MForm)   -- STH, R291
  | stp (f : RForm)   -- STP, R295
  | atom (f : AForm)   -- ATOM, R294
  | atomu (f : AForm)   -- ATOMU, R294
  | cas (f : RForm)   -- CAS, R294
  | atoms (f : AForm)   -- ATOMS, R156
  | cass (f : RForm)   -- CASS, R156
  | fence (f : RForm)   -- FENCE, R300
  | fencex (f : IForm)   -- FENCEX, R301
  | pref (f : MForm)   -- PREF, R292
  | tlook (f : RForm)   -- TLOOK, R160
  | tset (f : RForm)   -- TSET, R160
  | tclr (f : RForm)   -- TCLR, R160
  | cpy (f : PForm)   -- CPY, R163
  | cpyr (f : PForm)   -- CPYR, R164
  | cpyi (f : PForm)   -- CPYI, R165
  | cseal (f : RForm)   -- CSEAL, R166
  | cwait (f : IForm)   -- CWAIT, R167
  | cwaitk (f : IForm)   -- CWAITK, R167
  | lyld (f : PForm)   -- LYLD, R185
  | lyst (f : PForm)   -- LYST, R185
  | lyset (f : PForm)   -- LYSET, R186
  | lyget (f : PForm)   -- LYGET, R186
  | place (f : PForm)   -- PLACE, R193
  | plq (f : PForm)   -- PLQ, R200
  | tld (f : PForm)   -- TLD, R188
  | tst (f : PForm)   -- TST, R189
  | loc (f : PForm)   -- LOC, R187
  | mmah (f : XForm)   -- MMAH, R214
  | mmab (f : XForm)   -- MMAB, R215
  | scacc (f : XForm)   -- SCACC, R217
  | spush (f : RForm)   -- SPUSH, R216
  | schk (f : RForm)   -- SCHK, R218
  | azero (f : XForm)   -- AZERO, R220
  | ald (f : XForm)   -- ALD, R220
  | drn (f : XForm)   -- DRN, R226
  | pjadj (f : RForm)   -- PJADJ, R246
  | achk (f : XForm)   -- ACHK, R220
  | arel (f : RForm)   -- AREL, R221
  | aset (f : IForm)   -- ASET, R221
  | sfq (f : IForm)   -- SFQ, R258
  | sfwait (f : IForm)   -- SFWAIT, R259
  | sfpoll (f : IForm)   -- SFPOLL, R259
  | bra (f : JForm)   -- BRA, R91
  | brx (f : RForm)   -- BRX, R92
  | call (f : JForm)   -- CALL, R93
  | callx (f : RForm)   -- CALLX, R93
  | ret (f : RForm)   -- RET, R93
  | mjoin (f : JForm)   -- MJOIN, R94
  | join (f : RForm)   -- JOIN, R94
  | brw (f : JForm)   -- BRW, R91
  | exit (f : RForm)   -- EXIT, R95
  | nop (f : RForm)   -- NOP, R96
  | rpf (f : IForm)   -- RPF, R97
  | rdrop (f : IForm)   -- RDROP, R97
  | wbind (f : IForm)   -- WBIND, R99
  | wstat (f : IForm)   -- WSTAT, R101
  | trap (f : IForm)   -- TRAP, R102
  | bkpt (f : IForm)   -- BKPT, R102
  | yield (f : RForm)   -- YIELD, R96
  | sleep (f : IForm)   -- SLEEP, R96
  | rdsr (f : IForm)   -- RDSR, R103
  | caprd (f : IForm)   -- CAPRD, R339
  | bara (f : SForm)   -- BARA, R251
  | barw (f : SForm)   -- BARW, R251
  | barq (f : IForm)   -- BARQ, R253
  | cbar (f : SForm)   -- CBAR, R273
  | xwin (f : RForm)   -- XWIN, R271
  | xst (f : RForm)   -- XST, R277
  | xadd (f : AForm)   -- XADD, R277
  | semp (f : RForm)   -- SEMP, R318
  | semw (f : RForm)   -- SEMW, R318
  | gpost (f : RForm)   -- GPOST, R316
  | garm (f : RForm)   -- GARM, R316
  | gwait (f : RForm)   -- GWAIT, R316
  | grdy (f : RForm)   -- GRDY, R316
  | madmit (f : RForm)   -- MADMIT, R317
  | mretire (f : RForm)   -- MRETIRE, R317
  | mread (f : RForm)   -- MREAD, R317
  | rld (f : MForm)   -- RLD, R369
  | rst (f : MForm)   -- RST, R370
  | ratom (f : AForm)   -- RATOM, R369
  | rcas (f : RForm)   -- RCAS, R369
  | rflush (f : RForm)   -- RFLUSH, R376
  | rrel (f : RForm)   -- RREL, R375
  | rankq (f : RForm)   -- RANKQ, R377
  | coll (f : RForm)   -- COLL, R380
  | collw (f : RForm)   -- COLLW, R383
  | crjob (f : RForm)   -- CRJOB, R351
  | crwait (f : RForm)   -- CRWAIT, R354
  | crstat (f : RForm)   -- CRSTAT, R355
  | crplan (f : RForm)   -- CRPLAN, R356
  | wrsr (f : IForm)   -- WRSR, R326
  | eret (f : RForm)   -- ERET, R325
  | tlbi (f : RForm)   -- TLBI, R327
  | rtabw (f : RForm)   -- RTABW, R327
  | halt (f : RForm)   -- HALT, R327
  | diag (f : RForm)   -- DIAG, R266
  | ctxsv (f : RForm)   -- CTXSV, R327
  | ctxld (f : RForm)   -- CTXLD, R327
  | clauseSelect (core quadrant ticks : Nat)   -- CLAUSE_SELECT, R82
  | sleepExpire (round : Nat)   -- SLEEP_EXPIRE, R96
  | roundEnd (round : Nat)   -- ROUND_END, R89
  | spill (core : Nat)   -- SPILL, R85
  | watchdog (round : Nat)   -- WATCHDOG, R105
  | roundStop (round : Nat)   -- ROUND_STOP, R105
  | contextSave (team : Nat)   -- CONTEXT_SAVE, R320
  | cpyrDataLand (round member : Nat)   -- CPYR_DATA_LAND, R164
  | copyMemberComplete (round member : Nat) (words : Option (List Nat))   -- COPY_MEMBER_COMPLETE, R168
  | passComplete (round member : Nat) (parcels : Option (List Nat))   -- PASS_COMPLETE, R195
  | drainComplete (round : Nat) (writes : Option (List Nat))   -- DRAIN_COMPLETE, R228
  | sfqResultLand (round token : Nat)   -- SFQ_RESULT_LAND, R258
  | exchangeItemLand (item : Nat)   -- EXCHANGE_ITEM_LAND, R277
  | windowTableUpdate (update : Nat)   -- WINDOW_TABLE_UPDATE, R271
  | storeBufferDrain (entry : StoreOut)   -- STORE_BUFFER_DRAIN, R296
  | storeBufferTimeout (entry : Nat)   -- STORE_BUFFER_TIMEOUT, R296
  | storeAck (round : Nat) (package : Bool)   -- STORE_ACK, R296
  | translationWalkComplete (core partition : Nat) (va : Word)   -- TRANSLATION_WALK_COMPLETE, R287
  | trapQueueEntryWrite (partition : Nat)   -- TRAP_QUEUE_ENTRY_WRITE, R323
  | sortingOfficeAdmit (die : Nat)   -- SORTING_OFFICE_ADMIT, R308
  | nodeComplete (node : Nat)   -- NODE_COMPLETE, R311
  | courierJobStart (job : Nat)   -- COURIER_JOB_START, R352
  | courierSegmentComplete (job segment : Nat) (outside : ExtData)   -- COURIER_SEGMENT_COMPLETE, R352
  | courierNodeStop (node : Nat)   -- COURIER_NODE_STOP, R358
  | collectiveStart (coll : Nat)   -- COLLECTIVE_START, R380
  | collectiveComplete (coll : Nat) (outside : List CollIn)   -- COLLECTIVE_COMPLETE, R381
  | rotorPhase   -- ROTOR_PHASE, R361
  | packetArrive (packet : PacketIn)   -- PACKET_ARRIVE, R362
  | fabricAckArrive (packet : Nat) (outside : ExtData)   -- FABRIC_ACK_ARRIVE, R372
  | remoteReplyArrive (round : Nat) (outside : List Reply)   -- REMOTE_REPLY_ARRIVE, R369
  | packetRetransmit (packet : Nat)   -- PACKET_RETRANSMIT, R362
  | fabricTimeout (packet : Nat)   -- FABRIC_TIMEOUT, R362
  | relayForward (packet : Nat)   -- RELAY_FORWARD, R363
  | wcLineAgeing (line : Nat)   -- WC_LINE_AGEING, R371
  | rankMigration (partition job : Nat) (entries : Migration)   -- RANK_MIGRATION, R367
  | inboxSlotWrite (partition offset : Nat) (data : List Byte)   -- INBOX_SLOT_WRITE, R334
  | inboxProdWrite (partition : Nat) (value : Word)   -- INBOX_PROD_WRITE, R335
  | attestationRequest (fn : Nat)   -- ATTESTATION_REQUEST, R341
  | attestationReportReady (fn : Nat)   -- ATTESTATION_REPORT_READY, R341
  | powlimWrite (value : Word)   -- POWLIM_WRITE, R342
  | powerThrottle (clk watts : Nat)   -- POWER_THROTTLE, R342
  | bar0Write (fn offset : Nat) (data : List Byte)   -- BAR0_WRITE, R332
  | packageReset   -- RESET, R337
  | selfTestComplete (word bit : Nat)   -- SELF_TEST_COMPLETE, R337
  | partitionImageStart (partition core : Nat) (entry : Word)   -- PARTITION_IMAGE_START, R337
  | partitionAssign (spec : PartSpec)   -- PARTITION_ASSIGN, R336
  | clauseFetch (round : Nat)   -- CLAUSE_FETCH, R44
  | hostLinkWriteIssue (round : Nat)   -- HOST_LINK_WRITE_ISSUE, R299
  | hostWindowWrite (partition index : Nat) (entry : Word)   -- HOST_WINDOW_WRITE, R333
  | heldFlagDiscard (flag : PacketIn)   -- HELD_FLAG_DISCARD, R375
  deriving DecidableEq, Repr

end Sys2Proof
end

