-- ==== Sys2Proof/Machine/OperandCode.lean ====
section
/-! DEFINITION. Operand codes (R47), the kinds of operand that an instruction's fields may name (R47 to R52) and the
shared field codes (R54 to R60). -/
namespace Sys2Proof.Machine

/-- The specials of R47 and R83, in the order of their codes 1673 to 1683. -/
inductive Special where
  | lane | rix | tix | nteam | width | coreid | clusid | dieid | rank | clock | partid
  deriving DecidableEq, Repr

/-- What an 11-bit operand code names (R47). -/
inductive Operand where
  | v (n : Nat)
  | s (n : Nat)
  | t (n : Nat)
  | zero
  | special (x : Special)
  | walker (k : Nat)
  | reserved
  deriving DecidableEq, Repr

/-- The special of code 1673 + k (R47). -/
def Special.ofIndex : Nat → Special
  | 0 => .lane | 1 => .rix | 2 => .tix | 3 => .nteam | 4 => .width | 5 => .coreid
  | 6 => .clusid | 7 => .dieid | 8 => .rank | 9 => .clock | _ => .partid

/-- The operand that a code names (R47). -/
def Operand.ofNat (n : Nat) : Operand :=
  if n < 1536 then .v n
  else if n < 1664 then .s (n - 1536)
  else if n < 1672 then .t (n - 1664)
  else if n = 1672 then .zero
  else if n < 1684 then .special (Special.ofIndex (n - 1673))
  else if n < 1696 then .reserved
  else if n < 1704 then .walker (n - 1696)
  else .reserved

/-- The operand that an operand field names (R47). -/
def operand (c : Code) : Operand := Operand.ofNat c.toNat

/-- The code of `zero` (R47), which an unused operand field holds (R51). -/
def zeroCode : Code := 1672

/-- What an operand field may hold (R47 to R52 and the describing chapters). -/
inductive OpKind where
  | unused            -- 1672 only (R51)
  | src               -- any readable operand
  | dst               -- v, s or t register, or zero
  | dstReg            -- v, s or t register
  | addr              -- v, s or t register, or zero
  | sOrZero | sReg | vReg
  | vs                -- v or s register
  | vsOrZero          -- v or s register, or zero
  | sZeroSpecial      -- s register, zero or a special other than lane
  | vRun (n : Nat)    -- v register, n consecutive names (R50)
  | pair              -- v or s register and its successor (R50)
  | free              -- not an operand code (R52)
  deriving DecidableEq, Repr

/-- True of a code that names a v register. -/
def isV (c : Code) : Bool := c.toNat < 1536

/-- Whether an operand field of the given kind may hold the code (R47 to R51). -/
def OpKind.ok (k : OpKind) (c : Code) : Bool :=
  match k, operand c with
  | .free, _ => true
  | .unused, o => o == .zero
  | .src, o => o != .reserved
  | .dst, .v _ => true | .dst, .s _ => true | .dst, .t _ => true | .dst, .zero => true | .dst, _ => false
  | .dstReg, .v _ => true | .dstReg, .s _ => true | .dstReg, .t _ => true | .dstReg, _ => false
  | .addr, .v _ => true | .addr, .s _ => true | .addr, .t _ => true | .addr, .zero => true | .addr, _ => false
  | .sOrZero, .s _ => true | .sOrZero, .zero => true | .sOrZero, _ => false
  | .sReg, .s _ => true | .sReg, _ => false
  | .vReg, .v _ => true | .vReg, _ => false
  | .vs, .v _ => true | .vs, .s _ => true | .vs, _ => false
  | .vsOrZero, .v _ => true | .vsOrZero, .s _ => true | .vsOrZero, .zero => true | .vsOrZero, _ => false
  | .sZeroSpecial, .s _ => true | .sZeroSpecial, .zero => true
  | .sZeroSpecial, .special x => x != .lane | .sZeroSpecial, _ => false
  | .vRun n, .v m => m + n ≤ 1536 | .vRun _, _ => false
  | .pair, .v m => m + 2 ≤ 1536 | .pair, .s m => m + 2 ≤ 128 | .pair, _ => false

/-- The limits of a uniform instruction's operands (R49): sources are s registers, zero and the specials other than
lane; the destination is an s register or zero. -/
def OpKind.okUniform (k : OpKind) (c : Code) : Bool :=
  match k with
  | .free => true
  | .unused => k.ok c
  | .dst | .dstReg => OpKind.sOrZero.ok c
  | _ => OpKind.sZeroSpecial.ok c

/-- Semantics of ORD (R54). -/
inductive Sem where
  | plain | acquire | release | both
  deriving DecidableEq, Repr

/-- The semantics bits [4:3] of ORD (R54); for a load, code 11 is acquire-promote. -/
def ordSem (o : BitVec 5) : Nat := o.toNat / 8

/-- The scope bits [2:0] of ORD (R54): 0 round, 1 team, 2 core, 3 cluster, 4 die, 5 package, 6 system. -/
def ordScope (o : BitVec 5) : Nat := o.toNat % 8

/-- Element width in bits of an IW completer (R60). -/
def iwBits (cmp : BitVec 3) : Nat :=
  match cmp.toNat / 2 with
  | 0 => 64 | 1 => 32 | 2 => 16 | _ => 8

/-- Element width in bits of an ES completer (R60). -/
def esBits (cmp : BitVec 3) : Nat :=
  match cmp.toNat % 4 with
  | 0 => 64 | 1 => 32 | 2 => 16 | _ => 8

/-- Bytes moved by an access of SZ code `sz` (R55). -/
def szBytes (sz : BitVec 3) : Nat := 2 ^ sz.toNat

/-- Bytes of an atomic of ASZ code (R53, R58): 00 four, 01 eight, 10 two. -/
def aszBytes (asz : BitVec 2) : Nat :=
  match asz.toNat with
  | 0 => 4 | 1 => 8 | _ => 2

/-- Consecutive v registers of a memory datum (R55). -/
def szRegs (sz : BitVec 3) : Nat :=
  match sz.toNat with
  | 4 => 2 | 5 => 4 | _ => 1

/-- The kind of a memory datum's D field: 128-bit and 256-bit data need v registers (R55). -/
def dataKind (k : OpKind) (sz : BitVec 3) : OpKind := if 4 ≤ sz.toNat then .vRun (szRegs sz) else k

/-- Slot width in bits of an A fragment element for MMAB's format code and k field (R205). -/
def fragBits (fa : Nat) (k : Nat) : Nat :=
  match fa with
  | 0 => 4
  | 1 => 8
  | 2 => 8
  | _ => if k + 2 ≤ 4 then 4 else 8

/-- Registers of an A fragment with es-bit slots in a round of width w (R206). -/
def fragRegs (es w : Nat) : Nat := 2048 / ((64 / es) * w)

/-- The status registers that RDSR and WRSR may name (R103, R223, R289, R326). -/
def statusDefined (n : Nat) : Bool := (0x100 ≤ n && n ≤ 0x107) || n == 0x130 || n == 0x131

/-- Block element formats of QNT (R133). -/
def isQntFormat (c : Nat) : Bool := c == 6 || c == 7 || c == 9 || (0x12 ≤ c && c ≤ 0x18)

/-- Block element formats of DQNT (R134). -/
def isDqntFormat (c : Nat) : Bool := isQntFormat c || c == 4 || c == 5 || c == 8

end Sys2Proof.Machine
end

