-- ==== Sys2Proof/Machine/ClauseCheck.lean ====
section
/-! DEFINITION. The clause checks of one instruction word (R41, R45 to R62, R63): its class, its field checks and
its operand checks, each with the lowest bit position of the field. -/
namespace Sys2Proof.Machine

/-- What the checks of R63 look at in one word: `fields` pairs a field's verdict with its lowest bit (check 4);
`ops` gives the kind, the code and the lowest bit of every operand field (check 5). -/
structure Shape where
  fields : List (Bool × Nat)
  ops : List (OpKind × Code × Nat)
  deriving DecidableEq, Repr

/-- The last-read rule of R46 for one source field: set only on a v register's code, and clear on a field that no
source uses (R51, R52). DEDUCED: log entry 16. -/
def lrOk (k : OpKind) (lr : Bool) (c : Code) : Bool :=
  match k with
  | .free => true
  | .unused => !lr
  | _ => !lr || isV c

/-- Fields of an R-format word. D carries no last-read bit. -/
def shapeR (f : RForm) (kd ka kb kc : OpKind) (cmp : Bool) (extra : List (Bool × Nat)) : Shape :=
  { fields := [(cmp, 0), (lrOk ka f.lra f.a, 49), (lrOk kb f.lrb f.b, 48), (lrOk kc f.lrc f.c, 47)] ++ extra
    ops := [(kd, f.d, 36), (ka, f.a, 25), (kb, f.b, 14), (kc, f.c, 3)] }

/-- Fields of an I-format word. -/
def shapeI (f : IForm) (kd ka : OpKind) (cmp imm : Bool) (extra : List (Bool × Nat)) : Shape :=
  { fields := [(imm, 0), (cmp, 24), (lrOk ka f.lra f.a, 49)] ++ extra
    ops := [(kd, f.d, 38), (ka, f.a, 27)] }

/-- Fields of an M-format word. -/
def shapeM (f : MForm) (kd ka : OpKind) (ord sz : Bool) (extra : List (Bool × Nat)) : Shape :=
  { fields := [(sz, 18), (ord, 21), (lrOk ka f.lra f.a, 48), (lrOk kd f.lrd f.d, 49)] ++ extra
    ops := [(kd, f.d, 37), (ka, f.a, 26)] }

/-- Fields of an A-format word. -/
def shapeA (f : AForm) (kd ka : OpKind) (ord op asz : Bool) (extra : List (Bool × Nat)) : Shape :=
  { fields := [(f.z == 0, 0), (asz, 4), (op, 6), (ord, 9), (lrOk ka f.lra f.a, 48), (lrOk .src f.lrb f.b, 47)] ++ extra
    ops := [(kd, f.d, 36), (ka, f.a, 25), (.src, f.b, 14)] }

/-- Fields of an X-format word; `mm` tells whether RU and Z may be set (R53). -/
def shapeX (f : XForm) (ka kb : OpKind) (h fa fb mm imm : Bool) : Shape :=
  { fields := [(imm, 0), (f.rsv == 0, 12), (mm || !f.z, 15), (mm || !f.ru, 16), (fb, 17), (fa, 20), (h, 45)]
    ops := [(ka, f.a, 34), (kb, f.b, 23)] }

/-- Fields of a P-format word. -/
def shapeP (f : PForm) (ld ls : Bool) (ka kb kc : OpKind) (cmp : Bool) (extra : List (Bool × Nat)) : Shape :=
  { fields := [(cmp, 0), (ls, 37), (ld, 42), (lrOk ka f.lra f.a, 49), (lrOk kb f.lrb f.b, 48), (lrOk kc f.lrc f.c, 47)]
      ++ extra
    ops := [(ka, f.a, 26), (kb, f.b, 15), (kc, f.c, 4)] }

/-- Fields of an S-format word (R53, R250). -/
def shapeS (f : SForm) (bar : Bool) : Shape :=
  { fields := [(f.z == 0, 0), (bar, 46)]
    ops := [(if f.ci then .free else .sZeroSpecial, f.cntf, 34)] }

/-- Fields of a J-format word. -/
def shapeJ (_f : JForm) (aux : Bool) : Shape := { fields := [(aux, 40)], ops := [] }

/-- The k fields of a block instruction (R59): each at most 6, and zero for a format other than BFP-k. -/
def blockFieldsOk (fa fb : BitVec 3) (imm : BitVec 12) : Bool :=
  let ka := imm.toNat % 8
  let kb := imm.toNat / 8 % 8
  ka < 7 && kb < 7 && (fa == 3 || ka == 0) && (fb == 3 || kb == 0)

/-- The fields and operands of every instruction (R52 to R62 and the describing chapters) in a round of width `w`
(R50 counts the registers of a fragment by the width). An event has no word. ORD code 11 of LDS, LDH and RLD, which R54's table names
acquire-promote, is ILLEGAL_FIELD, as their own chapters have it (R153, R290, R368). DEDUCED: log entry 78. -/
def shape (w : Nat) : Instr → Shape
  | .iadd f => shapeR f .dst .src .src .unused (true) []
  | .isub f => shapeR f .dst .src .src .unused (true) []
  | .imul f => shapeR f .dst .src .src .unused (true) []
  | .imulh f => shapeR f .dst .src .src .unused (true) []
  | .imad f => shapeR f .dst .src .src .src (true) []
  | .imin f => shapeR f .dst .src .src .unused (true) []
  | .imax f => shapeR f .dst .src .src .unused (true) []
  | .iabs f => shapeR f .dst .src .unused .unused (true) []
  | .and f => shapeR f .dst .src .src .unused (f.cmp.toNat % 2 == 0) []
  | .or f => shapeR f .dst .src .src .unused (f.cmp.toNat % 2 == 0) []
  | .xor f => shapeR f .dst .src .src .unused (f.cmp.toNat % 2 == 0) []
  | .andn f => shapeR f .dst .src .src .unused (f.cmp.toNat % 2 == 0) []
  | .not f => shapeR f .dst .src .unused .unused (f.cmp.toNat % 2 == 0) []
  | .shl f => shapeR f .dst .src .src .unused (true) []
  | .shr f => shapeR f .dst .src .src .unused (f.cmp.toNat % 2 == 0) []
  | .sar f => shapeR f .dst .src .src .unused (f.cmp.toNat % 2 == 0) []
  | .rol f => shapeR f .dst .src .src .unused (f.cmp.toNat % 2 == 0) []
  | .popc f => shapeR f .dst .src .unused .unused (f.cmp.toNat % 2 == 0) []
  | .clz f => shapeR f .dst .src .unused .unused (f.cmp.toNat % 2 == 0) []
  | .ctz f => shapeR f .dst .src .unused .unused (f.cmp.toNat % 2 == 0) []
  | .brev f => shapeR f .dst .src .unused .unused (f.cmp.toNat % 2 == 0) []
  | .bfx f => shapeR f .dst .src .src .unused (true) []
  | .bfi f => shapeR f .dst .src .src .src (f.cmp.toNat % 2 == 0) []
  | .lea f => shapeR f .dst .src .src .src (f.cmp.toNat % 2 == 0) []
  | .mov f => shapeR f .dst .src .unused .unused (f.cmp.toNat % 2 == 0) []
  | .sel f => shapeR f .dst .src .src .free (f.cmp.toNat % 2 == 0) [(f.c.toNat < 16, 3), (!f.lrc, 47)]
  | .bysel f => shapeR f .dst .src .src .src (f.cmp.toNat % 2 == 0) []
  | .icmp f => shapeR f .free .src .src .unused (true) [(f.d.toNat / 8 < 6, 36)]
  | .pcomb f => shapeR f .free .free .free .free (f.cmp == 0) [(f.a.toNat < 16, 25), (f.b.toNat < 16, 14), (f.c.toNat < 16, 3), (!f.lra, 49), (!f.lrb, 48), (!f.lrc, 47)]
  | .vote f => shapeR f .dst .free .unused .unused (f.cmp.toNat < 3) [(f.a.toNat < 16, 25), (!f.lra, 49)]
  | .pick f => shapeR f .dst .src .unused .unused (f.cmp.toNat % 2 == 0) []
  | .iaddi f => shapeI f .dst .src (true) (true) []
  | .imuli f => shapeI f .dst .src (true) (true) []
  | .andi f => shapeI f .dst .src (f.cmp.toNat % 2 == 0) (true) []
  | .ori f => shapeI f .dst .src (f.cmp.toNat % 2 == 0) (true) []
  | .xori f => shapeI f .dst .src (f.cmp.toNat % 2 == 0) (true) []
  | .shli f => shapeI f .dst .src (true) (f.imm.toNat < iwBits f.cmp) []
  | .shri f => shapeI f .dst .src (f.cmp.toNat % 2 == 0) (f.imm.toNat < iwBits f.cmp) []
  | .sari f => shapeI f .dst .src (f.cmp.toNat % 2 == 0) (f.imm.toNat < iwBits f.cmp) []
  | .movi f => shapeI f .dst .unused (f.cmp.toNat % 2 == 0) (true) []
  | .movk f => shapeI f .dst .src (f.cmp == 0) (f.imm.toNat < 2 ^ 18) []
  | .icmpi f => shapeI f .free .src (true) (true) [(f.d.toNat / 8 < 6, 38)]
  | .fadd _ f => shapeR f .dst .src .src .unused (true) []
  | .fsub _ f => shapeR f .dst .src .src .unused (true) []
  | .fmul _ f => shapeR f .dst .src .src .unused (true) []
  | .ffma _ f => shapeR f .dst .src .src .src (true) []
  | .fmin _ f => shapeR f .dst .src .src .unused (f.cmp == 0) []
  | .fmax _ f => shapeR f .dst .src .src .unused (f.cmp == 0) []
  | .fcmp _ f => shapeR f .free .src .src .unused (f.cmp == 0) [(f.d.toNat < 64, 36)]
  | .frnd _ f => shapeR f .dst .src .unused .unused (f.cmp.toNat < 4) []
  | .fneg _ f => shapeR f .dst .src .unused .unused (f.cmp == 0) []
  | .fabs _ f => shapeR f .dst .src .unused .unused (f.cmp == 0) []
  | .fdot ty f => shapeR f .dst .src .src .src (true) [(ty == .f16 || ty == .bf16, 54)]
  | .fclass _ f => shapeR f .dst .src .unused .unused (f.cmp == 0) []
  | .fcvt f => shapeI f .dst .src (true) (f.imm.toNat % 256 < 6 && f.imm.toNat / 256 < 6 && f.imm.toNat % 256 != f.imm.toNat / 256) []
  | .f2i f => shapeI f .dst .src (f.cmp.toNat < 4) (f.imm.toNat % 256 < 4 && f.imm.toNat / 256 < 8) []
  | .i2f f => shapeI f .dst .src (true) (f.imm.toNat % 256 < 4 && f.imm.toNat / 256 < 8) []
  | .qnt f => shapeR f .dst .src .unused .free (f.cmp.toNat < 2) [(isQntFormat f.c.toNat, 3), (!f.lrc, 47)]
  | .dqnt f => shapeR f .dst .src .unused .free (true) [(isDqntFormat (f.c.toNat % 32) && 1 ≤ f.c.toNat / 32 && f.c.toNat / 32 ≤ 3, 3), (!f.lrc, 47)]
  | .gcomp f => shapeR f .dst .src .vReg .free (f.cmp.toNat < 2) [(0x12 ≤ f.c.toNat && f.c.toNat ≤ 0x18, 3), (!f.lrc, 47), (!f.lrb, 48)]
  | .cvtw f => shapeR f .dst .src .unused .unused (f.cmp == 0) []
  | .wreb f => shapeR f .dst .src .unused .unused (f.cmp == 0) []
  | .shfl f => shapeR f .dst .src .src .unused (f.cmp.toNat < 4) []
  | .shflx f => shapeR f .dst .src .src .free (f.cmp.toNat < 4) [(f.c.toNat < 3, 3), (!f.lrc, 47)]
  | .bcst f => shapeR f .dst .src .src .unused (f.cmp.toNat < 4) []
  | .radd f => shapeR f .dst .src .unused .unused (f.cmp.toNat < 6) []
  | .rmin f => shapeR f .dst .src .unused .unused (f.cmp.toNat < 6) []
  | .rmax f => shapeR f .dst .src .unused .unused (f.cmp.toNat < 6) []
  | .rminx f => shapeR f .dst .src .unused .src (f.cmp == 0 || f.cmp == 2 || f.cmp == 4) []
  | .rmaxx f => shapeR f .dst .src .unused .src (f.cmp == 0 || f.cmp == 2 || f.cmp == 4) []
  | .rbit f => shapeR f .dst .src .unused .unused (f.cmp.toNat < 3) []
  | .scana f => shapeR f .dst .src .unused .unused (f.cmp.toNat < 6) []
  | .scanae f => shapeR f .dst .src .unused .unused (f.cmp.toNat < 6) []
  | .scanmin f => shapeR f .dst .src .unused .unused (f.cmp.toNat < 6) []
  | .scanmax f => shapeR f .dst .src .unused .unused (f.cmp.toNat < 6) []
  | .matchLanes f => shapeR f .dst .src .unused .unused (f.cmp.toNat < 4) []
  | .ld f => shapeM f (dataKind .dst f.sz) .addr ((ordSem f.ord == 0 || ordSem f.ord == 1 || ordSem f.ord == 3) && ordScope f.ord < 7) (f.sz.toNat < 6) [(!f.lrd, 49)]
  | .st f => shapeM f (dataKind .src f.sz) .addr ((ordSem f.ord == 0 || ordSem f.ord == 2) && ordScope f.ord < 7) (f.sz.toNat < 6) []
  | .lds f => shapeM f (dataKind .dst f.sz) .addr ((ordSem f.ord == 0 || ordSem f.ord == 1) && ordScope f.ord < 3) (f.sz.toNat < 6) [(!f.lrd, 49)]
  | .sts f => shapeM f (dataKind .src f.sz) .addr ((ordSem f.ord == 0 || ordSem f.ord == 2) && ordScope f.ord < 3) (f.sz.toNat < 6) []
  | .ldh f => shapeM f (dataKind .dst f.sz) .addr ((ordSem f.ord == 0 || ordSem f.ord == 1) && ordScope f.ord == 6) (f.sz.toNat < 4) [(!f.lrd, 49)]
  | .sth f => shapeM f (dataKind .src f.sz) .addr ((ordSem f.ord == 0 || ordSem f.ord == 2) && ordScope f.ord == 6) (f.sz.toNat < 4) []
  | .stp f => shapeR f .src .addr .addr .unused (f.cmp.toNat < 4) []
  | .atom f => shapeA f .dst .addr (ordScope f.ord < 7) (true) (f.asz.toNat < 2 || (f.asz == 2 && f.op == 7)) [(!f.lrd, 49)]
  | .atomu f => shapeA f .dst .addr (ordScope f.ord < 7) (f.op == 1 || f.op == 2) (f.asz.toNat < 2) [(!f.lrd, 49)]
  | .cas f => shapeR f .dst .addr .src .src (f.cmp.toNat < 7) []
  | .atoms f => shapeA f .dst .addr (ordScope f.ord < 3) (true) (f.asz.toNat < 2 || (f.asz == 2 && f.op == 7)) [(!f.lrd, 49)]
  | .cass f => shapeR f .dst .addr .src .src (f.cmp.toNat < 3) []
  | .fence f => shapeR f .unused .unused .unused .unused (f.cmp.toNat < 7) []
  | .fencex f => shapeI f .unused .unused (f.cmp == 0) (f.imm.toNat < 64 && f.imm.toNat % 8 < 6 && f.imm.toNat / 8 < 6 && f.imm.toNat % 8 != f.imm.toNat / 8) []
  | .pref f => shapeM f .unused .addr (f.ord == 0) (f.sz == 0) []
  | .tlook f => shapeR f .dst .src .unused .unused (f.cmp == 0) []
  | .tset f => shapeR f .unused .src .src .unused (f.cmp == 0) []
  | .tclr f => shapeR f .unused .src .unused .unused (f.cmp == 0) []
  | .cpy f => shapeP f (f.ld == 0) (f.ls == 0) .sOrZero .sOrZero .sOrZero (f.cmp.toNat / 4 < 3 && f.cmp.toNat % 4 < 3 && f.cmp != 10) []
  | .cpyr f => shapeP f (f.ld == 0) (f.ls.toNat < 2) (.vRun (f.cmp.toNat + 1)) .addr .sZeroSpecial (true) [(!f.lra, 49)]
  | .cpyi f => shapeP f (f.ld == 0) (f.ls == 0) .sOrZero .unused .unused (f.cmp.toNat < 2) []
  | .cseal f => shapeR f .sOrZero .unused .unused .unused (f.cmp == 0) []
  | .cwait f => shapeI f .unused .sOrZero (f.cmp == 0) (true) [(!f.lra, 49)]
  | .cwaitk f => shapeI f .unused .sOrZero (f.cmp == 0) (true) [(!f.lra, 49)]
  | .lyld f => shapeP f (true) (f.ls == 0) .sOrZero .unused .unused (f.cmp.toNat < 2) [(!f.lra, 49)]
  | .lyst f => shapeP f (f.ld == 0) (true) .sOrZero .unused .unused (f.cmp.toNat < 2) [(!f.lra, 49)]
  | .lyset f => shapeP f (true) (f.ls == 0) .src .src .unused (f.cmp == 0) []
  | .lyget f => shapeP f (f.ld == 0) (true) .dst .src .unused (f.cmp == 0) [(!f.lra, 49)]
  | .place f => shapeP f (true) (true) (if f.cmp.toNat / 8 == 1 then .free else .unused) .unused .unused (f.cmp.toNat % 4 < 3 && f.cmp.toNat % 8 != 4) [(f.cmp.toNat / 8 == 0 || f.a.toNat < 8, 26), (!f.lra, 49)]
  | .plq f => shapeP f (true) (true) .dst .unused .unused (f.cmp == 0) [(!f.lra, 49)]
  | .tld f => shapeP f (f.ld == 0) (true) .dst .src .unused (f.cmp == 0) [(!f.lra, 49)]
  | .tst f => shapeP f (true) (f.ls == 0) .src .src .unused (f.cmp == 0) []
  | .loc f => shapeP f (f.ld == 0) (true) .dst .src .unused (f.cmp == 0) [(!f.lra, 49)]
  | .mmah f => shapeX f (.vRun (fragRegs 16 w)) .sReg true (f.fa.toNat < 2) (f.fb.toNat < 2) true (f.imm == 0)
  | .mmab f => shapeX f (.vRun (fragRegs (fragBits f.fa.toNat (f.imm.toNat % 8)) w)) .sReg (f.h.toNat < 2) (f.fa.toNat < 4) (f.fb.toNat < 4) true (blockFieldsOk f.fa f.fb f.imm && f.imm.toNat < 64)
  | .scacc f => shapeX f .unused .unused true (f.fa.toNat < 4) (f.fb.toNat < 4) false (blockFieldsOk f.fa f.fb f.imm && f.imm.toNat < 128)
  | .spush f => shapeR f .unused .vReg .unused .unused (f.cmp == 0) []
  | .schk f => shapeR f .unused .unused .unused .unused (f.cmp == 0) []
  | .azero f => shapeX f .unused .unused true (f.fa == 0) (f.fb == 0) false (f.imm == 0)
  | .ald f => shapeX f .unused .sReg true (f.fa == 0) (f.fb == 0) false (f.imm == 0)
  | .drn f => shapeX f .unused .sReg true (f.fa == 0) (f.fb == 0) false (f.imm.toNat < 2)
  | .pjadj f => shapeR f .sReg .sReg .sReg .sOrZero (f.cmp == 0) [(!f.lra, 49), (!f.lrb, 48), (!f.lrc, 47)]
  | .achk f => shapeX f .unused .unused true (f.fa == 0) (f.fb == 0) false (f.imm == 0)
  | .arel f => shapeR f .unused .unused .unused .unused (f.cmp == 0) []
  | .aset f => shapeI f .unused .sOrZero (f.cmp == 0) (true) [(!f.lra, 49)]
  | .sfq f => shapeI f .vReg .vsOrZero (f.cmp == 0) (f.imm.toNat < 192) []
  | .sfwait f => shapeI f .unused .unused (f.cmp == 0) (f.imm.toNat < 2 ^ 16) []
  | .sfpoll f => shapeI f .free .unused (f.cmp == 0) (f.imm.toNat < 2 ^ 16) [(f.d.toNat < 8, 38)]
  | .bra f => shapeJ f (f.aux == 0)
  | .brx f => shapeR f .unused .vs .unused .unused (f.cmp == 0) []
  | .call f => shapeJ f (f.aux == 0)
  | .callx f => shapeR f .unused .sReg .unused .unused (f.cmp == 0) []
  | .ret f => shapeR f .unused .unused .unused .unused (f.cmp == 0) []
  | .mjoin f => shapeJ f (f.aux == 0)
  | .join f => shapeR f .unused .unused .unused .unused (f.cmp == 0) []
  | .brw f => shapeJ f (f.aux.toNat % 32 == 0)
  | .exit f => shapeR f .unused .unused .unused .unused (f.cmp == 0) []
  | .nop f => shapeR f .unused .unused .unused .unused (f.cmp == 0) []
  | .rpf f => shapeI f .unused (.vRun f.imm.toNat) (f.cmp == 0) (1 ≤ f.imm.toNat && f.imm.toNat ≤ 64) [(!f.lra, 49)]
  | .rdrop f => shapeI f .unused (.vRun f.imm.toNat) (f.cmp == 0) (1 ≤ f.imm.toNat && f.imm.toNat ≤ 64) [(!f.lra, 49)]
  | .wbind f => shapeI f .unused .sOrZero (f.cmp == 0) (f.imm.toNat < 8) []
  | .wstat f => shapeI f .dst .unused (f.cmp == 0) (f.imm.toNat < 8) []
  | .trap f => shapeI f .unused .unused (f.cmp == 0) (true) []
  | .bkpt f => shapeI f .unused .unused (f.cmp == 0) (true) []
  | .yield f => shapeR f .unused .unused .unused .unused (f.cmp == 0) []
  | .sleep f => shapeI f .unused .unused (f.cmp == 0) (true) []
  | .rdsr f => shapeI f .dst .unused (f.cmp == 0) (f.imm.toNat < 5 || statusDefined f.imm.toNat) []
  | .caprd f => shapeI f .dst .sOrZero (f.cmp == 0) (f.imm.toNat < 2) [(!f.lra, 49)]
  | .bara f => shapeS f (true)
  | .barw f => shapeS f (true)
  | .barq f => shapeI f .dst .unused (f.cmp == 0) (f.imm.toNat < 16) []
  | .cbar f => shapeS f (f.bar.toNat < 2)
  | .xwin f => shapeR f .unused .sOrZero .sOrZero .sOrZero (f.cmp == 0) [(!f.lra, 49), (!f.lrb, 48), (!f.lrc, 47)]
  | .xst f => shapeR f .src .src .src .sOrZero (f.cmp == 0) [(!f.lrc, 47)]
  | .xadd f => shapeA f .unused (.vRun 2) (f.ord == 3) (f.op == 0 || f.op == 7) (f.asz == 0 || (f.asz == 2 && f.op == 7)) [(!f.lrd, 49), (!f.lra, 48), (!f.lrb, 47)]
  | .semp f => shapeR f .unused .src .src .unused (f.cmp == 0) []
  | .semw f => shapeR f .unused .src .src .unused (f.cmp == 0) []
  | .gpost f => shapeR f .dst .src .unused .unused (f.cmp == 0) []
  | .garm f => shapeR f .unused .src .src .unused (f.cmp == 0) []
  | .gwait f => shapeR f .dst .src .src .unused (f.cmp == 0) []
  | .grdy f => shapeR f .unused .unused .unused .unused (f.cmp == 0) []
  | .madmit f => shapeR f .dst .src .src .src (f.cmp == 0) []
  | .mretire f => shapeR f .unused .src .src .unused (f.cmp == 0) []
  | .mread f => shapeR f .dst .src .unused .unused (f.cmp == 0) []
  | .rld f => shapeM f (dataKind .dst f.sz) .pair ((ordSem f.ord == 0 || ordSem f.ord == 1) && ordScope f.ord == 6) (f.sz.toNat < 6) [(!f.lrd, 49)]
  | .rst f => shapeM f (dataKind .src f.sz) .pair ((ordSem f.ord == 0 || ordSem f.ord == 2) && ordScope f.ord == 6) (f.sz.toNat < 6) []
  | .ratom f => shapeA f .dst .pair (ordScope f.ord == 6) (true) (f.asz.toNat < 2 || (f.asz == 2 && f.op == 7)) [(!f.lrd, 49)]
  | .rcas f => shapeR f .dstReg .pair .src .unused (f.cmp == 6) []
  | .rflush f => shapeR f .unused .sOrZero .sOrZero .unused (f.cmp == 0) [(!f.lra, 49), (!f.lrb, 48)]
  | .rrel f => shapeR f .src .pair .unused .unused (f.cmp == 0) []
  | .rankq f => shapeR f .dst .src .unused .unused (f.cmp == 0) []
  | .coll f => shapeR f .dst .sOrZero .unused .unused (f.cmp.toNat < 4 || f.cmp == 4 || f.cmp == 6) [(!f.lra, 49)]
  | .collw f => shapeR f .unused .sOrZero .unused .unused (f.cmp == 0) [(!f.lra, 49)]
  | .crjob f => shapeR f .dst .sOrZero .unused .unused (f.cmp.toNat < 2) [(!f.lra, 49)]
  | .crwait f => shapeR f .unused .sOrZero .unused .unused (f.cmp == 0) [(!f.lra, 49)]
  | .crstat f => shapeR f .dst .sOrZero .unused .unused (f.cmp == 0) [(!f.lra, 49)]
  | .crplan f => shapeR f .dst .sOrZero .unused .unused (f.cmp == 0) [(!f.lra, 49)]
  | .wrsr f => shapeI f .unused .sOrZero (f.cmp == 0) (statusDefined f.imm.toNat) [(!f.lra, 49)]
  | .eret f => shapeR f .unused .sOrZero .sOrZero .unused (f.cmp == 0) [(!f.lra, 49), (!f.lrb, 48)]
  | .tlbi f => shapeR f .unused .sOrZero .sOrZero .unused (f.cmp == 0) [(!f.lra, 49), (!f.lrb, 48)]
  | .rtabw f => shapeR f .unused .sOrZero .sOrZero .sOrZero (f.cmp == 0) [(!f.lra, 49), (!f.lrb, 48), (!f.lrc, 47)]
  | .halt f => shapeR f .unused .unused .unused .unused (f.cmp == 0) []
  | .diag f => shapeR f .unused .sOrZero .sOrZero .unused (f.cmp == 0) [(!f.lra, 49), (!f.lrb, 48)]
  | .ctxsv f => shapeR f .sOrZero .sOrZero .sOrZero .unused (f.cmp == 0) [(!f.lra, 49), (!f.lrb, 48)]
  | .ctxld f => shapeR f .unused .sOrZero .sOrZero .unused (f.cmp == 0) [(!f.lra, 49), (!f.lrb, 48)]
  | .clauseSelect _ _ _ => ⟨[], []⟩
  | .sleepExpire _ => ⟨[], []⟩
  | .roundEnd _ => ⟨[], []⟩
  | .spill _ => ⟨[], []⟩
  | .watchdog _ => ⟨[], []⟩
  | .roundStop _ => ⟨[], []⟩
  | .contextSave _ => ⟨[], []⟩
  | .cpyrDataLand _ _ => ⟨[], []⟩
  | .copyMemberComplete _ _ _ => ⟨[], []⟩
  | .passComplete _ _ _ => ⟨[], []⟩
  | .drainComplete _ _ => ⟨[], []⟩
  | .sfqResultLand _ _ => ⟨[], []⟩
  | .exchangeItemLand _ => ⟨[], []⟩
  | .windowTableUpdate _ => ⟨[], []⟩
  | .storeBufferDrain _ => ⟨[], []⟩
  | .storeBufferTimeout _ => ⟨[], []⟩
  | .storeAck _ _ => ⟨[], []⟩
  | .translationWalkComplete _ _ _ => ⟨[], []⟩
  | .trapQueueEntryWrite _ => ⟨[], []⟩
  | .sortingOfficeAdmit _ => ⟨[], []⟩
  | .nodeComplete _ => ⟨[], []⟩
  | .courierJobStart _ => ⟨[], []⟩
  | .courierSegmentComplete _ _ _ => ⟨[], []⟩
  | .courierNodeStop _ => ⟨[], []⟩
  | .collectiveStart _ => ⟨[], []⟩
  | .collectiveComplete _ _ => ⟨[], []⟩
  | .rotorPhase => ⟨[], []⟩
  | .packetArrive _ => ⟨[], []⟩
  | .fabricAckArrive _ _ => ⟨[], []⟩
  | .remoteReplyArrive _ _ => ⟨[], []⟩
  | .packetRetransmit _ => ⟨[], []⟩
  | .fabricTimeout _ => ⟨[], []⟩
  | .relayForward _ => ⟨[], []⟩
  | .wcLineAgeing _ => ⟨[], []⟩
  | .rankMigration _ _ _ => ⟨[], []⟩
  | .inboxSlotWrite _ _ _ => ⟨[], []⟩
  | .inboxProdWrite _ _ => ⟨[], []⟩
  | .attestationRequest _ => ⟨[], []⟩
  | .attestationReportReady _ => ⟨[], []⟩
  | .powlimWrite _ => ⟨[], []⟩
  | .powerThrottle _ _ => ⟨[], []⟩
  | .bar0Write _ _ _ => ⟨[], []⟩
  | .packageReset => ⟨[], []⟩
  | .selfTestComplete _ _ => ⟨[], []⟩
  | .partitionImageStart _ _ _ => ⟨[], []⟩
  | .partitionAssign _ => ⟨[], []⟩
  | .clauseFetch _ => ⟨[], []⟩
  | .hostLinkWriteIssue _ => ⟨[], []⟩
  | .hostWindowWrite _ _ _ => ⟨[], []⟩
  | .heldFlagDiscard _ => ⟨[], []⟩

/-- The guard and UNI bit of an instruction; events carry none. -/
def instrGuard : Instr → Guard
  | .iadd f => f.g
  | .isub f => f.g
  | .imul f => f.g
  | .imulh f => f.g
  | .imad f => f.g
  | .imin f => f.g
  | .imax f => f.g
  | .iabs f => f.g
  | .and f => f.g
  | .or f => f.g
  | .xor f => f.g
  | .andn f => f.g
  | .not f => f.g
  | .shl f => f.g
  | .shr f => f.g
  | .sar f => f.g
  | .rol f => f.g
  | .popc f => f.g
  | .clz f => f.g
  | .ctz f => f.g
  | .brev f => f.g
  | .bfx f => f.g
  | .bfi f => f.g
  | .lea f => f.g
  | .mov f => f.g
  | .sel f => f.g
  | .bysel f => f.g
  | .icmp f => f.g
  | .pcomb f => f.g
  | .vote f => f.g
  | .pick f => f.g
  | .iaddi f => f.g
  | .imuli f => f.g
  | .andi f => f.g
  | .ori f => f.g
  | .xori f => f.g
  | .shli f => f.g
  | .shri f => f.g
  | .sari f => f.g
  | .movi f => f.g
  | .movk f => f.g
  | .icmpi f => f.g
  | .fadd _ f => f.g
  | .fsub _ f => f.g
  | .fmul _ f => f.g
  | .ffma _ f => f.g
  | .fmin _ f => f.g
  | .fmax _ f => f.g
  | .fcmp _ f => f.g
  | .frnd _ f => f.g
  | .fneg _ f => f.g
  | .fabs _ f => f.g
  | .fdot _ f => f.g
  | .fclass _ f => f.g
  | .fcvt f => f.g
  | .f2i f => f.g
  | .i2f f => f.g
  | .qnt f => f.g
  | .dqnt f => f.g
  | .gcomp f => f.g
  | .cvtw f => f.g
  | .wreb f => f.g
  | .shfl f => f.g
  | .shflx f => f.g
  | .bcst f => f.g
  | .radd f => f.g
  | .rmin f => f.g
  | .rmax f => f.g
  | .rminx f => f.g
  | .rmaxx f => f.g
  | .rbit f => f.g
  | .scana f => f.g
  | .scanae f => f.g
  | .scanmin f => f.g
  | .scanmax f => f.g
  | .matchLanes f => f.g
  | .ld f => f.g
  | .st f => f.g
  | .lds f => f.g
  | .sts f => f.g
  | .ldh f => f.g
  | .sth f => f.g
  | .stp f => f.g
  | .atom f => f.g
  | .atomu f => f.g
  | .cas f => f.g
  | .atoms f => f.g
  | .cass f => f.g
  | .fence f => f.g
  | .fencex f => f.g
  | .pref f => f.g
  | .tlook f => f.g
  | .tset f => f.g
  | .tclr f => f.g
  | .cpy f => f.g
  | .cpyr f => f.g
  | .cpyi f => f.g
  | .cseal f => f.g
  | .cwait f => f.g
  | .cwaitk f => f.g
  | .lyld f => f.g
  | .lyst f => f.g
  | .lyset f => f.g
  | .lyget f => f.g
  | .place f => f.g
  | .plq f => f.g
  | .tld f => f.g
  | .tst f => f.g
  | .loc f => f.g
  | .mmah f => f.g
  | .mmab f => f.g
  | .scacc f => f.g
  | .spush f => f.g
  | .schk f => f.g
  | .azero f => f.g
  | .ald f => f.g
  | .drn f => f.g
  | .pjadj f => f.g
  | .achk f => f.g
  | .arel f => f.g
  | .aset f => f.g
  | .sfq f => f.g
  | .sfwait f => f.g
  | .sfpoll f => f.g
  | .bra f => f.g
  | .brx f => f.g
  | .call f => f.g
  | .callx f => f.g
  | .ret f => f.g
  | .mjoin f => f.g
  | .join f => f.g
  | .brw f => f.g
  | .exit f => f.g
  | .nop f => f.g
  | .rpf f => f.g
  | .rdrop f => f.g
  | .wbind f => f.g
  | .wstat f => f.g
  | .trap f => f.g
  | .bkpt f => f.g
  | .yield f => f.g
  | .sleep f => f.g
  | .rdsr f => f.g
  | .caprd f => f.g
  | .bara f => f.g
  | .barw f => f.g
  | .barq f => f.g
  | .cbar f => f.g
  | .xwin f => f.g
  | .xst f => f.g
  | .xadd f => f.g
  | .semp f => f.g
  | .semw f => f.g
  | .gpost f => f.g
  | .garm f => f.g
  | .gwait f => f.g
  | .grdy f => f.g
  | .madmit f => f.g
  | .mretire f => f.g
  | .mread f => f.g
  | .rld f => f.g
  | .rst f => f.g
  | .ratom f => f.g
  | .rcas f => f.g
  | .rflush f => f.g
  | .rrel f => f.g
  | .rankq f => f.g
  | .coll f => f.g
  | .collw f => f.g
  | .crjob f => f.g
  | .crwait f => f.g
  | .crstat f => f.g
  | .crplan f => f.g
  | .wrsr f => f.g
  | .eret f => f.g
  | .tlbi f => f.g
  | .rtabw f => f.g
  | .halt f => f.g
  | .diag f => f.g
  | .ctxsv f => f.g
  | .ctxld f => f.g
  | .clauseSelect _ _ _ => ⟨7, false, false⟩
  | .sleepExpire _ => ⟨7, false, false⟩
  | .roundEnd _ => ⟨7, false, false⟩
  | .spill _ => ⟨7, false, false⟩
  | .watchdog _ => ⟨7, false, false⟩
  | .roundStop _ => ⟨7, false, false⟩
  | .contextSave _ => ⟨7, false, false⟩
  | .cpyrDataLand _ _ => ⟨7, false, false⟩
  | .copyMemberComplete _ _ _ => ⟨7, false, false⟩
  | .passComplete _ _ _ => ⟨7, false, false⟩
  | .drainComplete _ _ => ⟨7, false, false⟩
  | .sfqResultLand _ _ => ⟨7, false, false⟩
  | .exchangeItemLand _ => ⟨7, false, false⟩
  | .windowTableUpdate _ => ⟨7, false, false⟩
  | .storeBufferDrain _ => ⟨7, false, false⟩
  | .storeBufferTimeout _ => ⟨7, false, false⟩
  | .storeAck _ _ => ⟨7, false, false⟩
  | .translationWalkComplete _ _ _ => ⟨7, false, false⟩
  | .trapQueueEntryWrite _ => ⟨7, false, false⟩
  | .sortingOfficeAdmit _ => ⟨7, false, false⟩
  | .nodeComplete _ => ⟨7, false, false⟩
  | .courierJobStart _ => ⟨7, false, false⟩
  | .courierSegmentComplete _ _ _ => ⟨7, false, false⟩
  | .courierNodeStop _ => ⟨7, false, false⟩
  | .collectiveStart _ => ⟨7, false, false⟩
  | .collectiveComplete _ _ => ⟨7, false, false⟩
  | .rotorPhase => ⟨7, false, false⟩
  | .packetArrive _ => ⟨7, false, false⟩
  | .fabricAckArrive _ _ => ⟨7, false, false⟩
  | .remoteReplyArrive _ _ => ⟨7, false, false⟩
  | .packetRetransmit _ => ⟨7, false, false⟩
  | .fabricTimeout _ => ⟨7, false, false⟩
  | .relayForward _ => ⟨7, false, false⟩
  | .wcLineAgeing _ => ⟨7, false, false⟩
  | .rankMigration _ _ _ => ⟨7, false, false⟩
  | .inboxSlotWrite _ _ _ => ⟨7, false, false⟩
  | .inboxProdWrite _ _ => ⟨7, false, false⟩
  | .attestationRequest _ => ⟨7, false, false⟩
  | .attestationReportReady _ => ⟨7, false, false⟩
  | .powlimWrite _ => ⟨7, false, false⟩
  | .powerThrottle _ _ => ⟨7, false, false⟩
  | .bar0Write _ _ _ => ⟨7, false, false⟩
  | .packageReset => ⟨7, false, false⟩
  | .selfTestComplete _ _ => ⟨7, false, false⟩
  | .partitionImageStart _ _ _ => ⟨7, false, false⟩
  | .partitionAssign _ => ⟨7, false, false⟩
  | .clauseFetch _ => ⟨7, false, false⟩
  | .hostLinkWriteIssue _ => ⟨7, false, false⟩
  | .hostWindowWrite _ _ _ => ⟨7, false, false⟩
  | .heldFlagDiscard _ => ⟨7, false, false⟩

/-- The instructions that may be uniform (R49). -/
def uniformAllowed : Instr → Bool
  | .iadd _ => true
  | .isub _ => true
  | .imul _ => true
  | .imulh _ => true
  | .imad _ => true
  | .imin _ => true
  | .imax _ => true
  | .iabs _ => true
  | .and _ => true
  | .or _ => true
  | .xor _ => true
  | .andn _ => true
  | .not _ => true
  | .shl _ => true
  | .shr _ => true
  | .sar _ => true
  | .rol _ => true
  | .popc _ => true
  | .clz _ => true
  | .ctz _ => true
  | .brev _ => true
  | .bfx _ => true
  | .bfi _ => true
  | .lea _ => true
  | .mov _ => true
  | .bysel _ => true
  | .iaddi _ => true
  | .imuli _ => true
  | .andi _ => true
  | .ori _ => true
  | .xori _ => true
  | .shli _ => true
  | .shri _ => true
  | .sari _ => true
  | .movi _ => true
  | .movk _ => true
  | .fadd _ _ => true
  | .fsub _ _ => true
  | .fmul _ _ => true
  | .ffma _ _ => true
  | .fmin _ _ => true
  | .fmax _ _ => true
  | .frnd _ _ => true
  | .fneg _ _ => true
  | .fabs _ _ => true
  | .fdot _ _ => true
  | .fclass _ _ => true
  | .fcvt _ => true
  | .f2i _ => true
  | .i2f _ => true
  | .cvtw _ => true
  | .wreb _ => true
  | _ => false

/-- First opcode of a floating-point group (R61). -/
def ftyBase : FTy → Nat
  | .f32 => 0x040 | .f64 => 0x050 | .f16 => 0x060 | .bf16 => 0x070

/-- Opcodes of the opcode map (R61); an event has none, shown as 1024, which no word holds. -/
def opcodeOf : Instr → Nat
  | .iadd _ => 0x0
  | .isub _ => 0x1
  | .imul _ => 0x2
  | .imulh _ => 0x3
  | .imad _ => 0x4
  | .imin _ => 0x5
  | .imax _ => 0x6
  | .iabs _ => 0x7
  | .and _ => 0x8
  | .or _ => 0x9
  | .xor _ => 0xa
  | .andn _ => 0xb
  | .not _ => 0xc
  | .shl _ => 0xd
  | .shr _ => 0xe
  | .sar _ => 0xf
  | .rol _ => 0x10
  | .popc _ => 0x11
  | .clz _ => 0x12
  | .ctz _ => 0x13
  | .brev _ => 0x14
  | .bfx _ => 0x15
  | .bfi _ => 0x16
  | .lea _ => 0x17
  | .mov _ => 0x18
  | .sel _ => 0x19
  | .bysel _ => 0x1a
  | .icmp _ => 0x1b
  | .pcomb _ => 0x1c
  | .vote _ => 0x1d
  | .pick _ => 0x1e
  | .iaddi _ => 0x20
  | .imuli _ => 0x21
  | .andi _ => 0x22
  | .ori _ => 0x23
  | .xori _ => 0x24
  | .shli _ => 0x25
  | .shri _ => 0x26
  | .sari _ => 0x27
  | .movi _ => 0x28
  | .movk _ => 0x29
  | .icmpi _ => 0x2a
  | .fadd ty _ => ftyBase ty + 0
  | .fsub ty _ => ftyBase ty + 1
  | .fmul ty _ => ftyBase ty + 2
  | .ffma ty _ => ftyBase ty + 3
  | .fmin ty _ => ftyBase ty + 4
  | .fmax ty _ => ftyBase ty + 5
  | .fcmp ty _ => ftyBase ty + 6
  | .frnd ty _ => ftyBase ty + 7
  | .fneg ty _ => ftyBase ty + 8
  | .fabs ty _ => ftyBase ty + 9
  | .fdot ty _ => ftyBase ty + 10
  | .fclass ty _ => ftyBase ty + 11
  | .fcvt _ => 0x80
  | .f2i _ => 0x81
  | .i2f _ => 0x82
  | .qnt _ => 0x83
  | .dqnt _ => 0x84
  | .gcomp _ => 0x85
  | .cvtw _ => 0x86
  | .wreb _ => 0x87
  | .shfl _ => 0xa0
  | .shflx _ => 0xa1
  | .bcst _ => 0xa2
  | .radd _ => 0xa3
  | .rmin _ => 0xa4
  | .rmax _ => 0xa5
  | .rminx _ => 0xa6
  | .rmaxx _ => 0xa7
  | .rbit _ => 0xa8
  | .scana _ => 0xa9
  | .scanae _ => 0xaa
  | .scanmin _ => 0xab
  | .scanmax _ => 0xac
  | .matchLanes _ => 0xad
  | .ld _ => 0x100
  | .st _ => 0x101
  | .lds _ => 0x102
  | .sts _ => 0x103
  | .ldh _ => 0x104
  | .sth _ => 0x105
  | .stp _ => 0x106
  | .atom _ => 0x107
  | .atomu _ => 0x108
  | .cas _ => 0x109
  | .atoms _ => 0x10a
  | .cass _ => 0x10b
  | .fence _ => 0x10c
  | .fencex _ => 0x10d
  | .pref _ => 0x10e
  | .tlook _ => 0x10f
  | .tset _ => 0x110
  | .tclr _ => 0x111
  | .cpy _ => 0x140
  | .cpyr _ => 0x141
  | .cpyi _ => 0x142
  | .cseal _ => 0x143
  | .cwait _ => 0x144
  | .cwaitk _ => 0x145
  | .lyld _ => 0x146
  | .lyst _ => 0x147
  | .lyset _ => 0x148
  | .lyget _ => 0x149
  | .place _ => 0x14a
  | .plq _ => 0x14b
  | .tld _ => 0x14c
  | .tst _ => 0x14d
  | .loc _ => 0x14e
  | .mmah _ => 0x180
  | .mmab _ => 0x181
  | .scacc _ => 0x182
  | .spush _ => 0x183
  | .schk _ => 0x184
  | .azero _ => 0x185
  | .ald _ => 0x186
  | .drn _ => 0x187
  | .pjadj _ => 0x188
  | .achk _ => 0x189
  | .arel _ => 0x18a
  | .aset _ => 0x18b
  | .sfq _ => 0x1c0
  | .sfwait _ => 0x1c1
  | .sfpoll _ => 0x1c2
  | .bra _ => 0x200
  | .brx _ => 0x201
  | .call _ => 0x202
  | .callx _ => 0x203
  | .ret _ => 0x204
  | .mjoin _ => 0x205
  | .join _ => 0x206
  | .brw _ => 0x207
  | .exit _ => 0x208
  | .nop _ => 0x209
  | .rpf _ => 0x20a
  | .rdrop _ => 0x20b
  | .wbind _ => 0x20c
  | .wstat _ => 0x20d
  | .trap _ => 0x20e
  | .bkpt _ => 0x20f
  | .yield _ => 0x210
  | .sleep _ => 0x211
  | .rdsr _ => 0x212
  | .caprd _ => 0x213
  | .bara _ => 0x220
  | .barw _ => 0x221
  | .barq _ => 0x222
  | .cbar _ => 0x223
  | .xwin _ => 0x224
  | .xst _ => 0x225
  | .xadd _ => 0x226
  | .semp _ => 0x227
  | .semw _ => 0x228
  | .gpost _ => 0x240
  | .garm _ => 0x241
  | .gwait _ => 0x242
  | .grdy _ => 0x243
  | .madmit _ => 0x244
  | .mretire _ => 0x245
  | .mread _ => 0x246
  | .rld _ => 0x280
  | .rst _ => 0x281
  | .ratom _ => 0x282
  | .rcas _ => 0x283
  | .rflush _ => 0x284
  | .rrel _ => 0x285
  | .rankq _ => 0x286
  | .coll _ => 0x287
  | .collw _ => 0x288
  | .crjob _ => 0x289
  | .crwait _ => 0x28a
  | .crstat _ => 0x28b
  | .crplan _ => 0x28c
  | .wrsr _ => 0x300
  | .eret _ => 0x301
  | .tlbi _ => 0x302
  | .rtabw _ => 0x303
  | .halt _ => 0x304
  | .diag _ => 0x305
  | .ctxsv _ => 0x306
  | .ctxld _ => 0x307
  | .clauseSelect _ _ _ => 1024
  | .sleepExpire _ => 1024
  | .roundEnd _ => 1024
  | .spill _ => 1024
  | .watchdog _ => 1024
  | .roundStop _ => 1024
  | .contextSave _ => 1024
  | .cpyrDataLand _ _ => 1024
  | .copyMemberComplete _ _ _ => 1024
  | .passComplete _ _ _ => 1024
  | .drainComplete _ _ => 1024
  | .sfqResultLand _ _ => 1024
  | .exchangeItemLand _ => 1024
  | .windowTableUpdate _ => 1024
  | .storeBufferDrain _ => 1024
  | .storeBufferTimeout _ => 1024
  | .storeAck _ _ => 1024
  | .translationWalkComplete _ _ _ => 1024
  | .trapQueueEntryWrite _ => 1024
  | .sortingOfficeAdmit _ => 1024
  | .nodeComplete _ => 1024
  | .courierJobStart _ => 1024
  | .courierSegmentComplete _ _ _ => 1024
  | .courierNodeStop _ => 1024
  | .collectiveStart _ => 1024
  | .collectiveComplete _ _ => 1024
  | .rotorPhase => 1024
  | .packetArrive _ => 1024
  | .fabricAckArrive _ _ => 1024
  | .remoteReplyArrive _ _ => 1024
  | .packetRetransmit _ => 1024
  | .fabricTimeout _ => 1024
  | .relayForward _ => 1024
  | .wcLineAgeing _ => 1024
  | .rankMigration _ _ _ => 1024
  | .inboxSlotWrite _ _ _ => 1024
  | .inboxProdWrite _ _ => 1024
  | .attestationRequest _ => 1024
  | .attestationReportReady _ => 1024
  | .powlimWrite _ => 1024
  | .powerThrottle _ _ => 1024
  | .bar0Write _ _ _ => 1024
  | .packageReset => 1024
  | .selfTestComplete _ _ => 1024
  | .partitionImageStart _ _ _ => 1024
  | .partitionAssign _ => 1024
  | .clauseFetch _ => 1024
  | .hostLinkWriteIssue _ => 1024
  | .hostWindowWrite _ _ _ => 1024
  | .heldFlagDiscard _ => 1024

/-- The class of an opcode (R40, R61): 0 VEC, 1 MEM, 2 MTX, 3 CPY, 4 SYN, 5 SFQ, 6 FAB, 7 SYS. -/
def classOfOpcode (o : Nat) : Nat :=
  if o < 0x100 then 0 else if o < 0x140 then 1 else if o < 0x180 then 3 else if o < 0x1C0 then 2
  else if o < 0x200 then 5 else if o < 0x280 then 4 else if o < 0x300 then 6 else 7

/-- The class of an instruction (R41, R61). -/
def classOf (i : Instr) : Nat := classOfOpcode (opcodeOf i)

/-- The control transfers, which may end a clause of any class (R41). -/
def isTransfer : Instr → Bool
  | .bra _ | .brx _ | .call _ | .callx _ | .ret _ | .join _ | .brw _ | .exit _ => true
  | _ => false

/-- Lowest bits of the word's own fields that fail check 4 of R63, the guard of a uniform instruction among them
(R49). -/
def fieldFails (w : Nat) (i : Instr) : List Nat :=
  let g := instrGuard i
  let fs : List (Bool × Nat) := (shape w i).fields ++
    [(!g.uni || !g.inv, 50), (!g.uni || g.p == 7, 51)]
  (fs.filter (fun x => !x.1)).map (fun x => x.2)

/-- Check 4 on the header's UNI bit (R49, R63). -/
def uniFails (i : Instr) : Bool := (instrGuard i).uni && !uniformAllowed i

/-- Lowest bits of the operand fields that fail check 5 of R63. -/
def operandFails (w : Nat) (i : Instr) : List Nat :=
  let u := (instrGuard i).uni
  ((shape w i).ops.filter (fun x => !(if u then x.1.okUniform x.2.1 && x.1.ok x.2.1 else x.1.ok x.2.1))).map (fun x => x.2.2)

/-- The lowest of a list of bit positions. -/
def lowest (l : List Nat) : Nat := l.foldl min 63

end Sys2Proof.Machine
end

