-- ==== Sys2Proof/WellFormed.lean ====
section
/-! DEFINITION. Well-formed instructions: those that pass checks 4 and 5 of R63. -/
namespace Sys2Proof

open Machine

/-- An instruction that a round of width `w` may issue (R63 checks 4 and 5). -/
def Instr.wf (w : Nat) (i : Instr) : Bool := (fieldFails w i).isEmpty && !uniFails i && (operandFails w i).isEmpty

/-- An instruction that stands in a word: every row of the opcode map, and no event. -/
def Instr.hasWord (i : Instr) : Bool := opcodeOf i < 1024

end Sys2Proof
end

