-- ==== Sys2Proof/Decode.lean ====
section
/-! DEFINITION. The decoder of instruction words and clause headers (R40, R45, R53, R61, R63) and the encoder, written
from the same tables. -/
namespace Sys2Proof

open Machine

/-- Bits [50 : 53] of a word: the guard predicate number and its invert bit (R45), beside the header's UNI bit. -/
def guardOf (uni : Bool) (w : Word) : Guard := { p := w.extractLsb' 51 3, inv := w.getLsbD 50, uni := uni }

/-- The opcode field OPC [63:54] (R45). -/
def opcodeField (w : Word) : Nat := (w.extractLsb' 54 10).toNat

/-- The common head of a word: OPC, G and GI (R45). -/
def packHead (opc : Nat) (g : Guard) : BitVec 14 := BitVec.ofNat 10 opc ++ g.p ++ BitVec.ofBool g.inv

/-- The fields of a R-format word (R53). -/
def readR (uni : Bool) (w : Word) : RForm :=
  { g := guardOf uni w, lra := w.getLsbD 49, lrb := w.getLsbD 48, lrc := w.getLsbD 47, d := w.extractLsb' 36 11, a := w.extractLsb' 25 11, b := w.extractLsb' 14 11, c := w.extractLsb' 3 11, cmp := w.extractLsb' 0 3 }

/-- A R-format word (R53). -/
def packR (opc : Nat) (f : RForm) : Word :=
  packHead opc f.g ++ (BitVec.ofBool f.lra ++ BitVec.ofBool f.lrb ++ BitVec.ofBool f.lrc ++ f.d ++ f.a ++ f.b ++ f.c ++ f.cmp : BitVec 50)

/-- The fields of a I-format word (R53). -/
def readI (uni : Bool) (w : Word) : IForm :=
  { g := guardOf uni w, lra := w.getLsbD 49, d := w.extractLsb' 38 11, a := w.extractLsb' 27 11, cmp := w.extractLsb' 24 3, imm := w.extractLsb' 0 24 }

/-- A I-format word (R53). -/
def packI (opc : Nat) (f : IForm) : Word :=
  packHead opc f.g ++ (BitVec.ofBool f.lra ++ f.d ++ f.a ++ f.cmp ++ f.imm : BitVec 50)

/-- The fields of a M-format word (R53). -/
def readM (uni : Bool) (w : Word) : MForm :=
  { g := guardOf uni w, lrd := w.getLsbD 49, lra := w.getLsbD 48, d := w.extractLsb' 37 11, a := w.extractLsb' 26 11, ord := w.extractLsb' 21 5, sz := w.extractLsb' 18 3, ofs := w.extractLsb' 0 18 }

/-- A M-format word (R53). -/
def packM (opc : Nat) (f : MForm) : Word :=
  packHead opc f.g ++ (BitVec.ofBool f.lrd ++ BitVec.ofBool f.lra ++ f.d ++ f.a ++ f.ord ++ f.sz ++ f.ofs : BitVec 50)

/-- The fields of a A-format word (R53). -/
def readA (uni : Bool) (w : Word) : AForm :=
  { g := guardOf uni w, lrd := w.getLsbD 49, lra := w.getLsbD 48, lrb := w.getLsbD 47, d := w.extractLsb' 36 11, a := w.extractLsb' 25 11, b := w.extractLsb' 14 11, ord := w.extractLsb' 9 5, op := w.extractLsb' 6 3, asz := w.extractLsb' 4 2, z := w.extractLsb' 0 4 }

/-- A A-format word (R53). -/
def packA (opc : Nat) (f : AForm) : Word :=
  packHead opc f.g ++ (BitVec.ofBool f.lrd ++ BitVec.ofBool f.lra ++ BitVec.ofBool f.lrb ++ f.d ++ f.a ++ f.b ++ f.ord ++ f.op ++ f.asz ++ f.z : BitVec 50)

/-- The fields of a X-format word (R53). -/
def readX (uni : Bool) (w : Word) : XForm :=
  { g := guardOf uni w, h := w.extractLsb' 45 5, a := w.extractLsb' 34 11, b := w.extractLsb' 23 11, fa := w.extractLsb' 20 3, fb := w.extractLsb' 17 3, ru := w.getLsbD 16, z := w.getLsbD 15, rsv := w.extractLsb' 12 3, imm := w.extractLsb' 0 12 }

/-- A X-format word (R53). -/
def packX (opc : Nat) (f : XForm) : Word :=
  packHead opc f.g ++ (f.h ++ f.a ++ f.b ++ f.fa ++ f.fb ++ BitVec.ofBool f.ru ++ BitVec.ofBool f.z ++ f.rsv ++ f.imm : BitVec 50)

/-- The fields of a P-format word (R53). -/
def readP (uni : Bool) (w : Word) : PForm :=
  { g := guardOf uni w, lra := w.getLsbD 49, lrb := w.getLsbD 48, lrc := w.getLsbD 47, ld := w.extractLsb' 42 5, ls := w.extractLsb' 37 5, a := w.extractLsb' 26 11, b := w.extractLsb' 15 11, c := w.extractLsb' 4 11, cmp := w.extractLsb' 0 4 }

/-- A P-format word (R53). -/
def packP (opc : Nat) (f : PForm) : Word :=
  packHead opc f.g ++ (BitVec.ofBool f.lra ++ BitVec.ofBool f.lrb ++ BitVec.ofBool f.lrc ++ f.ld ++ f.ls ++ f.a ++ f.b ++ f.c ++ f.cmp : BitVec 50)

/-- The fields of a S-format word (R53). -/
def readS (uni : Bool) (w : Word) : SForm :=
  { g := guardOf uni w, bar := w.extractLsb' 46 4, ci := w.getLsbD 45, cntf := w.extractLsb' 34 11, z := w.extractLsb' 0 34 }

/-- A S-format word (R53). -/
def packS (opc : Nat) (f : SForm) : Word :=
  packHead opc f.g ++ (f.bar ++ BitVec.ofBool f.ci ++ f.cntf ++ f.z : BitVec 50)

/-- The fields of a J-format word (R53). -/
def readJ (uni : Bool) (w : Word) : JForm :=
  { g := guardOf uni w, aux := w.extractLsb' 40 10, off := w.extractLsb' 0 40 }

/-- A J-format word (R53). -/
def packJ (opc : Nat) (f : JForm) : Word :=
  packHead opc f.g ++ (f.aux ++ f.off : BitVec 50)

/-- Opcodes 0x0 to 0x3f of the opcode map (R61). -/
def decodeVec (uni : Bool) (w : Word) : Nat → Option Instr
  | 0x0 => some (.iadd (readR uni w))
  | 0x1 => some (.isub (readR uni w))
  | 0x2 => some (.imul (readR uni w))
  | 0x3 => some (.imulh (readR uni w))
  | 0x4 => some (.imad (readR uni w))
  | 0x5 => some (.imin (readR uni w))
  | 0x6 => some (.imax (readR uni w))
  | 0x7 => some (.iabs (readR uni w))
  | 0x8 => some (.and (readR uni w))
  | 0x9 => some (.or (readR uni w))
  | 0xa => some (.xor (readR uni w))
  | 0xb => some (.andn (readR uni w))
  | 0xc => some (.not (readR uni w))
  | 0xd => some (.shl (readR uni w))
  | 0xe => some (.shr (readR uni w))
  | 0xf => some (.sar (readR uni w))
  | 0x10 => some (.rol (readR uni w))
  | 0x11 => some (.popc (readR uni w))
  | 0x12 => some (.clz (readR uni w))
  | 0x13 => some (.ctz (readR uni w))
  | 0x14 => some (.brev (readR uni w))
  | 0x15 => some (.bfx (readR uni w))
  | 0x16 => some (.bfi (readR uni w))
  | 0x17 => some (.lea (readR uni w))
  | 0x18 => some (.mov (readR uni w))
  | 0x19 => some (.sel (readR uni w))
  | 0x1a => some (.bysel (readR uni w))
  | 0x1b => some (.icmp (readR uni w))
  | 0x1c => some (.pcomb (readR uni w))
  | 0x1d => some (.vote (readR uni w))
  | 0x1e => some (.pick (readR uni w))
  | 0x20 => some (.iaddi (readI uni w))
  | 0x21 => some (.imuli (readI uni w))
  | 0x22 => some (.andi (readI uni w))
  | 0x23 => some (.ori (readI uni w))
  | 0x24 => some (.xori (readI uni w))
  | 0x25 => some (.shli (readI uni w))
  | 0x26 => some (.shri (readI uni w))
  | 0x27 => some (.sari (readI uni w))
  | 0x28 => some (.movi (readI uni w))
  | 0x29 => some (.movk (readI uni w))
  | 0x2a => some (.icmpi (readI uni w))
  | _ => none

/-- Opcodes 0x40 to 0x7f of the opcode map (R61). -/
def decodeFlt (uni : Bool) (w : Word) : Nat → Option Instr
  | 0x40 => some (.fadd .f32 (readR uni w))
  | 0x41 => some (.fsub .f32 (readR uni w))
  | 0x42 => some (.fmul .f32 (readR uni w))
  | 0x43 => some (.ffma .f32 (readR uni w))
  | 0x44 => some (.fmin .f32 (readR uni w))
  | 0x45 => some (.fmax .f32 (readR uni w))
  | 0x46 => some (.fcmp .f32 (readR uni w))
  | 0x47 => some (.frnd .f32 (readR uni w))
  | 0x48 => some (.fneg .f32 (readR uni w))
  | 0x49 => some (.fabs .f32 (readR uni w))
  | 0x4b => some (.fclass .f32 (readR uni w))
  | 0x50 => some (.fadd .f64 (readR uni w))
  | 0x51 => some (.fsub .f64 (readR uni w))
  | 0x52 => some (.fmul .f64 (readR uni w))
  | 0x53 => some (.ffma .f64 (readR uni w))
  | 0x54 => some (.fmin .f64 (readR uni w))
  | 0x55 => some (.fmax .f64 (readR uni w))
  | 0x56 => some (.fcmp .f64 (readR uni w))
  | 0x57 => some (.frnd .f64 (readR uni w))
  | 0x58 => some (.fneg .f64 (readR uni w))
  | 0x59 => some (.fabs .f64 (readR uni w))
  | 0x5b => some (.fclass .f64 (readR uni w))
  | 0x60 => some (.fadd .f16 (readR uni w))
  | 0x61 => some (.fsub .f16 (readR uni w))
  | 0x62 => some (.fmul .f16 (readR uni w))
  | 0x63 => some (.ffma .f16 (readR uni w))
  | 0x64 => some (.fmin .f16 (readR uni w))
  | 0x65 => some (.fmax .f16 (readR uni w))
  | 0x66 => some (.fcmp .f16 (readR uni w))
  | 0x67 => some (.frnd .f16 (readR uni w))
  | 0x68 => some (.fneg .f16 (readR uni w))
  | 0x69 => some (.fabs .f16 (readR uni w))
  | 0x6a => some (.fdot .f16 (readR uni w))
  | 0x6b => some (.fclass .f16 (readR uni w))
  | 0x70 => some (.fadd .bf16 (readR uni w))
  | 0x71 => some (.fsub .bf16 (readR uni w))
  | 0x72 => some (.fmul .bf16 (readR uni w))
  | 0x73 => some (.ffma .bf16 (readR uni w))
  | 0x74 => some (.fmin .bf16 (readR uni w))
  | 0x75 => some (.fmax .bf16 (readR uni w))
  | 0x76 => some (.fcmp .bf16 (readR uni w))
  | 0x77 => some (.frnd .bf16 (readR uni w))
  | 0x78 => some (.fneg .bf16 (readR uni w))
  | 0x79 => some (.fabs .bf16 (readR uni w))
  | 0x7a => some (.fdot .bf16 (readR uni w))
  | 0x7b => some (.fclass .bf16 (readR uni w))
  | _ => none

/-- Opcodes 0x80 to 0xff of the opcode map (R61). -/
def decodeCvt (uni : Bool) (w : Word) : Nat → Option Instr
  | 0x80 => some (.fcvt (readI uni w))
  | 0x81 => some (.f2i (readI uni w))
  | 0x82 => some (.i2f (readI uni w))
  | 0x83 => some (.qnt (readR uni w))
  | 0x84 => some (.dqnt (readR uni w))
  | 0x85 => some (.gcomp (readR uni w))
  | 0x86 => some (.cvtw (readR uni w))
  | 0x87 => some (.wreb (readR uni w))
  | 0xa0 => some (.shfl (readR uni w))
  | 0xa1 => some (.shflx (readR uni w))
  | 0xa2 => some (.bcst (readR uni w))
  | 0xa3 => some (.radd (readR uni w))
  | 0xa4 => some (.rmin (readR uni w))
  | 0xa5 => some (.rmax (readR uni w))
  | 0xa6 => some (.rminx (readR uni w))
  | 0xa7 => some (.rmaxx (readR uni w))
  | 0xa8 => some (.rbit (readR uni w))
  | 0xa9 => some (.scana (readR uni w))
  | 0xaa => some (.scanae (readR uni w))
  | 0xab => some (.scanmin (readR uni w))
  | 0xac => some (.scanmax (readR uni w))
  | 0xad => some (.matchLanes (readR uni w))
  | _ => none

/-- Opcodes 0x100 to 0x13f of the opcode map (R61). -/
def decodeMem (uni : Bool) (w : Word) : Nat → Option Instr
  | 0x100 => some (.ld (readM uni w))
  | 0x101 => some (.st (readM uni w))
  | 0x102 => some (.lds (readM uni w))
  | 0x103 => some (.sts (readM uni w))
  | 0x104 => some (.ldh (readM uni w))
  | 0x105 => some (.sth (readM uni w))
  | 0x106 => some (.stp (readR uni w))
  | 0x107 => some (.atom (readA uni w))
  | 0x108 => some (.atomu (readA uni w))
  | 0x109 => some (.cas (readR uni w))
  | 0x10a => some (.atoms (readA uni w))
  | 0x10b => some (.cass (readR uni w))
  | 0x10c => some (.fence (readR uni w))
  | 0x10d => some (.fencex (readI uni w))
  | 0x10e => some (.pref (readM uni w))
  | 0x10f => some (.tlook (readR uni w))
  | 0x110 => some (.tset (readR uni w))
  | 0x111 => some (.tclr (readR uni w))
  | _ => none

/-- Opcodes 0x140 to 0x17f of the opcode map (R61). -/
def decodeCpy (uni : Bool) (w : Word) : Nat → Option Instr
  | 0x140 => some (.cpy (readP uni w))
  | 0x141 => some (.cpyr (readP uni w))
  | 0x142 => some (.cpyi (readP uni w))
  | 0x143 => some (.cseal (readR uni w))
  | 0x144 => some (.cwait (readI uni w))
  | 0x145 => some (.cwaitk (readI uni w))
  | 0x146 => some (.lyld (readP uni w))
  | 0x147 => some (.lyst (readP uni w))
  | 0x148 => some (.lyset (readP uni w))
  | 0x149 => some (.lyget (readP uni w))
  | 0x14a => some (.place (readP uni w))
  | 0x14b => some (.plq (readP uni w))
  | 0x14c => some (.tld (readP uni w))
  | 0x14d => some (.tst (readP uni w))
  | 0x14e => some (.loc (readP uni w))
  | _ => none

/-- Opcodes 0x180 to 0x1bf of the opcode map (R61). -/
def decodeMtx (uni : Bool) (w : Word) : Nat → Option Instr
  | 0x180 => some (.mmah (readX uni w))
  | 0x181 => some (.mmab (readX uni w))
  | 0x182 => some (.scacc (readX uni w))
  | 0x183 => some (.spush (readR uni w))
  | 0x184 => some (.schk (readR uni w))
  | 0x185 => some (.azero (readX uni w))
  | 0x186 => some (.ald (readX uni w))
  | 0x187 => some (.drn (readX uni w))
  | 0x188 => some (.pjadj (readR uni w))
  | 0x189 => some (.achk (readX uni w))
  | 0x18a => some (.arel (readR uni w))
  | 0x18b => some (.aset (readI uni w))
  | _ => none

/-- Opcodes 0x1c0 to 0x1ff of the opcode map (R61). -/
def decodeSfq (uni : Bool) (w : Word) : Nat → Option Instr
  | 0x1c0 => some (.sfq (readI uni w))
  | 0x1c1 => some (.sfwait (readI uni w))
  | 0x1c2 => some (.sfpoll (readI uni w))
  | _ => none

/-- Opcodes 0x200 to 0x27f of the opcode map (R61). -/
def decodeSyn (uni : Bool) (w : Word) : Nat → Option Instr
  | 0x200 => some (.bra (readJ uni w))
  | 0x201 => some (.brx (readR uni w))
  | 0x202 => some (.call (readJ uni w))
  | 0x203 => some (.callx (readR uni w))
  | 0x204 => some (.ret (readR uni w))
  | 0x205 => some (.mjoin (readJ uni w))
  | 0x206 => some (.join (readR uni w))
  | 0x207 => some (.brw (readJ uni w))
  | 0x208 => some (.exit (readR uni w))
  | 0x209 => some (.nop (readR uni w))
  | 0x20a => some (.rpf (readI uni w))
  | 0x20b => some (.rdrop (readI uni w))
  | 0x20c => some (.wbind (readI uni w))
  | 0x20d => some (.wstat (readI uni w))
  | 0x20e => some (.trap (readI uni w))
  | 0x20f => some (.bkpt (readI uni w))
  | 0x210 => some (.yield (readR uni w))
  | 0x211 => some (.sleep (readI uni w))
  | 0x212 => some (.rdsr (readI uni w))
  | 0x213 => some (.caprd (readI uni w))
  | 0x220 => some (.bara (readS uni w))
  | 0x221 => some (.barw (readS uni w))
  | 0x222 => some (.barq (readI uni w))
  | 0x223 => some (.cbar (readS uni w))
  | 0x224 => some (.xwin (readR uni w))
  | 0x225 => some (.xst (readR uni w))
  | 0x226 => some (.xadd (readA uni w))
  | 0x227 => some (.semp (readR uni w))
  | 0x228 => some (.semw (readR uni w))
  | 0x240 => some (.gpost (readR uni w))
  | 0x241 => some (.garm (readR uni w))
  | 0x242 => some (.gwait (readR uni w))
  | 0x243 => some (.grdy (readR uni w))
  | 0x244 => some (.madmit (readR uni w))
  | 0x245 => some (.mretire (readR uni w))
  | 0x246 => some (.mread (readR uni w))
  | _ => none

/-- Opcodes 0x280 to 0x2ff of the opcode map (R61). -/
def decodeFab (uni : Bool) (w : Word) : Nat → Option Instr
  | 0x280 => some (.rld (readM uni w))
  | 0x281 => some (.rst (readM uni w))
  | 0x282 => some (.ratom (readA uni w))
  | 0x283 => some (.rcas (readR uni w))
  | 0x284 => some (.rflush (readR uni w))
  | 0x285 => some (.rrel (readR uni w))
  | 0x286 => some (.rankq (readR uni w))
  | 0x287 => some (.coll (readR uni w))
  | 0x288 => some (.collw (readR uni w))
  | 0x289 => some (.crjob (readR uni w))
  | 0x28a => some (.crwait (readR uni w))
  | 0x28b => some (.crstat (readR uni w))
  | 0x28c => some (.crplan (readR uni w))
  | _ => none

/-- Opcodes 0x300 to 0x3ff of the opcode map (R61). -/
def decodeSys (uni : Bool) (w : Word) : Nat → Option Instr
  | 0x300 => some (.wrsr (readI uni w))
  | 0x301 => some (.eret (readR uni w))
  | 0x302 => some (.tlbi (readR uni w))
  | 0x303 => some (.rtabw (readR uni w))
  | 0x304 => some (.halt (readR uni w))
  | 0x305 => some (.diag (readR uni w))
  | 0x306 => some (.ctxsv (readR uni w))
  | 0x307 => some (.ctxld (readR uni w))
  | _ => none

/-- The instruction of a word whose opcode is assigned (R61); none for an unassigned opcode or a header. -/
def decodeOpcode (uni : Bool) (w : Word) : Option Instr :=
  let o := opcodeField w
  if o < 0x40 then decodeVec uni w o
  else if o < 0x80 then decodeFlt uni w o
  else if o < 0x100 then decodeCvt uni w o
  else if o < 0x140 then decodeMem uni w o
  else if o < 0x180 then decodeCpy uni w o
  else if o < 0x1C0 then decodeMtx uni w o
  else if o < 0x200 then decodeSfq uni w o
  else if o < 0x280 then decodeSyn uni w o
  else if o < 0x300 then decodeFab uni w o
  else decodeSys uni w o

/-- Why a word is no legal instruction (R61, R63): an unassigned opcode, a failing field or a failing operand, the
last two with the lowest bit of the failing field and the flag that it lies in the header. -/
inductive DecodeError where
  | illegalOpcode
  | illegalField (bit : Nat) (header : Bool)
  | illegalOperand (bit : Nat)
  deriving DecidableEq, Repr

/-- The decoder: opcode, field checks and operand checks of R63 in their order, in a round of width `width`. -/
def decode (width : Nat) (uni : Bool) (w : Word) : Except DecodeError Instr :=
  match decodeOpcode uni w with
  | none => .error .illegalOpcode
  | some i =>
    if fieldFails width i ≠ [] then .error (.illegalField (lowest (fieldFails width i)) false)
    else if uniFails i then .error (.illegalField 31 true)
    else if operandFails width i ≠ [] then .error (.illegalOperand (lowest (operandFails width i)))
    else .ok i

/-- The word of an instruction; an event has none and is given the all-zero word. -/
def encode : Instr → Word
  | .iadd f => packR 0x0 f
  | .isub f => packR 0x1 f
  | .imul f => packR 0x2 f
  | .imulh f => packR 0x3 f
  | .imad f => packR 0x4 f
  | .imin f => packR 0x5 f
  | .imax f => packR 0x6 f
  | .iabs f => packR 0x7 f
  | .and f => packR 0x8 f
  | .or f => packR 0x9 f
  | .xor f => packR 0xa f
  | .andn f => packR 0xb f
  | .not f => packR 0xc f
  | .shl f => packR 0xd f
  | .shr f => packR 0xe f
  | .sar f => packR 0xf f
  | .rol f => packR 0x10 f
  | .popc f => packR 0x11 f
  | .clz f => packR 0x12 f
  | .ctz f => packR 0x13 f
  | .brev f => packR 0x14 f
  | .bfx f => packR 0x15 f
  | .bfi f => packR 0x16 f
  | .lea f => packR 0x17 f
  | .mov f => packR 0x18 f
  | .sel f => packR 0x19 f
  | .bysel f => packR 0x1a f
  | .icmp f => packR 0x1b f
  | .pcomb f => packR 0x1c f
  | .vote f => packR 0x1d f
  | .pick f => packR 0x1e f
  | .iaddi f => packI 0x20 f
  | .imuli f => packI 0x21 f
  | .andi f => packI 0x22 f
  | .ori f => packI 0x23 f
  | .xori f => packI 0x24 f
  | .shli f => packI 0x25 f
  | .shri f => packI 0x26 f
  | .sari f => packI 0x27 f
  | .movi f => packI 0x28 f
  | .movk f => packI 0x29 f
  | .icmpi f => packI 0x2a f
  | .fadd ty f => packR (opcodeOf (.fadd ty f)) f
  | .fsub ty f => packR (opcodeOf (.fsub ty f)) f
  | .fmul ty f => packR (opcodeOf (.fmul ty f)) f
  | .ffma ty f => packR (opcodeOf (.ffma ty f)) f
  | .fmin ty f => packR (opcodeOf (.fmin ty f)) f
  | .fmax ty f => packR (opcodeOf (.fmax ty f)) f
  | .fcmp ty f => packR (opcodeOf (.fcmp ty f)) f
  | .frnd ty f => packR (opcodeOf (.frnd ty f)) f
  | .fneg ty f => packR (opcodeOf (.fneg ty f)) f
  | .fabs ty f => packR (opcodeOf (.fabs ty f)) f
  | .fdot ty f => packR (opcodeOf (.fdot ty f)) f
  | .fclass ty f => packR (opcodeOf (.fclass ty f)) f
  | .fcvt f => packI 0x80 f
  | .f2i f => packI 0x81 f
  | .i2f f => packI 0x82 f
  | .qnt f => packR 0x83 f
  | .dqnt f => packR 0x84 f
  | .gcomp f => packR 0x85 f
  | .cvtw f => packR 0x86 f
  | .wreb f => packR 0x87 f
  | .shfl f => packR 0xa0 f
  | .shflx f => packR 0xa1 f
  | .bcst f => packR 0xa2 f
  | .radd f => packR 0xa3 f
  | .rmin f => packR 0xa4 f
  | .rmax f => packR 0xa5 f
  | .rminx f => packR 0xa6 f
  | .rmaxx f => packR 0xa7 f
  | .rbit f => packR 0xa8 f
  | .scana f => packR 0xa9 f
  | .scanae f => packR 0xaa f
  | .scanmin f => packR 0xab f
  | .scanmax f => packR 0xac f
  | .matchLanes f => packR 0xad f
  | .ld f => packM 0x100 f
  | .st f => packM 0x101 f
  | .lds f => packM 0x102 f
  | .sts f => packM 0x103 f
  | .ldh f => packM 0x104 f
  | .sth f => packM 0x105 f
  | .stp f => packR 0x106 f
  | .atom f => packA 0x107 f
  | .atomu f => packA 0x108 f
  | .cas f => packR 0x109 f
  | .atoms f => packA 0x10a f
  | .cass f => packR 0x10b f
  | .fence f => packR 0x10c f
  | .fencex f => packI 0x10d f
  | .pref f => packM 0x10e f
  | .tlook f => packR 0x10f f
  | .tset f => packR 0x110 f
  | .tclr f => packR 0x111 f
  | .cpy f => packP 0x140 f
  | .cpyr f => packP 0x141 f
  | .cpyi f => packP 0x142 f
  | .cseal f => packR 0x143 f
  | .cwait f => packI 0x144 f
  | .cwaitk f => packI 0x145 f
  | .lyld f => packP 0x146 f
  | .lyst f => packP 0x147 f
  | .lyset f => packP 0x148 f
  | .lyget f => packP 0x149 f
  | .place f => packP 0x14a f
  | .plq f => packP 0x14b f
  | .tld f => packP 0x14c f
  | .tst f => packP 0x14d f
  | .loc f => packP 0x14e f
  | .mmah f => packX 0x180 f
  | .mmab f => packX 0x181 f
  | .scacc f => packX 0x182 f
  | .spush f => packR 0x183 f
  | .schk f => packR 0x184 f
  | .azero f => packX 0x185 f
  | .ald f => packX 0x186 f
  | .drn f => packX 0x187 f
  | .pjadj f => packR 0x188 f
  | .achk f => packX 0x189 f
  | .arel f => packR 0x18a f
  | .aset f => packI 0x18b f
  | .sfq f => packI 0x1c0 f
  | .sfwait f => packI 0x1c1 f
  | .sfpoll f => packI 0x1c2 f
  | .bra f => packJ 0x200 f
  | .brx f => packR 0x201 f
  | .call f => packJ 0x202 f
  | .callx f => packR 0x203 f
  | .ret f => packR 0x204 f
  | .mjoin f => packJ 0x205 f
  | .join f => packR 0x206 f
  | .brw f => packJ 0x207 f
  | .exit f => packR 0x208 f
  | .nop f => packR 0x209 f
  | .rpf f => packI 0x20a f
  | .rdrop f => packI 0x20b f
  | .wbind f => packI 0x20c f
  | .wstat f => packI 0x20d f
  | .trap f => packI 0x20e f
  | .bkpt f => packI 0x20f f
  | .yield f => packR 0x210 f
  | .sleep f => packI 0x211 f
  | .rdsr f => packI 0x212 f
  | .caprd f => packI 0x213 f
  | .bara f => packS 0x220 f
  | .barw f => packS 0x221 f
  | .barq f => packI 0x222 f
  | .cbar f => packS 0x223 f
  | .xwin f => packR 0x224 f
  | .xst f => packR 0x225 f
  | .xadd f => packA 0x226 f
  | .semp f => packR 0x227 f
  | .semw f => packR 0x228 f
  | .gpost f => packR 0x240 f
  | .garm f => packR 0x241 f
  | .gwait f => packR 0x242 f
  | .grdy f => packR 0x243 f
  | .madmit f => packR 0x244 f
  | .mretire f => packR 0x245 f
  | .mread f => packR 0x246 f
  | .rld f => packM 0x280 f
  | .rst f => packM 0x281 f
  | .ratom f => packA 0x282 f
  | .rcas f => packR 0x283 f
  | .rflush f => packR 0x284 f
  | .rrel f => packR 0x285 f
  | .rankq f => packR 0x286 f
  | .coll f => packR 0x287 f
  | .collw f => packR 0x288 f
  | .crjob f => packR 0x289 f
  | .crwait f => packR 0x28a f
  | .crstat f => packR 0x28b f
  | .crplan f => packR 0x28c f
  | .wrsr f => packI 0x300 f
  | .eret f => packR 0x301 f
  | .tlbi f => packR 0x302 f
  | .rtabw f => packR 0x303 f
  | .halt f => packR 0x304 f
  | .diag f => packR 0x305 f
  | .ctxsv f => packR 0x306 f
  | .ctxld f => packR 0x307 f
  | .clauseSelect _ _ _ => 0
  | .sleepExpire _ => 0
  | .roundEnd _ => 0
  | .spill _ => 0
  | .watchdog _ => 0
  | .roundStop _ => 0
  | .contextSave _ => 0
  | .cpyrDataLand _ _ => 0
  | .copyMemberComplete _ _ _ => 0
  | .passComplete _ _ _ => 0
  | .drainComplete _ _ => 0
  | .sfqResultLand _ _ => 0
  | .exchangeItemLand _ => 0
  | .windowTableUpdate _ => 0
  | .storeBufferDrain _ => 0
  | .storeBufferTimeout _ => 0
  | .storeAck _ _ => 0
  | .translationWalkComplete _ _ _ => 0
  | .trapQueueEntryWrite _ => 0
  | .sortingOfficeAdmit _ => 0
  | .nodeComplete _ => 0
  | .courierJobStart _ => 0
  | .courierSegmentComplete _ _ _ => 0
  | .courierNodeStop _ => 0
  | .collectiveStart _ => 0
  | .collectiveComplete _ _ => 0
  | .rotorPhase => 0
  | .packetArrive _ => 0
  | .fabricAckArrive _ _ => 0
  | .remoteReplyArrive _ _ => 0
  | .packetRetransmit _ => 0
  | .fabricTimeout _ => 0
  | .relayForward _ => 0
  | .wcLineAgeing _ => 0
  | .rankMigration _ _ _ => 0
  | .inboxSlotWrite _ _ _ => 0
  | .inboxProdWrite _ _ => 0
  | .attestationRequest _ => 0
  | .attestationReportReady _ => 0
  | .powlimWrite _ => 0
  | .powerThrottle _ _ => 0
  | .bar0Write _ _ _ => 0
  | .packageReset => 0
  | .selfTestComplete _ _ => 0
  | .partitionImageStart _ _ _ => 0
  | .partitionAssign _ => 0
  | .clauseFetch _ => 0
  | .hostLinkWriteIssue _ => 0
  | .hostWindowWrite _ _ _ => 0
  | .heldFlagDiscard _ => 0

/-- The clause header's fields (R40). -/
structure Header where
  cls : Nat
  cnt : Nat
  gap : Nat
  yld : Bool
  uni : BitVec 16
  deriving DecidableEq, Repr

/-- Whether a word is marked as a header (R40). -/
def isHeader (w : Word) : Bool := w.extractLsb' 58 6 == 0x3F

/-- The fields of a header word (R40). -/
def readHeader (w : Word) : Header :=
  { cls := (w.extractLsb' 55 3).toNat, cnt := (w.extractLsb' 51 4).toNat, gap := (w.extractLsb' 48 3).toNat
    yld := w.getLsbD 47, uni := w.extractLsb' 31 16 }

/-- Lowest bits of the header fields that break R40: [30:0] nonzero, or a UNI bit above CNT. -/
def headerFails (w : Word) : List Nat :=
  (if w.extractLsb' 0 31 == 0 then [] else [0])
    ++ (if (readHeader w).uni >>> ((readHeader w).cnt + 1) == 0 then [] else [31])

/-- A header word (R40). -/
def packHeader (h : Header) : Word :=
  (0x3F : BitVec 6) ++ BitVec.ofNat 3 h.cls ++ BitVec.ofNat 4 h.cnt ++ BitVec.ofNat 3 h.gap ++ BitVec.ofBool h.yld
    ++ h.uni ++ (0 : BitVec 31)

/-- The instruction that the decoder reads from a word numbered as the opcode table numbers it; none where it refuses.
Every instruction is one 64-bit word (R39), so bits above 63 must be zero. -/
def decodeTableWord (_nbits w : Nat) : Option Instr :=
  if w < 2 ^ 64 then
    match decode 16 false (BitVec.ofNat 64 w) with
    | .ok i => some i
    | .error _ => none
  else none

end Sys2Proof
end

