-- ==== Sys2Proof/Machine/Bits.lean ====
section
/-! DEFINITION. Bit fields, packed elements, lane lists and byte order (R6, R7, R10, R78, R108). -/
namespace Sys2Proof.Machine

/-- Field [hi:lo] of a natural number (R10 `bits`). -/
def bitsN (n hi lo : Nat) : Nat := n / 2 ^ lo % 2 ^ (hi + 1 - lo)

/-- Field [hi:lo] of a word. -/
def bits (w : Word) (hi lo : Nat) : Nat := bitsN w.toNat hi lo

/-- The low n bits read as two's complement (R10 `sext`). -/
def sextN (x n : Nat) : Int := if x % 2 ^ n < 2 ^ (n - 1) then (x % 2 ^ n : Nat) else ((x % 2 ^ n : Nat) : Int) - 2 ^ n

/-- An integer modulo 2^e, as an e-bit pattern (R109 `wrap`). -/
def wrapI (e : Nat) (x : Int) : Nat := (x % (2 ^ e : Nat)).toNat

/-- Clamp to the signed e-bit range, as an e-bit pattern (R109 `ssat`). -/
def ssat (e : Nat) (x : Int) : Nat := wrapI e (max (-(2 ^ (e - 1) : Nat)) (min ((2 ^ (e - 1) : Nat) - 1) x))

/-- Element j of a value of e-bit elements (R108). -/
def elem (e : Nat) (x : Word) (j : Nat) : Nat := x.toNat / 2 ^ (e * j) % 2 ^ e

/-- A word from its e-bit elements, element 0 lowest (R108). -/
def packElems (e : Nat) (l : List Nat) : Word :=
  BitVec.ofNat 64 (l.foldr (fun x acc => x % 2 ^ e + 2 ^ e * acc) 0)

/-- Applies an operation to every e-bit element (R108). -/
def mapElems1 (e : Nat) (f : Nat → Nat) (a : Word) : Word :=
  packElems e ((List.range (64 / e)).map (fun j => f (elem e a j)))

/-- Applies an operation to every pair of e-bit elements (R108). -/
def mapElems2 (e : Nat) (f : Nat → Nat → Nat) (a b : Word) : Word :=
  packElems e ((List.range (64 / e)).map (fun j => f (elem e a j) (elem e b j)))

/-- Applies an operation to every triple of e-bit elements (R108). -/
def mapElems3 (e : Nat) (f : Nat → Nat → Nat → Nat) (a b c : Word) : Word :=
  packElems e ((List.range (64 / e)).map (fun j => f (elem e a j) (elem e b j) (elem e c j)))

/-- Whether a relation holds of every pair of e-bit elements (R116, R123). -/
def allElems (e : Nat) (f : Nat → Nat → Bool) (a b : Word) : Bool :=
  (List.range (64 / e)).all (fun j => f (elem e a j) (elem e b j))

/-- A value per lane, lanes 0 to 63 (R78). -/
def tab (f : Nat → Word) : List Word := (List.range 64).map f

/-- A lane's value. -/
def laneOf (x : List Word) (l : Nat) : Word := x.getD l 0

/-- Logical lanes of a mask in ascending order (R10). -/
def lanesOf (m : Mask) : List Nat := (List.range 64).filter (fun l => m.getLsbD l)

/-- The lowest lane of a mask. -/
def lowestLane (m : Mask) : Option Nat := (lanesOf m).head?

/-- A mask from a predicate on lanes. -/
def maskOf (f : Nat → Bool) : Mask :=
  BitVec.ofNat 64 ((List.range 64).foldl (fun acc l => if f l then acc + 2 ^ l else acc) 0)

/-- The mask of all lanes of a width-w round (R78). -/
def fullMask (w : Nat) : Mask := BitVec.ofNat 64 (2 ^ w - 1)

/-- The n low bytes of a number, byte 0 first (R7). -/
def toBytes (n x : Nat) : List Byte := (List.range n).map (fun i => BitVec.ofNat 8 (x / 2 ^ (8 * i)))

/-- The number that a list of bytes holds, byte 0 lowest (R7). -/
def ofBytes (l : List Byte) : Nat := l.foldr (fun b acc => b.toNat + 256 * acc) 0

/-- Bit j of a little-endian bit stream (R26, R132). -/
def streamBits (w e : Nat) (s : Nat) : Nat := s / 2 ^ (w * e) % 2 ^ w

/-- XOR of all bits of a number below 2^64 (R10 `parity`). -/
def parity (x : Nat) : Bool := (List.range 64).foldl (fun acc i => acc != x.testBit i) false

/-- Bits set in a number below 2^n. -/
def popcountN (n x : Nat) : Nat := (List.range n).foldl (fun acc i => if x.testBit i then acc + 1 else acc) 0

/-- Replaces the element of a list at an index; out of range it changes nothing. -/
def setAt {α : Type} (l : List α) (i : Nat) (a : α) : List α := l.set i a

/-- Changes the element of a list at an index. -/
def modAt {α : Type} (l : List α) (i : Nat) (f : α → α) : List α := l.modify i f

end Sys2Proof.Machine
end

