-- ==== Sys2Proof/Machine/Float.lean ====
section
/-! DEFINITION. Number formats and exact arithmetic (R10, R12 to R24, R29 to R38): every value is an exact dyadic or
rational number and changes format only by one rounding. -/
namespace Sys2Proof.Machine

/-- A format with sign, exponent and fraction (R12, R19). `ocp` marks E4M3, which has no infinities. -/
structure Fmt where
  ebits : Nat
  mbits : Nat
  ocp : Bool
  deriving DecidableEq, Repr

def Fmt.fp64 : Fmt := ⟨11, 52, false⟩
def Fmt.fp32 : Fmt := ⟨8, 23, false⟩
def Fmt.fp16 : Fmt := ⟨5, 10, false⟩
def Fmt.bf16 : Fmt := ⟨8, 7, false⟩
def Fmt.w24 : Fmt := ⟨8, 15, false⟩
def Fmt.e4m3 : Fmt := ⟨4, 3, true⟩
def Fmt.e5m2 : Fmt := ⟨5, 2, false⟩

/-- Exponent bias (R12, R19). -/
def Fmt.bias (f : Fmt) : Nat := 2 ^ (f.ebits - 1) - 1
/-- Width in bits. -/
def Fmt.width (f : Fmt) : Nat := 1 + f.ebits + f.mbits
/-- The sign bit. -/
def Fmt.signBit (f : Fmt) : Nat := 2 ^ (f.ebits + f.mbits)
/-- The pattern of +∞, or one above E4M3's NaN magnitude. -/
def Fmt.infBits (f : Fmt) : Nat := (2 ^ f.ebits - 1) * 2 ^ f.mbits
/-- The pattern of the largest finite magnitude (R12, R19). -/
def Fmt.maxFinite (f : Fmt) : Nat := if f.ocp then 2 ^ (f.ebits + f.mbits) - 2 else f.infBits - 1
/-- The canonical quiet NaN (R12, R14, R19). -/
def Fmt.nan (f : Fmt) : Nat := if f.ocp then 2 ^ (f.ebits + f.mbits) - 1 else f.infBits + 2 ^ (f.mbits - 1)

/-- The value of a pattern: a NaN, an infinity, or (-1)^neg · m · 2^e with the sign of zero kept. -/
inductive FVal where
  | nan
  | inf (neg : Bool)
  | fin (neg : Bool) (m : Nat) (e : Int)
  deriving DecidableEq, Repr

/-- The value of a pattern (R12, R19). -/
def Fmt.value (f : Fmt) (x : Nat) : FVal :=
  let neg := x / f.signBit % 2 == 1
  let ex := x / 2 ^ f.mbits % 2 ^ f.ebits
  let fr := x % 2 ^ f.mbits
  if f.ocp then
    if x % f.signBit == f.nan then .nan
    else if ex == 0 then .fin neg fr (1 - (f.bias : Int) - f.mbits)
    else .fin neg (2 ^ f.mbits + fr) ((ex : Int) - f.bias - f.mbits)
  else if ex == 2 ^ f.ebits - 1 then (if fr == 0 then .inf neg else .nan)
  else if ex == 0 then .fin neg fr (1 - (f.bias : Int) - f.mbits)
  else .fin neg (2 ^ f.mbits + fr) ((ex : Int) - f.bias - f.mbits)

/-- Rounding directions (R16). -/
inductive Mode where
  | rne | rz | ru | rd
  deriving DecidableEq, Repr

/-- The direction of an FR or FD completer's low bits (R60). -/
def Mode.ofCode : Nat → Mode
  | 0 => .rne | 1 => .rz | 2 => .ru | _ => .rd

/-- Whether a mode rounds a magnitude of the given sign away from zero at an infinity. -/
def Mode.outward (m : Mode) (neg : Bool) : Bool :=
  match m with
  | .rne => true | .rz => false | .ru => !neg | .rd => neg

/-- A pattern with its sign. -/
def Fmt.signed (f : Fmt) (neg : Bool) (mag : Nat) : Nat := if neg then f.signBit + mag else mag

/-- The result of a mode that reaches infinity (R10, R21): an infinity, or E4M3's NaN. DEDUCED: log entry 20. -/
def Fmt.infinity (f : Fmt) (neg : Bool) : Nat := if f.ocp then f.nan else f.signed neg f.infBits

/-- Quotient and remainder of num/den by 2^q. -/
def scaledDiv (num den : Nat) (q : Int) : Nat × Nat × Nat :=
  if 0 ≤ q then (num / (den * 2 ^ q.toNat), num % (den * 2 ^ q.toNat), den * 2 ^ q.toNat)
  else (num * 2 ^ (-q).toNat / den, num * 2 ^ (-q).toNat % den, den)

/-- Whether a quotient n with remainder r of d is rounded up in magnitude (R16). -/
def roundsUp (m : Mode) (neg : Bool) (n r d : Nat) : Bool :=
  match m with
  | .rne => 2 * r > d || (2 * r == d && n % 2 == 1)
  | .rz => false
  | .ru => !neg && r != 0
  | .rd => neg && r != 0

/-- floor(log2(num/den)) for positive num and den. -/
def log2Rat (num den : Nat) : Int :=
  let k : Int := (Nat.log2 num : Int) - Nat.log2 den
  let ge := if 0 ≤ k then den * 2 ^ k.toNat ≤ num else den ≤ num * 2 ^ (-k).toNat
  if ge then k else k - 1

/-- Rounds the nonzero rational (-1)^neg · num/den once (R10, R13, R16, R21); an underflow keeps its sign (R17).
`sat` replaces an overflow by the largest finite magnitude. -/
def Fmt.roundRat (f : Fmt) (m : Mode) (sat neg : Bool) (num den : Nat) : Nat :=
  let emin : Int := 1 - (f.bias : Int)
  let q := max (log2Rat num den) emin - f.mbits
  let (n, r, d) := scaledDiv num den q
  let n := if roundsUp m neg n r d then n + 1 else n
  let mag := (q - (emin - f.mbits)).toNat * 2 ^ f.mbits + n
  if mag ≤ f.maxFinite then f.signed neg mag
  else if sat || !m.outward neg then f.signed neg f.maxFinite
  else f.infinity neg

/-- An exact result before its rounding: as FVal, with a rational magnitude. -/
inductive XVal where
  | nan
  | inf (neg : Bool)
  | zero (neg : Bool)
  | rat (neg : Bool) (num den : Nat)
  deriving DecidableEq, Repr

/-- Rounds an exact result to a format (R14, R16, R21). -/
def Fmt.round (f : Fmt) (m : Mode) (sat : Bool) : XVal → Nat
  | .nan => f.nan
  | .inf neg => if sat then f.signed neg f.maxFinite else f.infinity neg
  | .zero neg => f.signed neg 0
  | .rat neg num den => if num = 0 then f.signed neg 0 else f.roundRat m sat neg num den

/-- An exact dyadic number m · 2^e. -/
structure Dy where
  m : Int
  e : Int
  deriving DecidableEq, Repr

def Dy.zero : Dy := ⟨0, 0⟩
/-- The mantissa at a common exponent below or equal to its own. -/
def Dy.at (x : Dy) (e : Int) : Int := x.m * 2 ^ (x.e - e).toNat
def Dy.add (x y : Dy) : Dy := ⟨x.at (min x.e y.e) + y.at (min x.e y.e), min x.e y.e⟩
def Dy.neg (x : Dy) : Dy := ⟨-x.m, x.e⟩
def Dy.sub (x y : Dy) : Dy := x.add y.neg
def Dy.mul (x y : Dy) : Dy := ⟨x.m * y.m, x.e + y.e⟩
def Dy.lt (x y : Dy) : Bool := (x.sub y).m < 0
def Dy.le (x y : Dy) : Bool := (x.sub y).m ≤ 0
def Dy.abs (x : Dy) : Dy := ⟨x.m.natAbs, x.e⟩
def Dy.ofInt (i : Int) : Dy := ⟨i, 0⟩
def Dy.sum (l : List Dy) : Dy := l.foldl Dy.add Dy.zero

/-- A dyadic number as an exact result; an exact zero has the sign given. -/
def Dy.toX (x : Dy) (zeroNeg : Bool) : XVal :=
  if x.m = 0 then .zero zeroNeg
  else if 0 ≤ x.e then .rat (x.m < 0) (x.m.natAbs * 2 ^ x.e.toNat) 1
  else .rat (x.m < 0) x.m.natAbs (2 ^ (-x.e).toNat)

/-- The dyadic value of a finite pattern value. -/
def FVal.dy : FVal → Dy
  | .fin neg m e => ⟨if neg then -(m : Int) else m, e⟩
  | _ => Dy.zero

def FVal.isNan : FVal → Bool
  | .nan => true
  | _ => false

def FVal.isInf : FVal → Bool
  | .inf _ => true
  | _ => false

def FVal.isZero : FVal → Bool
  | .fin _ 0 _ => true
  | _ => false

def FVal.sign : FVal → Bool
  | .nan => false
  | .inf neg => neg
  | .fin neg _ _ => neg

/-- An exact result of one pattern's value. -/
def FVal.toX : FVal → XVal
  | .nan => .nan
  | .inf neg => .inf neg
  | .fin neg m e => (Dy.mk (if neg then -(m : Int) else m) e).toX neg

/-- A product before rounding: infinities and zeros carry their sign (R17, R121). -/
def FVal.mul (x y : FVal) : FVal :=
  match x, y with
  | .nan, _ => .nan
  | _, .nan => .nan
  | .inf a, y => if y.isZero then .nan else .inf (a != y.sign)
  | x, .inf b => if x.isZero then .nan else .inf (x.sign != b)
  | .fin a m e, .fin b n k => .fin (a != b) (m * n) (e + k)

/-- An IEEE sum before rounding: an exact zero takes its sign from IEEE 754 clause 6.3 (R17). -/
def FVal.add (mode : Mode) (x y : FVal) : XVal :=
  match x, y with
  | .nan, _ => .nan
  | _, .nan => .nan
  | .inf a, .inf b => if a == b then .inf a else .nan
  | .inf a, _ => .inf a
  | _, .inf b => .inf b
  | .fin a m e, .fin b n k =>
    ((FVal.fin a m e).dy.add (FVal.fin b n k).dy).toX (if a == b then a else mode == .rd)

def FVal.neg : FVal → FVal
  | .nan => .nan
  | .inf a => .inf (!a)
  | .fin a m e => .fin (!a) m e

/-- FADD, FSUB, FMUL, FFMA on patterns (R121). -/
def fpAdd (f : Fmt) (m : Mode) (sat : Bool) (a b : Nat) : Nat := f.round m sat ((f.value a).add m (f.value b))
def fpSub (f : Fmt) (m : Mode) (sat : Bool) (a b : Nat) : Nat := f.round m sat ((f.value a).add m (f.value b).neg)
def fpMul (f : Fmt) (m : Mode) (sat : Bool) (a b : Nat) : Nat := f.round m sat ((f.value a).mul (f.value b)).toX
def fpFma (f : Fmt) (m : Mode) (sat : Bool) (a b c : Nat) : Nat :=
  f.round m sat (((f.value a).mul (f.value b)).add m (f.value c))

/-- An order key that places -0 below +0 (R18). -/
def orderKey (f : Fmt) (x : Nat) : Int := if x / f.signBit % 2 == 1 then -((x % f.signBit : Nat) : Int) - 1 else (x % f.signBit : Nat)

/-- An order key in which the zeros are equal (R123). -/
def valueKey (f : Fmt) (x : Nat) : Int := if x / f.signBit % 2 == 1 then -((x % f.signBit : Nat) : Int) else (x % f.signBit : Nat)

/-- minimumNumber and maximumNumber (R18). -/
def fpMin (f : Fmt) (a b : Nat) : Nat :=
  if (f.value a).isNan then (if (f.value b).isNan then f.nan else b)
  else if (f.value b).isNan then a
  else if orderKey f b < orderKey f a then b else a
def fpMax (f : Fmt) (a b : Nat) : Nat :=
  if (f.value a).isNan then (if (f.value b).isNan then f.nan else b)
  else if (f.value b).isNan then a
  else if orderKey f a < orderKey f b then b else a

/-- A finite value rounded to an integer in a direction (R124, R129). -/
def roundInt (m : Mode) (neg : Bool) (mant : Nat) (e : Int) : Nat :=
  let (n, r, d) := scaledDiv mant 1 (-e)
  if 0 ≤ e then mant * 2 ^ e.toNat else if roundsUp m neg n r d then n + 1 else n

/-- FRND (R124). -/
def fpRnd (f : Fmt) (m : Mode) (a : Nat) : Nat :=
  match f.value a with
  | .nan => f.nan
  | .inf _ => a
  | .fin neg mant e =>
    let n := roundInt m neg mant e
    if n = 0 then f.signed neg 0 else f.round .rne false (.rat neg n 1)

/-- FCLASS (R126). -/
def fpClass (f : Fmt) (x : Nat) : Nat :=
  let neg := x / f.signBit % 2 == 1
  let ex := x / 2 ^ f.mbits % 2 ^ f.ebits
  let fr := x % 2 ^ f.mbits
  if ex == 2 ^ f.ebits - 1 then
    if fr == 0 then (if neg then 2 ^ 0 else 2 ^ 7) else if fr / 2 ^ (f.mbits - 1) == 1 then 2 ^ 9 else 2 ^ 8
  else if ex == 0 then
    if fr == 0 then (if neg then 2 ^ 3 else 2 ^ 4) else (if neg then 2 ^ 2 else 2 ^ 5)
  else (if neg then 2 ^ 1 else 2 ^ 6)

/-- A conversion widens when the target has every value of the source (R20, R128). -/
def Fmt.widens (src dst : Fmt) : Bool := decide (src.ebits ≤ dst.ebits) && decide (src.mbits ≤ dst.mbits)

/-- Conversion between formats: exact when widening, and saturation then has no effect; otherwise one rounding (R20, R21, R128). -/
def fpCvt (src dst : Fmt) (m : Mode) (sat : Bool) (x : Nat) : Nat := dst.round m (sat && !src.widens dst) (src.value x).toX

/-- FDOT's sum of an addend and two products, exact and rounded once; an exact zero is +0 (R125). -/
def fpDot (src : Fmt) (m : Mode) (sat : Bool) (c a0 b0 a1 b1 : Nat) : Nat :=
  let p := (src.value a0).mul (src.value b0)
  let q := (src.value a1).mul (src.value b1)
  let z := Fmt.fp32.value c
  let l := [z, p, q]
  if l.any FVal.isNan then Fmt.fp32.nan
  else if l.any (fun x => x.isInf && x.sign) && l.any (fun x => x.isInf && !x.sign) then Fmt.fp32.nan
  else if l.any (fun x => x.isInf) then Fmt.fp32.round m sat (.inf (l.any (fun x => x.isInf && x.sign)))
  else Fmt.fp32.round m sat ((Dy.sum (l.map FVal.dy)).toX false)

/-- floor(log2 |x|) of a nonzero dyadic number. -/
def Dy.log2 (x : Dy) : Int := (Nat.log2 x.m.natAbs : Int) + x.e

/-- One element of MMAH (R29): a[k], b[k] are values of the A and B formats and acc an FP32 pattern. -/
def mmahElement (acc : Nat) (ab : List (FVal × FVal)) : Nat :=
  let z := Fmt.fp32.value acc
  let prods := ab.map (fun p => p.1.mul p.2)
  let terms := prods ++ [z]
  if terms.any FVal.isNan then Fmt.fp32.nan
  else
    let pos := terms.any (fun x => x.isInf && !x.sign)
    let neg := terms.any (fun x => x.isInf && x.sign)
    if pos && neg then Fmt.fp32.nan
    else if pos then Fmt.fp32.infBits
    else if neg then Fmt.fp32.signed true Fmt.fp32.infBits
    else
      let nz := (terms.map FVal.dy).filter (fun t => t.m != 0)
      match nz with
      | [] => 0
      | t :: ts =>
        let emax := ts.foldl (fun a b => max a b.log2) t.log2
        let q := emax - 62
        let cut := nz.map (fun t =>
          let mag := (scaledDiv t.m.natAbs 1 (q - t.e)).1
          if t.m < 0 then -(mag : Int) else (mag : Int))
        Fmt.fp32.round .rne false ((Dy.mk (cut.foldl (· + ·) 0) q).toX false)

/-- SCACC's fold of an integer partial into an FP32 element (R30). A sum that underflows to zero gives +0, whatever its sign: R30 writes +0
of an underflow, which R17's third rule excepts (DEDUCED, log entry 74). -/
def scaccElement (acc : Nat) (p : Int) (sa sb fa fb : Nat) : Nat :=
  match Fmt.fp32.value acc with
  | .nan => Fmt.fp32.nan
  | .inf neg => if sa == 255 || sb == 255 then Fmt.fp32.nan else Fmt.fp32.signed neg Fmt.fp32.infBits
  | v =>
    if sa == 255 || sb == 255 then Fmt.fp32.nan
    else
      let x := Fmt.fp32.round .rne false ((v.dy.add ⟨p, (sa : Int) + sb - 254 - fa - fb⟩).toX false)
      if x % 2 ^ 31 = 0 then 0 else x

/-- One rounded dyadic value, an exact zero being +0 (R17, second rule). -/
def rneDy (f : Fmt) (x : Dy) : Nat := f.round .rne false (x.toX false)

/-- tree_sum (R37) over a power-of-two list, the lower lane on the left. -/
def treeSum (f : Fmt) : Nat → List Nat → Nat
  | 0, l => l.headD 0
  | n + 1, l => treeSum f n (pairs l)
where
  pairs : List Nat → List Nat
  | a :: b :: r => fpAdd f .rne false a b :: pairs r
  | l => l

/-- The largest natural number whose square is at most n, by the bits of the root from the highest. -/
def isqrtLoop (n : Nat) : Nat → Nat → Nat
  | 0, r => r
  | k + 1, r => isqrtLoop n k (if (r + 2 ^ k) * (r + 2 ^ k) ≤ n then r + 2 ^ k else r)
def isqrt (n : Nat) : Nat := isqrtLoop n (Nat.log2 n / 2 + 1) 0

/-- Rounds (-1)^neg · √(num/den) once: the root to enough bits, with half a unit added when it is inexact. -/
def Fmt.roundSqrt (f : Fmt) (neg : Bool) (num den : Nat) : Nat :=
  let k := Nat.log2 den + 300
  let n := num * 4 ^ k
  let s := isqrt (n / den)
  if s * s * den == n then f.round .rne false (.rat neg s (2 ^ k))
  else f.round .rne false (.rat neg (2 * s + 1) (2 ^ (k + 1)))

end Sys2Proof.Machine
end

