-- ==== Sys2Proof/Machine/Blocks.lean ====
section
/-! DEFINITION. Block formats: element grids, scale rules, packing and decoding (R22 to R27, R31 to R35, R131, R132). -/
namespace Sys2Proof.Machine

/-- A block element format for encoding: element width, mantissa bits of a floating grid (0 for an integer grid), the offset
f_g of R32, and the range in grid units of 2^-mb (R22, R31). -/
structure Grid where
  k : Nat
  mb : Nat
  fg : Nat
  lo : Int
  hi : Int
  deriving DecidableEq, Repr

/-- The grid of a format code of R57: FP4, FP6 E2M3, MXINT8, BFP-k. -/
def Grid.ofCode (c : Nat) : Grid :=
  if c = 6 then ⟨4, 1, 0, -12, 12⟩
  else if c = 7 then ⟨6, 3, 0, -60, 60⟩
  else if c = 9 then ⟨8, 0, 6, -128, 127⟩
  else ⟨c % 16, 0, 0, -(2 ^ (c % 16 - 1) : Nat), (2 ^ (c % 16 - 1) : Nat) - 1⟩

/-- RNE of a dyadic number to the grid, in units of 2^-mb (R31). -/
def Grid.rne (g : Grid) (x : Dy) : Int :=
  if x.m = 0 then 0
  else
    let q : Int := if g.mb = 0 then 0 else max x.log2 0 - g.mb
    let (n, r, d) := scaledDiv x.m.natAbs 1 (q - x.e)
    let n := if roundsUp .rne false n r d then n + 1 else n
    let v : Int := n * 2 ^ (q + g.mb).toNat
    if x.m < 0 then -v else v

/-- An element at scale E before clamping (R32 step 3). -/
def Grid.at (g : Grid) (e : Nat) (v : Dy) : Int := g.rne ⟨v.m, v.e - ((e : Int) - 127 - g.fg)⟩

def Grid.fits (g : Grid) (x : Int) : Bool := g.lo ≤ x && x ≤ g.hi
def Grid.clamp (g : Grid) (x : Int) : Int := max g.lo (min g.hi x)

/-- The decoded value of an element of grid units x at scale E (R22 to R24). -/
def Grid.decoded (g : Grid) (e : Nat) (x : Int) : Dy := ⟨x, (e : Int) - 127 - g.fg - g.mb⟩

/-- The default scale of a block of finite values (R32 steps 2 to 4). -/
def Grid.scaleUp (g : Grid) (vs : List Dy) : Nat :=
  if vs.all (fun v => v.m == 0) then 0
  else ((List.range 255).find? (fun e => vs.all (fun v => g.fits (g.at e v)))).getD 254

/-- The exact squared error of a block at a scale (R33). -/
def Grid.error (g : Grid) (e : Nat) (vs : List Dy) : Dy :=
  Dy.sum (vs.map (fun v =>
    let d := v.sub (g.decoded e (g.clamp (g.at e v)))
    d.mul d))

/-- The search rule (R33): least error, then nearest E_up, then the larger E. -/
def Grid.scaleSearch (g : Grid) (vs : List Dy) : Nat :=
  if vs.all (fun v => v.m == 0) then 0
  else
    let up := g.scaleUp vs
    let cands := [up] ++ (if up < 254 then [up + 1] else []) ++ (if 0 < up then [up - 1] else [])
    (cands.foldl (fun (best : Nat × Dy) e => if (g.error e vs).lt best.2 then (e, g.error e vs) else best)
      (up, g.error up vs)).1

/-- The code of an element of grid units x; zero is +0 (R22, R24, R32). -/
def Grid.code (g : Grid) (x : Int) : Nat :=
  if g.mb = 0 then wrapI g.k x
  else if x = 0 then 0
  else
    let n := x.natAbs
    let e := Nat.log2 n - g.mb
    let mag := if n < 2 ^ g.mb then n else (e + 1) * 2 ^ g.mb + n / 2 ^ e - 2 ^ g.mb
    if x < 0 then 2 ^ (g.k - 1) + mag else mag

/-- Scale and element units of a block of FP32 patterns (R32, R33): a NaN or an infinity gives the NaN scale. -/
def quantize (g : Grid) (search : Bool) (vs : List Nat) : Nat × List Int :=
  let xs := vs.map Fmt.fp32.value
  if xs.any (fun x => x.isNan || x.isInf) then (255, vs.map (fun _ => 0))
  else
    let ds := xs.map FVal.dy
    let e := if search then g.scaleSearch ds else g.scaleUp ds
    (e, ds.map (fun v => g.clamp (g.at e v)))

/-- The element stream of a block as a number (R26, R132). -/
def packStream (k : Nat) (codes : List Nat) : Nat := codes.foldr (fun c acc => c % 2 ^ k + 2 ^ k * acc) 0

/-- The packed form of a block in its sixteen lanes: the stream from lane 0, the scale in lane 15 (R131). -/
def packedLanes (k e : Nat) (codes : List Nat) : List Word :=
  (List.range 16).map (fun i =>
    if i = 15 then BitVec.ofNat 64 e else if i < 4 then BitVec.ofNat 64 (packStream k codes / 2 ^ (64 * i)) else 0)

/-- A small format with no infinities or NaNs: sign, eb exponent bits, mb mantissa bits (R22). -/
def miniValue (eb mb bias code : Nat) : FVal :=
  let neg := code / 2 ^ (eb + mb) % 2 == 1
  let ex := code / 2 ^ mb % 2 ^ eb
  let fr := code % 2 ^ mb
  if ex = 0 then .fin neg fr (1 - (bias : Int) - mb) else .fin neg (2 ^ mb + fr) ((ex : Int) - bias - mb)

/-- A two's complement element m × 2^-f. -/
def intValue (k f code : Nat) : FVal :=
  let x := sextN code k
  .fin (x < 0) x.natAbs (-(f : Int))

/-- Element width of a block format code (R57). -/
def blockWidth (c : Nat) : Nat :=
  if c = 6 then 4 else if c = 7 || c = 8 then 6 else if c = 4 || c = 5 || c = 9 then 8 else c % 16

/-- The value of a block element before its scale (R19, R22, R24). -/
def blockElement (c code : Nat) : FVal :=
  if c = 4 then Fmt.e4m3.value code
  else if c = 5 then Fmt.e5m2.value code
  else if c = 6 then miniValue 2 1 1 code
  else if c = 7 then miniValue 2 3 1 code
  else if c = 8 then miniValue 3 2 3 code
  else if c = 9 then intValue 8 6 code
  else intValue (c % 16) 0 code

/-- A value times 2^k. -/
def FVal.scale (x : FVal) (k : Int) : FVal :=
  match x with
  | .fin neg m e => .fin neg m (e + k)
  | y => y

/-- The value of an element under scale E (R23, R24, R134). -/
def blockValue (c e code : Nat) : FVal := if e = 255 then .nan else (blockElement c code).scale ((e : Int) - 127)

/-- The FP32 elements of a block in lanes 16j to 16j + 15 (R131). -/
def blockInputs (x : List Word) (j : Nat) (keep : Nat → Bool) : List Nat :=
  (List.range 32).map (fun i => if keep (16 * j + i / 2) then elem 32 (laneOf x (16 * j + i / 2)) (i % 2) else 0)

/-- The stream of a block from its lanes 16j to 16j + 3 (R131). -/
def blockStream (x : List Word) (j : Nat) : Nat :=
  ((List.range 4).foldl (fun acc i => acc + (laneOf x (16 * j + i)).toNat * 2 ^ (64 * i)) 0)

/-- CVTW of one FP32 pattern (R34). -/
def cvtw (x : Nat) : Nat := fpCvt .fp32 .w24 .rne false x
/-- WREB of one W24 pattern (R35). -/
def wreb (x : Nat) : Nat := x % 2 ^ 24 * 2 ^ 8

end Sys2Proof.Machine
end

