-- ==== Sys2Proof/Config.lean ====
section
/-! DEFINITION. What the spec leaves open: free values (constants with no body, so that no proof sees a value) and the
quantities fixed for a machine. -/
namespace Sys2Proof.Config

/-- The byte that host memory returns to the n-th read of a partition's host window offset (R285): the host keeps that
memory, and nothing here constrains it. DESIGN CHOICE: log entry 5. -/
opaque hostByte : Nat → Nat → Byte

/-- Whether a destination word of a stopped collective has received its result (R383: it holds its old value or its result), by the number
of the choice. DESIGN CHOICE: log entry 18. -/
opaque wordWritten : Nat → Bool

/-- The channel, modulo 32, of its HBM stack that holds a physical address (R331, R338: open). DESIGN CHOICE: log entry 71. -/
opaque channel : Nat → Nat

/-- The order of elements that a singular placement puts into one slot (R348: open), by source slot. DESIGN CHOICE: log entry 68. -/
opaque slotOrder : Nat → Nat

/-- Bytes of a saved context's body (R327 gives it no layout): free, by save number and position. DESIGN CHOICE: log entry 12. -/
opaque contextByte : Nat → Nat → Byte

/-- Length of a saved context's body in bytes (R327): free, by save number. DESIGN CHOICE: log entry 12. -/
opaque contextLength : Nat → Nat

/-- The package's Ed448 private key, which never leaves the package (R341). DESIGN CHOICE: log entry 11. -/
opaque privateKey : List Byte

/-- The boot firmware, the hypervisor image and its signature, and the Foryen root key (R337, R341): the spec does not give them.
DESIGN CHOICE: log entry 11. -/
opaque firmware : List Byte
opaque hypervisor : List Byte
opaque hypervisorSignature : List Byte
opaque rootKey : List Byte

/-- The package serial number (R341). DESIGN CHOICE: log entry 11. -/
opaque serialNumber : Word

/-- The number of this package in its rotor domain, 0 to 1,023 (R361); fixed for the machine. DESIGN CHOICE: log entry 11. -/
opaque packageNumber : Fin 1024

/-- The packages of the rotor domain (R361); fixed for the machine. DESIGN CHOICE: log entry 11. -/
opaque domain : List Nat

/-- The next epoch of a sender that is new to this package, for a rank word whose rank has come here from another package (R367, R375): free,
by package, round and rank word. DEDUCED: log entry 80. -/
opaque firstEpoch : Nat → Nat → Word → Nat

/-- The reason word of a COLL_MISMATCH that a mismatch among participants raises (R383, R384): the spec numbers only the reasons
that COLL itself finds. DESIGN CHOICE: log entry 54. -/
opaque mismatchReason : Word

end Sys2Proof.Config
end

