-- ==== Sys2Proof/Machine/SMap.lean ====
section
/-! DEFINITION. Sorted association lists keyed by Nat: the one form in which sparse state is held. -/
namespace Sys2Proof.Machine

/-- A finite map from Nat, as a list of pairs with strictly rising keys. -/
abbrev SMap (α : Type) := List (Nat × α)

/-- The value at a key. -/
def SMap.find {α : Type} (m : SMap α) (k : Nat) : Option α :=
  match m with
  | [] => none
  | (i, a) :: r => if i = k then some a else SMap.find r k

/-- The value at a key, or a default. -/
def SMap.get {α : Type} (m : SMap α) (d : α) (k : Nat) : α := (SMap.find m k).getD d

/-- Sets the value at a key and keeps the order. -/
def SMap.set {α : Type} (m : SMap α) (k : Nat) (a : α) : SMap α :=
  match m with
  | [] => [(k, a)]
  | (i, b) :: r => if k < i then (k, a) :: (i, b) :: r else if i = k then (k, a) :: r else (i, b) :: SMap.set r k a

/-- Removes a key. -/
def SMap.erase {α : Type} (m : SMap α) (k : Nat) : SMap α :=
  match m with
  | [] => []
  | (i, b) :: r => if i = k then r else (i, b) :: SMap.erase r k

/-- Keys strictly rising from a lower bound. -/
def SMap.rising {α : Type} (lo : Nat) (m : SMap α) : Bool :=
  match m with
  | [] => true
  | (i, _) :: r => decide (lo ≤ i) && SMap.rising (i + 1) r

/-- The canonical form of a map: keys strictly rising. -/
def SMap.wf {α : Type} (m : SMap α) : Bool := SMap.rising 0 m

/-- Bytes by address in canonical form (Host.Cell): strictly rising addresses and no byte equal to what an unlisted
address reads as, which is 0 (R336: memory is cleared before a partition receives it; R149: the scratchpad is zero). -/
abbrev Memory := List (Nat × Byte)

/-- What an unlisted address reads as (R149, R336). DEDUCED: log entry 4. -/
def Memory.default : Byte := 0

/-- One byte. -/
def Memory.read (m : Memory) (a : Nat) : Byte := SMap.get m Memory.default a

/-- Writes one byte; writing the default removes the entry. -/
def Memory.write (m : Memory) (a : Nat) (b : Byte) : Memory :=
  if b = Memory.default then SMap.erase m a else SMap.set m a b

/-- The canonical form of a memory. -/
def Memory.wf (m : Memory) : Bool := SMap.wf m && m.all (fun c => c.2 != Memory.default)

/-- Writes a list of bytes from an address upward. -/
def Memory.writeList (m : Memory) (a : Nat) : List Byte → Memory
  | [] => m
  | b :: bs => Memory.writeList (Memory.write m a b) (a + 1) bs

/-- Writes listed bytes in order. -/
def Memory.writeCells (m : Memory) : List (Nat × Byte) → Memory
  | [] => m
  | c :: cs => Memory.writeCells (Memory.write m c.1 c.2) cs

/-- Reads n bytes from an address upward. -/
def Memory.readList (m : Memory) (a n : Nat) : List Byte := (List.range n).map (fun i => Memory.read m (a + i))

/-- Inserts in order. -/
def insertBy {α : Type} (lt : α → α → Bool) (x : α) : List α → List α
  | [] => [x]
  | y :: ys => if lt x y then x :: y :: ys else y :: insertBy lt x ys

end Sys2Proof.Machine
end

