-- ==== Sys2Proof/Machine/State.lean ====
section
/-! DEFINITION. The state of the machine: one package (R3, R4) with its rounds, teams, cores, dies, partitions and fabric,
as plain data. INVENTORY.md lists every field with its rule and reset value. -/
namespace Sys2Proof.Machine

/-- A lane vector: one 64-bit value per logical lane, lanes 0 to 63 (R78). -/
abbrev Lanes := List Word

/-- Join-stack entry kinds (R88). -/
inductive JoinKind where
  | join | path | call
  deriving DecidableEq, Repr

/-- A join-stack entry (R88). -/
structure JoinEntry where
  kind : JoinKind
  addr : Word
  mask : Mask
  deriving DecidableEq, Repr

/-- A walker and its own copy of the descriptor (R98 to R101). -/
structure Walker where
  bound : Bool
  base : Word
  lstride : BitVec 32
  esz : Nat
  ndim : Nat
  extent : List Nat
  stride : List Word
  c : List Nat
  wrap : BitVec 4
  count : Nat
  deriving DecidableEq, Repr

/-- The A reuse latch when full (R211): base register, format code, k field and the fragment's registers. -/
structure Latch where
  base : Nat
  fmt : Nat
  k : Nat
  frag : List Lanes
  deriving DecidableEq, Repr

/-- A partial slot (R209). No values stand for 4,096 zeros. -/
structure PartialSlot where
  pending : Bool
  fa : Nat
  fb : Nat
  ka : Nat
  kb : Nat
  vals : List (BitVec 32)
  deriving DecidableEq, Repr

/-- An accumulator slot (R208, R222): patterns, stored row and column sums, and stuck bits of its storage
(element, bit, value). No values stand for zeros. -/
structure Tile where
  vals : List (BitVec 32)
  rows : List (BitVec 32)
  cols : List (BitVec 32)
  stuck : List (Nat × Nat × Bool)
  deriving DecidableEq, Repr

/-- A recorded copy fault (R170): the member kind (0 copy, 1 register copy, 2 interleave, 3 placement), the faulting
address and the underlying cause; the batch that holds it gives its number. -/
structure FaultRec where
  kind : Nat
  addr : Word
  cause : Nat
  deriving DecidableEq, Repr

/-- The descriptor of CPYI (R165). -/
structure InterleaveDesc where
  dst : Word
  src : Word
  nch : Nat
  npos : Nat
  f : Nat
  esz : Nat
  srcKind : Nat
  dstKind : Nat
  pad : Word
  deriving DecidableEq, Repr

/-- What a batch member does (R163, R164, R165, R195). Kinds are 0 memory, 1 scratchpad, 2 host. -/
inductive Work where
  | copy (srcKind : Nat) (src : Word) (dstKind : Nat) (dst : Word) (len : Nat)
  | regs (srcKind : Nat) (addrs : Lanes) (mask : Mask) (reg count target : Nat)
  | interleave (unpack : Bool) (d : InterleaveDesc)
  | place (layout : Nat) (step : Bool)
  deriving DecidableEq, Repr

/-- A batch member: its work, the destination words already moved, the service handle it waits for (R393), and the source bytes that it
has read and not yet written, by 4·address + kind (R169). -/
structure Member where
  id : Nat
  work : Work
  moved : List Nat
  service : Option Nat
  read : SMap Byte
  deriving DecidableEq, Repr

/-- A batch (R166, R168): its unfinished members and its first fault record. -/
structure Batch where
  num : Nat
  members : List Member
  fault : Option FaultRec
  reported : Bool
  deriving DecidableEq, Repr

/-- What a pending access does at its point of coherence (R385). -/
inductive AccessOp where
  | load
  | store
  | atomic (op : Nat) (unsigned : Bool)
  | compare
  deriving DecidableEq, Repr

/-- A unit of an access, which takes effect whole (R152, R291, R294, R295): the lane, its first byte in the lane's datum, the addresses of
its bytes, the bytes it stores, and the operands B and C of an atomic; of an element of 4 bits, B is 1 for the low and 2 for the high nibble
of its byte (R188, R189). -/
structure Piece where
  lane : Nat
  ofs : Nat
  addrs : List Nat
  data : List Byte
  b : Nat
  c : Nat
  deriving DecidableEq, Repr

/-- An access of the LS or the TX path (0 or 1, R57) that has been issued and has not wholly taken effect (R385 to R389): in device memory or
in the team's scratchpad, its destination, its semantics and scope (R54, R297), whether a release follows it, the streams, as
8·round + path, that find it after a fence (R264, R301), the units that remain, and the bytes obtained or stored, by 64·lane + byte. -/
structure Access where
  id : Nat
  path : Nat
  spad : Bool
  op : AccessOp
  dst : BitVec 11
  regs : Nat
  mask : Mask
  sem : Nat
  scope : Nat
  released : Bool
  shown : List Nat
  pieces : List Piece
  got : SMap Byte
  deriving DecidableEq, Repr

/-- An outstanding SFQ (R258). -/
structure SfqReq where
  token : Nat
  fn : Nat
  dst : Nat
  mask : Mask
  vals : Lanes
  deriving DecidableEq, Repr

/-- A trap (R321, R322): cause code, index byte, header address, information words and passing-lane mask. -/
structure TrapRec where
  cause : Nat
  index : Nat
  h : Word
  info0 : Word
  info1 : Word
  info2 : Word
  mask : Mask
  deriving DecidableEq, Repr

/-- Why a round is parked (R322): a service request with its die, its pages and those that its own entry lists (R288), or a trap; whether
the trap's instruction can be stepped over, and the instruction index at which action 0 resumes (R106, R325). -/
structure Park where
  service : Bool
  trap : TrapRec
  die : Nat
  pages : List Word
  asked : List Word
  canStep : Bool
  resume : Nat
  deriving DecidableEq, Repr

/-- What a round that issues nothing waits for. -/
inductive WaitKind where
  | barrier (b : Nat)        -- arrived at BARW (R251)
  | second (b : Nat)         -- held by a second arrival (R251)
  | cluster                  -- arrived at CBAR (R273)
  | clusterSecond
  | batches                  -- CWAIT, CWAITK (R167)
  | tokens                   -- SFWAIT (R259)
  | semaphore                -- SEMW (R318)
  | node (handle : Nat)      -- GWAIT (R316)
  | courier                  -- CRWAIT (R354)
  | collective               -- COLLW (R383)
  | remote                   -- RLD, RATOM, RCAS (R369)
  | acks                     -- RFLUSH, FENCE or release at system scope (R297, R372)
  | drain                    -- DRN (R228)
  | copies                   -- FENCEX naming CP or TX (R301), or a PLACE.step behind a running pass
  | exchange                 -- CBAR behind its own items (R273)
  | sleep                    -- SLEEP (R96)
  | halt                     -- HALT (R327)
  | rows (round need : Nat)  -- no free rows: the round that would hold so many (R85)
  | pass                     -- between two passes of PLACE.R (R194)
  | engine                   -- a full queue, a ninth job, a unit that is not ready (R338): it only costs time
  | scoreboard               -- a name that has not landed (R81)
  deriving DecidableEq, Repr

/-- At which stopping place of R105 a round stands: a listed point, an implicit point with what it waits for, a clause boundary
after the watchdog, or a spill for lack of rows (R85). -/
inductive StopKind where
  | listed (point : Nat)
  | implicit (k : WaitKind)
  | watchdog
  | spilled
  deriving DecidableEq, Repr

/-- Where a round stands. -/
inductive Status where
  | ready
  | waiting (k : WaitKind)
  | parked (p : Park)
  | stopped (k : StopKind)   -- at a stopping place (R105)
  | ending                   -- no live lane remains; its outstanding work completes (R89)
  | ended
  deriving DecidableEq, Repr

/-- A clause being issued (R39, R40): header address, header fields, instruction words and the next index. -/
structure Clause where
  h : Word
  cls : Nat
  cnt : Nat
  gap : Nat
  yld : Bool
  uni : BitVec 16
  words : List Word
  idx : Nat
  deriving DecidableEq, Repr

/-- A failure of a fabric store not yet reported (R372). -/
structure KeptFailure where
  rankWord : Word
  addr : Word
  cause : Nat
  timeout : Bool
  deriving DecidableEq, Repr

/-- A round's epoch toward one rank word and the store packets it has sent in it (R375). -/
structure Epoch where
  rankWord : Word
  epoch : Nat
  sent : Nat
  unacked : Nat
  deriving DecidableEq, Repr

/-- The state of a round (R78, R79 and the chapters that add to it). `remote` holds the rank word of each lane of a fabric instruction that is
under way, with the table entry that it named at issue (R364), and `wave` how many times its requests have been sent (R369). `drain` holds the
writes of a drain that are not visible yet (R228), each of one 8-byte word: memory 0 or scratchpad 1, and its bytes. -/
structure Round where
  team : Nat
  rix : Nat
  handle : BitVec 32
  width : Nat
  priv : Bool
  core : Nat
  quadrant : Nat
  slot : Nat
  status : Status
  pc : Word
  live : Mask
  cur : Mask
  stack : List JoinEntry
  clause : Option Clause
  fetched : Option (Word × List Word)
  v : SMap Lanes
  s : List Word
  t : List Lanes
  p : List Mask
  window : List (Nat × Nat)
  walkers : List Walker
  unwr : Bool
  wdog : Bool
  spilled : Bool
  preempted : Bool
  abase : Word
  latch : Option Latch
  fifo : List Byte
  parts : List PartialSlot
  last : Nat
  openBatch : Batch
  sealed : List Batch
  tokens : List SfqReq
  jlast : Nat
  clast : Nat
  giveway : Bool
  gapUntil : Nat
  sleep : Nat
  dieCtr : Nat
  pkgCtr : Nat
  sysCtr : Nat
  ageing : Nat
  kept : Option KeptFailure
  epochs : List Epoch
  drain : List (Nat × List (Nat × Byte))
  replies : List Reply
  remote : List (Nat × Word × Word)
  wave : Nat
  stopReq : Option Nat
  pending : List Access
  yields : Bool
  deriving DecidableEq, Repr

/-- A named barrier (R249). -/
structure Barrier where
  parity : Bool
  arrivals : Nat
  count : Nat
  arrived : BitVec 32
  waiters : BitVec 32
  deriving DecidableEq, Repr

/-- One pass of a plan: an affine map of locations and the group it updates (R191, R192). -/
structure Pass where
  isX : Bool
  rows : List Word
  off : Word
  deriving DecidableEq, Repr

/-- The hidden plan part of a layout register (R182). -/
structure Plan where
  target : List Word
  offset : Word
  passes : List Pass
  deriving DecidableEq, Repr

/-- A layout register (R182): the record as 64 words (R186) and the plan in progress. -/
structure LayoutReg where
  words : List Word
  plan : Option Plan
  deriving DecidableEq, Repr

/-- A tag table entry (R158). -/
structure TagEntry where
  valid : Bool
  key : Word
  deriving DecidableEq, Repr

/-- An exchange window (R269, R270). The bank that is not the front one stands at the shadow addresses. -/
structure Window where
  declared : Bool
  base : Nat
  size : Nat
  bank : Bool
  deriving DecidableEq, Repr

/-- An armed accumulator flip (R266, R267): slot, element and bit. -/
structure Flip where
  slot : Nat
  elem : Nat
  bit : Nat
  deriving DecidableEq, Repr

/-- Where a team stands: on its cores; being saved, to be resumed by the sorting office or unloaded by CTXSV; saved and resumable;
unloaded by CTXSV (R320, R327); ended. -/
inductive TeamStatus where
  | resident
  | saving (unload : Bool)
  | saved
  | unloaded
  | ended
  deriving DecidableEq, Repr

/-- A point entry (R76): at most six ranges of v names (first name and count), and masks of live s, p, a, L, w and z names. -/
structure Point where
  addr : Nat
  p : BitVec 7
  vranges : List (Nat × Nat)
  s : BitVec 128
  acc : BitVec 32
  lay : BitVec 32
  walk : BitVec 8
  z : BitVec 2
  deriving DecidableEq, Repr

/-- A kernel as a record and the loaded image give it (R75, R76, R77). -/
structure Kernel where
  addr : Word
  entry : Nat
  width : Nat
  rounds : Nat
  spad : Nat
  acc : Nat
  zslots : Nat
  pair : Bool
  gang : Nat
  teams : Nat
  dreg : Nat
  pfirst : Nat
  pcount : Nat
  points : List Point
  sdata : List Byte
  deriving DecidableEq, Repr

/-- The state of a team (R148, R149). `slots` are keyed by team slot number, and by 512 + number on the second core of a
pair (R255); `pool` is the die whose context pool holds its reservation, and `poolAt` its parts there, start and length (R319). -/
structure Team where
  node : Option Nat
  tix : Nat
  gang : Nat
  member : Nat
  part : Nat
  status : TeamStatus
  core : Nat
  pair : Bool
  kernel : Kernel
  spad : Memory
  spadSize : Nat
  tagSets : Nat
  tags : SMap TagEntry
  recency : SMap (List Nat)
  bars : List Barrier
  layouts : List LayoutReg
  slots : SMap Tile
  acc : Nat
  zslots : Nat
  windows : List Window
  flips : List Flip
  fenced : List Nat
  admitted : Nat
  pool : Nat
  poolAt : List (Nat × Nat)
  deriving DecidableEq, Repr

/-- A gang's cluster barrier (R269): the arrived set is keyed by round number in State. `copyOf` names the gang of which it is a copy, and
how many teams that one had, where its contexts were loaded again (R327). -/
structure Gang where
  copyOf : Option (Nat × Nat)
  node : Nat
  size : Nat
  parity : Bool
  count : Nat
  swap : Bool
  arrived : List Nat
  waiters : List Nat
  deriving DecidableEq, Repr

/-- A node record (R305). -/
structure NodeRec where
  kind : Nat
  priority : Nat
  standing : Bool
  pair : Bool
  gang : Nat
  die : Nat
  teams : Nat
  kernel : Word
  text : Word
  data : Word
  tagsets : Nat
  reserve : Nat
  preds : Nat
  manifest : Word
  params : List Word
  succ : List Nat
  deriving DecidableEq, Repr

/-- Node states (R307). -/
inductive NodeState where
  | waiting | earlyReady | ready | dispatching | running | complete | removed
  deriving DecidableEq, Repr

/-- A node of the dispatch graph (R305 to R313). -/
structure Node where
  handle : Nat
  part : Nat
  record : NodeRec
  kernel : Kernel
  state : NodeState
  remaining : Nat
  post : Nat
  since : Nat
  started : Nat
  firstSince : Option Nat
  completions : Nat
  grdy : Bool
  standing : Bool
  nextTix : Nat
  resumable : List Nat
  snapshot : Option (List Nat × Nat)
  work : Option Member
  fault : Option FaultRec
  deriving DecidableEq, Repr

/-- A counted flag held by a die (R375), under its packet's key. -/
structure HeldFlag where
  key : Nat
  packet : Packet
  deriving DecidableEq, Repr

/-- Settled store packets of one sender, rank word and epoch (R375). -/
structure EpochCount where
  srcPkg : Nat
  srcRound : Nat
  rankWord : Word
  epoch : Nat
  settled : Nat
  failure : Option Nat
  deriving DecidableEq, Repr

/-- A round waiting in a semaphore's queue (R318). -/
structure SemWait where
  counter : Nat
  round : Nat
  deriving DecidableEq, Repr

/-- What a pending engine service request serves (R393). -/
inductive ServiceWork where
  | member (round id : Nat)
  | node (n : Nat)
  | courier (job segment : Nat)
  | collective (c : Nat)
  | manifest (n : Nat)
  deriving DecidableEq, Repr

/-- A pending engine service request (R393). -/
structure Service where
  handle : Nat
  part : Nat
  work : ServiceWork
  addr : Word
  deriving DecidableEq, Repr

/-- A compute die (R282 to R303, R308, R318, R319, R375). `applied` records packets from other packages that have been applied, with the
time (R362); `poolSet` says that the image has written CTXPOOL (R319). -/
structure Die where
  part : Option Nat
  sems : SMap Nat
  semq : List SemWait
  postCtr : Nat
  slotSeq : SMap Nat
  serviceSeq : SMap Nat
  ctxpool : Word
  ctxsize : Word
  lasting : Nat
  corr : Nat
  trans : Nat
  clock : Word
  held : List HeldFlag
  holds : List (Nat × Nat)
  applied : List (Nat × Nat × Nat)
  poolSet : Bool
  deriving DecidableEq, Repr

/-- A cached translation (R287): partition, page address, size, physical page and rights. -/
structure TlbEntry where
  part : Nat
  va : Nat
  size : Nat
  pa : Nat
  u : Bool
  x : Bool
  w : Bool
  deriving DecidableEq, Repr

/-- A core (R4, R223, R287). -/
structure Core where
  spare : Nat
  retired : Nat
  corr : Nat
  trans : Nat
  fencedSlot : Bool
  tlb : List TlbEntry
  lastIssuer : List Nat
  deriving DecidableEq, Repr

/-- A partition (R286, R323, R326, R333, R336, R364). `measured` is the measurement of its image (R341); `frozen` lists jobs whose fabric
instructions wait for a migration (R367). -/
structure Partition where
  num : Nat
  dies : BitVec 6
  diag : Bool
  started : Bool
  control : List Nat
  image : List Byte
  measured : List Byte
  frozen : List Nat
  grants : List (Nat × Nat)
  ptroot : Word
  trapq : Word
  head : Nat
  tail : Nat
  queue : List (List (List Word))
  jobs : SMap Word
  hostWin : SMap Word
  inbox : Word
  deadManifests : List Nat
  images : List Image
  deriving DecidableEq, Repr

/-- A store-buffer entry (R296): physical bytes, and whether a core-scope or team-scope release follows it (R298). An aligned lane's bytes
leave in whole chunks of `chunk` bytes, those of `loose` one by one (R291); `left` lists the addresses of those that have left, `seen` the
rounds that a load served from it, and `shown` the streams, as 8·round + path, that find it after a fence (R264, R301). -/
structure StoreEntry where
  id : Nat
  round : Nat
  core : Nat
  bytes : List (Nat × Byte)
  chunk : Nat
  loose : List Nat
  released : Bool
  entered : Nat
  left : List Nat
  seen : List Nat
  shown : List Nat
  deriving DecidableEq, Repr

/-- A write-combining line (R370), with the rank-table entry that its store read at issue (R364); `last` orders the writes to lines. -/
structure WcLine where
  id : Nat
  round : Nat
  core : Nat
  rankWord : Word
  entry : Word
  base : Nat
  bytes : List (Nat × Byte)
  first : Nat
  last : Nat
  deriving DecidableEq, Repr

/-- An exchange item on its way (R277): operation 0 store, 1 I32 add, 2 F32 add, 3 BF16 add. -/
structure XItem where
  id : Nat
  round : Nat
  team : Nat
  window : Nat
  offset : Nat
  op : Nat
  data : Word
  deriving DecidableEq, Repr

/-- A window declaration or release not yet in the gang's table (R271). -/
structure WindowUpdate where
  id : Nat
  team : Nat
  window : Nat
  base : Nat
  size : Nat
  deriving DecidableEq, Repr

/-- A packet in flight (R362): waiting to leave behind an earlier one (R371); sent; accepted at its target, with units still to take
effect; or settled there with a result (0 for success, otherwise the failure's cause). -/
inductive FlightState where
  | held | sent | landing | settled (cause : Nat)
  deriving DecidableEq, Repr

/-- A packet that this package holds, its own or another's that has arrived, under a key (its own packets' numbers): its state; whether it
counts in its round's system counter (R296, R372); its 256-byte range, or 2^64 where it has none; when it was last sent; the ports that
may carry it (R364); the lane of a remote access; the units that remain, as pairs of byte index and physical address; and the bytes read. -/
structure Flight where
  key : Nat
  packet : Packet
  state : FlightState
  counted : Bool
  range : Nat
  lastSent : Nat
  ports : Nat
  lane : Nat
  todo : List (List (Nat × Nat))
  got : List (Nat × Byte)
  deriving DecidableEq, Repr

/-- A segment of a Courier plan (R348, R349): source rank or record, number within it, addresses and length. -/
structure Segment where
  src : Nat
  seg : Nat
  srcRank : Nat
  srcAddr : Word
  dstAddr : Word
  len : Nat
  deriving DecidableEq, Repr

/-- Where a Courier job or a collective stands (R352, R355); a job that is stopping still has segments in flight (R358). -/
inductive JobState where
  | waiting | running | complete | fault | stopping | stopped
  deriving DecidableEq, Repr

/-- A Courier job (R346 to R358); `id` places its start among the accesses of its round. `read` holds source bytes that it has read, and `wrote` the destination bytes that it has written, of segments
that are not complete, by 4096·segment + byte (R352). `failed` says that a fault is recorded, and `resume` says that the job goes on from its cursor record when its engine takes it (R358). -/
structure CourierJob where
  id : Nat
  round : Option Nat
  node : Option Nat
  num : Nat
  part : Nat
  die : Nat
  jobid : Nat
  table : Nat
  cursor : Word
  plan : List Segment
  done : List Nat
  read : SMap Byte
  wrote : List Nat
  committed : Nat
  bytes : Nat
  segs : Nat
  state : JobState
  cause : Nat
  faddr : Word
  failed : Bool
  resume : Bool
  reported : Bool
  deriving DecidableEq, Repr

/-- A collective (R378 to R383): the place of its start among the accesses of its round; its descriptor and its address, with the table entries of its ranks as they were at issue (R364); the source
bytes that it has read, and once every source has been read the result bytes that it has still to write, by physical address; for a
failure its cause, address, and the rank word and cause of another participant whose failure it was; and for a mismatch the dies of this
package that are listed and had not issued theirs. -/
structure Coll where
  id : Nat
  round : Nat
  num : Nat
  part : Nat
  die : Nat
  rank : Nat
  kind : Nat
  bfp4 : Bool
  collid : Nat
  etype : Nat
  table : Nat
  ranks : List Nat
  entries : List Word
  owed : List Nat
  src : Word
  dst : Word
  count : Nat
  root : Nat
  state : JobState
  desc : Word
  cause : Nat
  addr : Word
  remote : Word
  tcause : Nat
  read : SMap Byte
  out : Option (List (Nat × Byte))
  reported : Bool
  deriving DecidableEq, Repr

/-- A host write waiting on a partition's link (R299). -/
structure HostWrite where
  round : Nat
  part : Nat
  addr : Nat
  data : List Byte
  deriving DecidableEq, Repr

/-- A team context written by CTXSV (R327): the number of the save, the team, the node handle and tix at the save, and what its bytes
stand for: the team, its gang's barrier, its rounds with their positions, and their jobs. -/
structure SavedContext where
  id : Nat
  part : Nat
  team : Nat
  node : Nat
  tix : Nat
  size : Nat
  what : Team
  cluster : Gang
  rounds : List (Nat × Round)
  jobs : List CourierJob
  deriving DecidableEq, Repr

/-- An attestation block (R341): nonce, status 0, 1 or 2, and the report. -/
structure Attestation where
  nonce : List Byte
  latched : List Byte
  status : Nat
  report : List Byte
  deriving DecidableEq, Repr

/-- A host write to a function's BAR0 that waits for an HBM channel (R332, R338). -/
structure BarWrite where
  fn : Nat
  offset : Nat
  data : List Byte
  deriving DecidableEq, Repr

/-- The package's own state (R337 to R342, R361). `boot` counts the steps of R337 that are done before functions test themselves: 1 with
the firmware running, 2 with the hypervisor. `counts` holds the store packets that
have settled, by sender, rank word and epoch; `next` is the next epoch of another package whose flag may be written, by sending package, round and rank word,
and `closed` holds later epochs whose flags have failed (R375); `adopted` lists rank words whose rank has come here from another package. -/
structure Package where
  number : Nat
  domain : List Nat
  boot : Nat
  ready : SMap Word
  limit : Nat
  watts : Nat
  clk : Nat
  attest : SMap Attestation
  phase : Nat
  relay : List Packet
  counts : List EpochCount
  next : List (Nat × Nat × Word × Nat)
  closed : List (Nat × Nat × Word × Nat)
  adopted : List Word
  barq : List BarWrite
  deriving DecidableEq, Repr

/-- An error of an HBM sector that a read finds (R289): corrected by ECC, cured by a second read, or persisting. -/
inductive HbmError where
  | corrected | cured | lasting
  deriving DecidableEq, Repr

/-- One entry of the agenda, the model's own schedule: an event that happens next; a round that issues next, whose access takes effect
at once or is left pending; units of a pending access that take effect; source words that a batch member reads; words of a Courier segment, by
offset, that are read or written; words of a collective that are read, all of its results, or words of them that are written; a scoreboard
stall of a round; an HBM error of a sector; the next step of the package's bring-up; the host write that has waited longest. DESIGN CHOICE:
log entry 2. -/
inductive Turn where
  | event (e : Instr)
  | issue (round : Nat)
  | late (round : Nat)
  | perform (round id : Nat) (units : Option (List Nat))
  | read (round member kind : Nat) (addrs : List Word)
  | segment (job seg : Nat) (write : Bool) (offsets : List Nat)
  | collRead (coll : Nat) (offsets : List Nat)
  | collResult (coll : Nat) (outside : List CollIn)
  | collWrite (coll : Nat) (addrs : List Nat)
  | hold (round : Nat)
  | hbm (sector : Nat) (e : HbmError)
  | boot
  | hostWrite
  deriving DecidableEq, Repr

/-- The state of the machine. `agenda`, `cur`, `late`, `free` and the identifier counter `nextId` are the model's own; all other fields are the
spec's. DESIGN CHOICE: log entry 2. -/
structure State where
  rounds : List Round
  teams : List Team
  gangs : List Gang
  nodes : List Node
  dies : List Die
  cores : SMap Core
  parts : List Partition
  mem : Memory
  lasting : List Nat
  stores : List StoreEntry
  lines : List WcLine
  items : List XItem
  updates : List WindowUpdate
  flights : List Flight
  jobs : List CourierJob
  colls : List Coll
  services : List Service
  hostq : List HostWrite
  hostOut : List HostWrite
  contexts : List SavedContext
  package : Package
  now : Nat
  nextId : Nat
  free : Nat
  cur : Nat
  late : Bool
  agenda : List Turn
  deriving DecidableEq, Repr

/-- Why the machine stops. -/
inductive Fault where
  /-- An instruction was executed with no round that issues it: `State.cur` names none. step never raises it; safe. -/
  | noIssuingRound
  deriving DecidableEq, Repr

/-- Why an instruction has no meaning here. -/
inductive Refusal where
  /-- An instruction that has no meaning yet, by its mnemonic: raised by an arm of exec only; safe. -/
  | notModelled (mnemonic : String)
  deriving DecidableEq, Repr

/-- A core after reset (R223: SPARE 16, the other counters 0). -/
def Core.reset : Core :=
  { spare := 16, retired := 0, corr := 0, trans := 0, fencedSlot := false, tlb := [], lastIssuer := [11, 11, 11, 11] }

/-- A compute die after reset (R289, R318, R319). -/
def Die.reset : Die :=
  { part := none, sems := [], semq := [], postCtr := 0, slotSeq := [], serviceSeq := [], ctxpool := 0, ctxsize := 0
    lasting := 0, corr := 0, trans := 0, clock := 0, held := [], holds := [], applied := []
    poolSet := false }

/-- The package after reset (R337, R338, R342): no function ready, LIMIT 6,000, CLK 17, NOW 0. -/
def Package.reset : Package :=
  { number := Config.packageNumber.val, domain := Config.domain, boot := 0, ready := [], limit := 6000, watts := 0, clk := 17
    attest := [], phase := 0, relay := [], counts := [], next := [], closed := [], adopted := [], barq := [] }

/-- The machine right after reset (R337): no partition, no node, no team and no round, memory with nothing listed. DESIGN CHOICE: log entry 1. -/
def State.reset : State :=
  { rounds := [], teams := [], gangs := [], nodes := [], dies := List.replicate 6 Die.reset, cores := [], parts := []
    mem := [], lasting := [], stores := [], lines := [], items := [], updates := [], flights := [], jobs := []
    colls := [], services := [], hostq := [], hostOut := [], contexts := [], package := Package.reset, now := 0, nextId := 0
    free := 0, cur := 0, late := false, agenda := [] }

end Sys2Proof.Machine
end

