-- ==== Sys2Proof/Machine/Operands.lean ====
section
/-! DEFINITION. Finding the parts of the state, and reading and writing operands (R46 to R50, R83, R84, R87, R98, R100). -/
namespace Sys2Proof.Machine

/-- The outcome of a meaning. -/
abbrev Res := Host.Outcome State Fault Refusal

/-- Cores 0 to 383 are those of the compute dies, 64 a die; 384 to 407 are the control cores of the IO dies, 12 each
(R3, R331). -/
def controlBase : Nat := 384

/-- What stands for a team that does not exist: nothing in it can be reached. -/
def Team.blank : Team :=
  { node := none, tix := 0, gang := 0, member := 0, part := 0, status := .ended, core := 0, pair := false
    kernel := { addr := 0, entry := 0, width := 16, rounds := 0, spad := 0, acc := 0, zslots := 0, pair := false, gang := 1
                teams := 0, dreg := 255, pfirst := 0, pcount := 0, points := [], sdata := [] }
    spad := [], spadSize := 0, tagSets := 0, tags := [], recency := [], bars := [], layouts := [], slots := [], acc := 0
    zslots := 0, windows := [], flips := [], fenced := [], admitted := 0, pool := 0, poolAt := [] }

/-- What stands for a partition that does not exist. DESIGN CHOICE: log entry 1. -/
def Partition.blank : Partition :=
  { num := 16, dies := 0, diag := false, started := false, control := [], image := [], measured := [], frozen := [], grants := [], ptroot := 0, trapq := 0, head := 0, tail := 0
    queue := [], jobs := [], hostWin := [], inbox := 0, deadManifests := [], images := [] }

/-- The issuing round. -/
def State.issuing (s : State) : Option Round := s.rounds[s.cur]?

/-- Replaces the issuing round. -/
def State.setRound (s : State) (r : Round) : State := { s with rounds := s.rounds.set s.cur r }

/-- Replaces round n. -/
def State.setRoundAt (s : State) (n : Nat) (r : Round) : State := { s with rounds := s.rounds.set n r }

/-- The team of a round. -/
def State.teamOf (s : State) (r : Round) : Team := s.teams.getD r.team Team.blank

/-- Replaces team n. -/
def State.setTeam (s : State) (n : Nat) (t : Team) : State := { s with teams := s.teams.set n t }

/-- The partition of a number. -/
def State.part (s : State) (n : Nat) : Partition := (s.parts.find? (fun p => p.num == n)).getD Partition.blank

/-- The partition of a round. -/
def State.partOf (s : State) (r : Round) : Partition := s.part (s.teamOf r).part

/-- Replaces the partition of that number. -/
def State.setPart (s : State) (p : Partition) : State :=
  { s with parts := s.parts.map (fun q => if q.num == p.num then p else q) }

/-- The node of a round's team. -/
def State.nodeOf (s : State) (r : Round) : Option Node :=
  match (s.teamOf r).node with
  | some n => s.nodes[n]?
  | none => none

/-- The lowest die of a die set. DESIGN CHOICE: log entry 21. -/
def lowestDie (dies : BitVec 6) : Nat := ((List.range 6).find? (fun d => dies.getLsbD d)).getD 0

/-- The die on which a round runs. A control core stands on no compute die; an image round counts as one of its
partition's lowest die (DESIGN CHOICE, log entry 21). -/
def State.dieOf (s : State) (r : Round) : Nat :=
  if r.core < controlBase then r.core / 64 else lowestDie (s.partOf r).dies

/-- A die's state. -/
def State.die (s : State) (d : Nat) : Die := s.dies.getD d Die.reset

/-- Replaces die d. -/
def State.setDie (s : State) (d : Nat) (x : Die) : State := { s with dies := s.dies.set d x }

/-- Whether a function is ready (R338). -/
def State.isReady (s : State) (word bit : Nat) : Bool := (SMap.get s.package.ready 0 word).getLsbD bit

/-- The host link of a partition, 0 for A and 1 for B (R332, R336). -/
def linkOf (part : Nat) : Nat := if part < 8 then 0 else 1

/-- Whether a host link is trained (R338). DEDUCED: log entry 29. -/
def State.linkReady (s : State) (link : Nat) : Bool := s.isReady 16 (24 + link)

/-- Whether a fabric port carries traffic (R338): its own bit and that of its optical engine are set. DEDUCED: log entry 50. -/
def State.portReady (s : State) (p : Nat) : Bool := s.isReady (14 + p / 64) (p % 64) && s.isReady 13 (p / 8)

/-- The port whose fibres join this package and another (R361), the same at both ends. -/
def State.portTo (s : State) (pkg : Nat) : Nat := Nat.xor s.package.number pkg / 8

/-- Whether another package of the domain is joined to this one by a ready port (R361, R362). -/
def State.linked (s : State) (pkg : Nat) : Bool :=
  pkg != s.package.number && s.package.domain.contains pkg && s.portReady (s.portTo pkg)

/-- Whether a packet can leave for another package through the ports of a set, directly or by a relay (R363, R364). -/
def State.reaches (s : State) (ports pkg : Nat) : Bool :=
  s.package.domain.contains pkg && s.package.domain.any (fun q => s.linked q && ports.testBit (s.portTo q / 8))

/-- Whether an answer can come in from the domain, directly or by a relay (R392). -/
def State.hears (s : State) : Bool := s.package.domain.any s.linked

/-- A core's state. -/
def State.core (s : State) (c : Nat) : Core := SMap.get s.cores Core.reset c

/-- Replaces core c. -/
def State.setCore (s : State) (c : Nat) (x : Core) : State := { s with cores := SMap.set s.cores c x }

/-- A round of a quadrant becomes the quadrant's last issuer (R82). -/
def State.lastIssuer (s : State) (r : Round) : State :=
  let c := s.core r.core
  s.setCore r.core { c with lastIssuer := c.lastIssuer.set r.quadrant r.slot }

/-- Entry of a job table: package, die, port mask and valid bit as RTABW writes them (R327); key 6,144·job + rank. -/
def Partition.entry (p : Partition) (job rank : Nat) : Word := SMap.get p.jobs 0 (6144 * job + rank)

/-- Whether a job-table entry is valid and maps to a package's die (R327, R364). -/
def entryMaps (e : Word) (pkg die : Nat) : Bool := e.getLsbD 63 && bits e 9 0 == pkg && bits e 12 10 == die

/-- The lowest rank of a job's table that maps to a die (R366). -/
def Partition.rankOf (p : Partition) (job pkg die : Nat) : Option Nat :=
  (p.jobs.find? (fun x => x.1 / 6144 == job && entryMaps x.2 pkg die)).map (fun x => x.1 % 6144)

/-- The job of a launch on a die: the lowest job whose table maps to the die (R366). -/
def Partition.jobOf (p : Partition) (pkg die : Nat) : Option Nat :=
  (p.jobs.find? (fun x => entryMaps x.2 pkg die)).map (fun x => x.1 / 6144)

/-- The value of a special in a lane (R83). R83 gives none for an image round on a control core: coreid is then the core within its
IO die, clusid 0 and nteam 1 (DESIGN CHOICE, log entry 21). -/
def readSpecial (s : State) (r : Round) (x : Special) (lane : Nat) : Word :=
  match x with
  | .lane => BitVec.ofNat 64 lane
  | .rix => BitVec.ofNat 64 r.rix
  | .tix => BitVec.ofNat 64 (s.teamOf r).tix
  | .nteam => BitVec.ofNat 64 (((s.nodeOf r).map (fun n => n.record.teams)).getD 1)
  | .width => BitVec.ofNat 64 r.width
  | .coreid => BitVec.ofNat 64 (if r.core < controlBase then r.core % 64 else (r.core - controlBase) % 12)
  | .clusid => BitVec.ofNat 64 (if r.core < controlBase then r.core % 64 / 8 else 0)
  | .dieid => BitVec.ofNat 64 (s.dieOf r)
  | .rank =>
    match (s.partOf r).jobOf s.package.number (s.dieOf r) with
    | none => BitVec.allOnes 64
    | some j => BitVec.ofNat 64 (((s.partOf r).rankOf j s.package.number (s.dieOf r)).getD 0)
  | .clock => (s.die (s.dieOf r)).clock
  | .partid => BitVec.ofNat 64 (s.teamOf r).part

/-- What stands for a walker that does not exist: unbound. -/
def Walker.unbound : Walker :=
  { bound := false, base := 0, lstride := 0, esz := 0, ndim := 0, extent := [], stride := [], c := [], wrap := 0
    count := 0 }

/-- Walker k of a round. -/
def Round.walker (r : Round) (k : Nat) : Walker := r.walkers.getD k Walker.unbound

/-- The address that a walker yields for a lane (R100). -/
def Walker.address (w : Walker) (lane : Nat) : Word :=
  let steps := (w.c.zip w.stride).foldl (fun acc (p : Nat × Word) => acc + (p.1 : Int) * p.2.toInt) 0
  w.base + BitVec.ofInt 64 (2 ^ w.esz * ((lane : Int) * w.lstride.toInt + steps))

/-- The counters of a walker after one advance, and the dimensions that wrapped (R100). -/
def advanceCounters : List Nat → List Nat → Nat → List Nat × Nat
  | c :: cs, e :: es, bit =>
    if c + 1 < e then ((c + 1) :: cs, 0)
    else
      let (rest, wrap) := advanceCounters cs es (2 * bit)
      (0 :: rest, bit + wrap)
  | cs, _, _ => (cs, 0)

/-- One advance of a walker (R100). -/
def Walker.advance (w : Walker) : Walker :=
  let (c, wrap) := advanceCounters w.c w.extent 1
  { w with c := c, wrap := BitVec.ofNat 4 wrap, count := (w.count + 1) % 2 ^ 48 }

/-- A v register's lanes; a name that holds no row reads as zero (R84). -/
def Round.readV (r : Round) (n : Nat) : Lanes := (SMap.find r.v n).getD []

/-- The value of an operand in every lane (R47, R83, R84, R87, R100). -/
def readOperand (s : State) (r : Round) (c : Code) : Lanes :=
  match operand c with
  | .v n => tab (fun l => laneOf (r.readV n) l)
  | .s n => tab (fun _ => r.s.getD n 0)
  | .t n => tab (fun l => laneOf (r.t.getD n []) l)
  | .zero => tab (fun _ => 0)
  | .special x => tab (fun l => readSpecial s r x l)
  | .walker k => tab (fun l => (r.walker k).address l)
  | .reserved => tab (fun _ => 0)

/-- Advances the walker that an operand names, once (R100). -/
def advanceOperand (r : Round) (c : Code) : Round :=
  match operand c with
  | .walker k => { r with walkers := r.walkers.modify k Walker.advance }
  | _ => r

/-- The values of source fields in the order A, B, C; a walker named twice has advanced for the second field (R47). -/
def readOperands (s : State) : Round → List Code → List Lanes
  | _, [] => []
  | r, c :: cs => readOperand s r c :: readOperands s (advanceOperand r c) cs

/-- Whether a field names a v register without rows (R84). -/
def noRow (r : Round) (c : Code) : Bool :=
  match operand c with
  | .v n => (SMap.find r.v n).isNone
  | _ => false

/-- A walker that a field names while it is unbound, with the field (R100): its position among the instruction's sources, 0 for
the first. R106 does not number the field (DEDUCED, log entry 7). -/
def unboundAt (r : Round) : Nat → List Code → Option (Nat × Nat)
  | _, [] => none
  | i, c :: cs =>
    match operand c with
    | .walker k => if (r.walker k).bound then unboundAt r (i + 1) cs else some (k, i)
    | _ => unboundAt r (i + 1) cs

/-- Frees the name of a field whose last-read bit is set (R46, R84). -/
def freeOperand (r : Round) (x : Code × Bool) : Round :=
  match x.2, operand x.1 with
  | true, .v n => { r with v := SMap.erase r.v n }
  | _, _ => r

/-- The lanes of a vector with those of a mask replaced. -/
def mergeLanes (m : Mask) (new old : Lanes) : Lanes := tab (fun l => if m.getLsbD l then laneOf new l else laneOf old l)

/-- Writes a destination operand in the lanes of a mask: a v name allocates rows at its first write (R84), an s register
takes the lowest lane's value (R48), zero discards (R47). -/
def writeOperand (m : Mask) (c : Code) (x : Lanes) (r : Round) : Round :=
  match lowestLane m with
  | none => r
  | some l =>
    match operand c with
    | .v n => { r with v := SMap.set r.v n (mergeLanes m x (r.readV n)) }
    | .s n => { r with s := r.s.set n (laneOf x l) }
    | .t n => { r with t := r.t.set n (mergeLanes m x (r.t.getD n [])) }
    | _ => r

/-- Writes consecutive v names, lowest name first (R50, R55); a single word may go to any destination. -/
def writeRun (m : Mask) (c : Code) : List Lanes → Round → Round
  | [], r => r
  | x :: xs, r => writeRun m (c + 1) xs (writeOperand m c x r)

/-- The scoreboard's names of an operand of n consecutive registers (R81): v registers by number, then s from 2,048 and t from 4,096. -/
def regNames (c : Code) (n : Nat) : List Nat :=
  match operand c with
  | .v k => (List.range n).map (fun i => k + i)
  | .s k => [2048 + k]
  | .t k => [4096 + k]
  | _ => []

/-- Rows that a round holds (R84, `RROWS`). -/
def Round.rows (r : Round) : Nat := r.v.length * (r.width / 16)

/-- Whether a team is on its cores. -/
def TeamStatus.present : TeamStatus → Bool
  | .resident => true
  | .saving _ => true
  | .saved => false
  | .unloaded => false
  | .ended => false

/-- Whether a round is out of its core though its team is there: spilled, or restored and not yet resumed (R85, R105). -/
def Round.away (r : Round) : Bool :=
  match r.status with
  | .stopped .spilled => true
  | .stopped _ => r.stopReq.isNone
  | _ => false

/-- Whether a round holds its rows on its core (R85, R89). -/
def State.resident (s : State) (r : Round) : Bool := r.status != .ended && !r.away && (s.teamOf r).status.present

/-- Rows that the other resident rounds of a round's quadrant hold. -/
def State.rowsBeside (s : State) (n : Nat) (r : Round) : Nat :=
  (s.rounds.zipIdx.filter (fun q => q.2 != n && q.1.core == r.core && q.1.quadrant == r.quadrant && s.resident q.1)).foldl
    (fun acc q => acc + q.1.rows) 0

/-- Rows of a quadrant (R84). -/
def quadrantRows : Nat := 8192

/-- Whether the quadrant of round n holds so many rows of it (R85). -/
def State.roomFor (s : State) (n need : Nat) : Bool :=
  match s.rounds[n]? with
  | none => true
  | some old => need ≤ old.rows || s.rowsBeside n old + need ≤ quadrantRows

/-- Whether round n may become r: it takes no rows, or its quadrant holds them (R85). -/
def State.rowsFit (s : State) (n : Nat) (r : Round) : Bool :=
  match s.rounds[n]? with
  | none => true
  | some old => r.rows ≤ old.rows || s.rowsBeside n r + r.rows ≤ quadrantRows

/-- v names that a copy into registers, not yet landed, will write in round n (R164). -/
def Round.incoming (q : Round) (team n : Nat) (s : State) : List Nat :=
  if q.team != team then []
  else
    (q.openBatch :: q.sealed).flatMap (fun b => b.members.flatMap (fun m =>
      match m.work with
      | .regs _ _ _ reg count target =>
        if (s.rounds[n]?.map (fun r => r.rix)) == some target then (List.range count).map (fun i => reg + i) else []
      | _ => []))

/-- Names of round n that the scoreboard holds: those of loads, atomics, copies into registers and special functions that have not
landed (R81, R164, R258). -/
def State.pendingNames (s : State) (n : Nat) (r : Round) : List Nat :=
  r.tokens.map (fun t => t.dst) ++ r.pending.flatMap (fun a => regNames a.dst a.regs)
    ++ s.rounds.flatMap (fun q => q.incoming r.team n s)

end Sys2Proof.Machine
end

