-- ==== Sys2Proof/Machine/Flags.lean ====
section
/-! DEFINITION. Predicates, the guard and the sticky bits: the flags of a round (R45, R78, R104). -/
namespace Sys2Proof.Machine

/-- A predicate's lanes; p7 reads as true (R45, R117). -/
def Round.pred (r : Round) (n : Nat) : Mask := if n = 7 then BitVec.allOnes 64 else r.p.getD n 0

/-- A source predicate after its invert bit, from a field's [2:0] and [3] (R52). -/
def Round.predField (r : Round) (c : Code) : Mask :=
  if c.getLsbD 3 then ~~~(r.pred (c.toNat % 8)) else r.pred (c.toNat % 8)

/-- Lanes of the current mask that pass a guard (R45). -/
def Round.guarded (r : Round) (g : Guard) : Mask :=
  r.cur &&& (if g.inv then ~~~(r.pred g.p.toNat) else r.pred g.p.toNat)

/-- The lanes for which an instruction acts: those that pass its guard, or one place when it is uniform, since a uniform
instruction executes once whatever the masks (R45, R49, R80). -/
def Round.passing (r : Round) (g : Guard) : Mask := if g.uni then 1 else r.guarded g

/-- Writes a predicate in the lanes of a mask; a write to p7 is discarded (R107). -/
def Round.setPred (r : Round) (n : Nat) (m x : Mask) : Round :=
  if n < 7 then { r with p := r.p.set n ((r.pred n &&& ~~~m) ||| (x &&& m)) } else r

/-- `RSTAT` (R104). -/
def Round.rstat (r : Round) : Word :=
  BitVec.ofNat 64 ((if r.unwr then 1 else 0) + (if r.wdog then 2 else 0) + (if r.spilled then 4 else 0)
    + (if r.preempted then 8 else 0))

/-- `RSTAT` after the RDSR that returned it (R104). -/
def Round.clearRstat (r : Round) : Round :=
  { r with unwr := false, wdog := false, spilled := false, preempted := false }

end Sys2Proof.Machine
end

