-- ==== Sys2Proof/Machine/Ops.lean ====
section
/-! DEFINITION. The common course of an instruction: stalls, retirement, taking a trap and returning from one
(R45, R46, R64, R81, R84, R85, R100, R106, R321 to R325). -/
namespace Sys2Proof.Machine

/-- Runs a meaning on the issuing round. -/
def onRound (s : State) (k : Round → Res) : Res :=
  match s.issuing with
  | none => .fault .noIssuingRound
  | some r => k r

/-- The header address of the instruction that issues (R39). -/
def Round.h (r : Round) : Word :=
  match r.clause with
  | none => r.pc
  | some c => c.h

/-- The index of the instruction that issues in its clause. -/
def Round.ix (r : Round) : Nat :=
  match r.clause with
  | none => 0
  | some c => c.idx

/-- The fall-through address h + CNT + 2 (R39, R90). -/
def Round.fallThrough (r : Round) : Word :=
  match r.clause with
  | none => r.pc + 1
  | some c => c.h + BitVec.ofNat 64 (c.cnt + 2)

/-- Eight clause temporaries that hold no value (R87). -/
def noTemps : List Lanes := List.replicate 8 []

/-- An access that has a clause temporary as its destination delivers nothing once the clause has ended (R87). -/
def Access.dropTemp (a : Access) : Access :=
  match operand a.dst with
  | .t _ => { a with regs := 0 }
  | _ => a

/-- Ends the clause with the program counter at the given word: temporaries lose their values (R87), GAP begins (R40, R82),
and a SLEEP of the clause begins (R96). -/
def endClause (now : Nat) (pc : Word) (r : Round) : Round :=
  { r with
    clause := none
    pc := pc
    t := noTemps
    pending := r.pending.map Access.dropTemp
    gapUntil := now + (match r.clause with | none => 0 | some c => c.gap + 1)
    status := if r.sleep = 0 then .ready else .waiting .sleep }

/-- Moves past the instruction that completed: to the next of the clause, or by fall-through out of it (R43, R81). -/
def retire (now : Nat) (r : Round) : Round :=
  match r.clause with
  | none => endClause now r.fallThrough r
  | some c =>
    if c.cnt ≤ c.idx then endClause now r.fallThrough r
    else { r with clause := some { c with idx := c.idx + 1 }, pc := c.h + BitVec.ofNat 64 (c.idx + 2), status := .ready }

/-- The instruction waits: it has no effect now and issues again later (R81). -/
def stall (s : State) (r : Round) (k : WaitKind) : Res := .next (s.setRound { r with status := .waiting k })

/-- The issuing round stands as r. Where its clause has ended and YIELD was executed in it, it gives way, as its quadrant's last
issuer (R82, R96). -/
def State.stand (s : State) (r : Round) : State :=
  if r.yields && r.clause.isNone then (s.lastIssuer r).setRound { r with yields := false, giveway := true } else s.setRound r

/-- The state after an instruction, unless the round's quadrant lacks the rows it allocates: then it stalls (R85). -/
def commit (s0 : State) (r0 : Round) (s : State) (r : Round) : Res :=
  if s0.rowsFit s0.cur r then .next (s.stand (retire s.now r)) else stall s0 r0 (.rows s0.cur r.rows)

/-- A trap-queue entry as eight words (R322). -/
def queueEntry (kind cause index flags : Nat) (round node : BitVec 32) (tix : Nat) (h info0 info1 mask info2 time : Word) :
    List Word :=
  [BitVec.ofNat 64 (kind + 2 ^ 8 * cause + 2 ^ 16 * index + 2 ^ 24 * flags) ||| (round.setWidth 64 <<< 32),
   node.setWidth 64 ||| (BitVec.ofNat 64 tix <<< 32), h, info0, info1, mask, info2, time]

/-- The handle of a node: slot, die and sequence (R306). -/
def State.nodeHandle (s : State) (n : Option Nat) : BitVec 32 :=
  match n with
  | none => 0
  | some n => BitVec.ofNat 32 ((s.nodes[n]?.map (fun x => x.handle)).getD 0)

/-- Adds a request, an entry and its continuations, to a partition's trap queue (R322, R323). -/
def State.enqueue (s : State) (part : Nat) (entries : List (List Word)) : State :=
  let p := s.part part
  s.setPart { p with queue := p.queue ++ [entries] }

/-- The entry of a round's trap or service request (R322). -/
def roundEntry (s : State) (r : Round) (kind cause index : Nat) (h info0 info1 mask info2 : Word) : List Word :=
  queueEntry kind cause index 1 r.handle (s.nodeHandle (s.teamOf r).node) (s.teamOf r).tix h info0 info1 mask info2
    (s.die (s.dieOf r)).clock

/-- An event entry about a round (R322); events do not park. -/
def eventEntry (s : State) (r : Round) (cause : Nat) (info0 info1 info2 : Word) : List Word :=
  queueEntry 2 cause 0 0 r.handle (s.nodeHandle (s.teamOf r).node) (s.teamOf r).tix 0 info0 info1 0 info2
    (s.die (s.dieOf r)).clock

/-- TAKING A TRAP: the round parks with its record, and the partition's queue receives an entry (R106, R321, R322). A trap of
an image round is reported to the hypervisor, which is outside the machine (R304). DEDUCED: log entry 26. -/
def parkTrap (s : State) (r : Round) (t : TrapRec) (canStep : Bool) (resume : Nat) : State :=
  let s1 := s.setRound { r with
    replies := [], remote := [], wave := 0
    status := .parked { service := false, trap := t, die := s.dieOf r, pages := [], asked := [], canStep := canStep, resume := resume } }
  if r.priv then s1
  else s1.enqueue (s.teamOf r).part [roundEntry s r 0 t.cause t.index t.h t.info0 t.info1 t.mask t.info2]

/-- A trap raised by the instruction that issues; it resumes at that instruction (R106). DEDUCED: log entry 7. -/
def takeTrap (s : State) (r : Round) (cause : Nat) (info0 info1 info2 : Word) (mask : Mask) : Res :=
  .next (parkTrap s r { cause := cause, index := r.ix, h := r.h, info0 := info0, info1 := info1, info2 := info2, mask := mask }
    true r.ix)

/-- Continuation entries of a service request, seven pages each (R322). -/
def continuations : Nat → List Word → List (List Word)
  | 0, _ => []
  | _, [] => []
  | n + 1, pages => ([3] ++ (pages.take 7) ++ List.replicate (7 - pages.length) 0) :: continuations n (pages.drop 7)

/-- Pages for which a round already waits that met them on the same die in the same partition (R288: they are serviced once). -/
def State.requestedPages (s : State) (r : Round) : List Word :=
  s.rounds.flatMap (fun q =>
    match q.status with
    | .parked p => if p.service && p.die == s.dieOf r && (s.teamOf q).part == (s.teamOf r).part then p.pages else []
    | _ => [])

/-- A SERVICE REQUEST: the round, whose passing lanes are m, parks until the image has serviced the listed pages, lowest first and at
most 64 (R288, R322). `mask`, `addr` and `level` are what a failed service reports. -/
def parkService (s : State) (r : Round) (pages : List Word) (m mask : Mask) (addr : Word) (level : Nat) : State :=
  let t : TrapRec := { cause := 0x60, index := r.ix, h := r.h, info0 := addr, info1 := BitVec.ofNat 64 level, info2 := 0, mask := mask }
  let ps := pages.take 64
  let asks := ps.filter (fun p => !(s.requestedPages r).contains p)
  let s1 := s.setRound { r with
    status := .parked { service := true, trap := t, die := s.dieOf r, pages := ps, asked := asks, canStep := false, resume := r.ix } }
  match asks with
  | [] => s1
  | q :: qs =>
    s1.enqueue (s.teamOf r).part
      (roundEntry s r 1 0x60 r.ix r.h (BitVec.ofNat 64 (qs.length + 1)) q m 0 :: continuations 10 qs)

/-- RETURNING FROM A TRAP: the round issues again at instruction `i` of its clause, for which it waits as one whose stall is over (R81), or
falls through when `i` lies beyond its last instruction (R102, R325). A round that parked between clauses fetches again. -/
def returnTo (now : Nat) (i : Nat) (r : Round) : Round :=
  match r.clause with
  | none => { r with status := .ready, fetched := none }
  | some c =>
    if c.cnt < i then endClause now r.fallThrough r
    else { r with clause := some { c with idx := i }, pc := c.h + BitVec.ofNat 64 (i + 1), status := .waiting .scoreboard }

/-- A source field: its code and its last-read bit. -/
abbrev Field := Code × Bool

/-- Notes that a v source without rows is read (R84); an instruction that no lane passes reads none. -/
def noteUnwritten (acts : Bool) (fs : List Field) (r : Round) : Round :=
  { r with unwr := r.unwr || (acts && fs.any (fun f => noRow r f.1)) }

/-- What completion does to the sources: walkers advance once for each field, last-read names are freed (R46, R100). -/
def settle (fs : List Field) (r : Round) : Round :=
  fs.foldl freeOperand (fs.foldl (fun r f => advanceOperand r f.1) r)

/-- The common start of an instruction: the scoreboard holds it while a name that it reads or otherwise touches is pending (R81), an
unbound walker traps (R100), and the sources are read. The continuation receives the state, in which UNWR is noted, the round, the lanes
that act and the source values. An instruction that raises WALKER_UNBOUND has read no source, and notes none (log entry 66). -/
def begin (s : State) (g : Guard) (fs : List Field) (touched : List Nat)
    (k : State → Round → Mask → List Lanes → Res) : Res :=
  onRound s (fun r =>
    if ((fs.flatMap (fun f => regNames f.1 1)) ++ touched).any (fun n => (s.pendingNames s.cur r).contains n) then stall s r .scoreboard
    else
      match unboundAt r 0 (fs.map (fun f => f.1)) with
      | some (w, field) => takeTrap s r 0x11 (BitVec.ofNat 64 w) (BitVec.ofNat 64 field) 0 (r.passing g)
      | none =>
        let r1 := noteUnwritten (r.passing g != 0) fs r
        k (s.setRound r1) r1 (r.passing g) (readOperands s r (fs.map (fun f => f.1))))

/-- The common end of an instruction whose effect on the rest of the state is `s`: its sources settle, it writes, it
retires (R46, R100, R107). It stalls in `s0`, the state before its effect, when rows are lacking (R85). -/
def finish (s0 s : State) (fs : List Field) (write : Round → Round) : Res :=
  onRound s0 (fun r0 => onRound s (fun r => commit s0 r0 s (write (settle fs r))))

/-- An instruction that touches only registers of its round (R107). -/
def registerOnly (s : State) (g : Guard) (fs : List Field) (touched : List Nat)
    (write : Mask → List Lanes → Round → Round) : Res :=
  begin s g fs touched (fun s _ m xs =>
    finish s s fs (fun r => if m = 0 then r else write m xs r))

/-- A register instruction with one destination (R107). -/
def compute (s : State) (g : Guard) (fs : List Field) (d : Code) (f : Mask → List Lanes → Lanes) : Res :=
  registerOnly s g fs (regNames d 1) (fun m xs r => writeOperand m d (f m xs) r)

/-- The first three source values. -/
def arg (xs : List Lanes) (i : Nat) : Lanes := xs.getD i []

/-- A lane-wise instruction of one, two or three sources. -/
def lanewise1 (f : Word → Word) (_ : Mask) (xs : List Lanes) : Lanes := tab (fun l => f (laneOf (arg xs 0) l))
def lanewise2 (f : Word → Word → Word) (_ : Mask) (xs : List Lanes) : Lanes :=
  tab (fun l => f (laneOf (arg xs 0) l) (laneOf (arg xs 1) l))
def lanewise3 (f : Word → Word → Word → Word) (_ : Mask) (xs : List Lanes) : Lanes :=
  tab (fun l => f (laneOf (arg xs 0) l) (laneOf (arg xs 1) l) (laneOf (arg xs 2) l))

/-- The source fields of R and I formats (R53). -/
def rA (f : RForm) : Field := (f.a, f.lra)
def rB (f : RForm) : Field := (f.b, f.lrb)
def rC (f : RForm) : Field := (f.c, f.lrc)
def iA (f : IForm) : Field := (f.a, f.lra)

end Sys2Proof.Machine
end

