-- ==== Sys2Proof/Machine/Floating.lean ====
section
/-! DEFINITION. The floating-point, conversion and block instructions (R120 to R136), opcodes 0x040 to 0x087. -/
namespace Sys2Proof.Machine

/-- The format of a floating-point group (R61, R120). -/
def fmtOf : FTy → Fmt
  | .f32 => .fp32 | .f64 => .fp64 | .f16 => .fp16 | .bf16 => .bf16

/-- Rounding and saturation of an FR completer (R60). -/
def frMode (cmp : BitVec 3) : Mode := Mode.ofCode (cmp.toNat % 4)
def frSat (cmp : BitVec 3) : Bool := cmp.getLsbD 2

/-- Floating-point instructions of one, two and three packed sources (R120). -/
def fp1 (ty : FTy) (f : RForm) (op : Fmt → Nat → Nat) (s : State) : Res :=
  compute s f.g [rA f] f.d (lanewise1 (mapElems1 (fmtOf ty).width (op (fmtOf ty))))
def fp2 (ty : FTy) (f : RForm) (op : Fmt → Mode → Bool → Nat → Nat → Nat) (s : State) : Res :=
  compute s f.g [rA f, rB f] f.d
    (lanewise2 (mapElems2 (fmtOf ty).width (op (fmtOf ty) (frMode f.cmp) (frSat f.cmp))))
def fp3 (ty : FTy) (f : RForm) (op : Fmt → Mode → Bool → Nat → Nat → Nat → Nat) (s : State) : Res :=
  compute s f.g [rA f, rB f, rC f] f.d
    (lanewise3 (mapElems3 (fmtOf ty).width (op (fmtOf ty) (frMode f.cmp) (frSat f.cmp))))

def execFadd (ty : FTy) (f : RForm) (s : State) : Res := fp2 ty f fpAdd s
def execFsub (ty : FTy) (f : RForm) (s : State) : Res := fp2 ty f fpSub s
def execFmul (ty : FTy) (f : RForm) (s : State) : Res := fp2 ty f fpMul s
def execFfma (ty : FTy) (f : RForm) (s : State) : Res := fp3 ty f fpFma s
def execFmin (ty : FTy) (f : RForm) (s : State) : Res := fp2 ty f (fun t _ _ => fpMin t) s
def execFmax (ty : FTy) (f : RForm) (s : State) : Res := fp2 ty f (fun t _ _ => fpMax t) s

/-- The floating-point conditions of R56. -/
def fpCond (t : Fmt) (cond a b : Nat) : Bool :=
  let un := (t.value a).isNan || (t.value b).isNan
  match cond with
  | 0 => !un && valueKey t a == valueKey t b
  | 1 => un || valueKey t a != valueKey t b
  | 2 => !un && decide (valueKey t a < valueKey t b)
  | 3 => !un && decide (valueKey t a ≤ valueKey t b)
  | 4 => !un && decide (valueKey t b < valueKey t a)
  | 5 => !un && decide (valueKey t b ≤ valueKey t a)
  | 6 => !un
  | _ => un

/-- FCMP: the condition holds for every element pair (R123). R123's example would have `.nan` hold where either element is a
NaN; the model follows the rule's sentence for every condition (DEDUCED, log entry 73). -/
def execFcmp (ty : FTy) (f : RForm) (s : State) : Res :=
  registerOnly s f.g [rA f, rB f] [] (fun m xs r =>
    r.setPred (f.d.toNat % 8) m (maskOf (fun l =>
      allElems (fmtOf ty).width (fpCond (fmtOf ty) (f.d.toNat / 8 % 8)) (laneOf (arg xs 0) l) (laneOf (arg xs 1) l))))

def execFrnd (ty : FTy) (f : RForm) (s : State) : Res := fp1 ty f (fun t => fpRnd t (Mode.ofCode (f.cmp.toNat % 4))) s
/-- FNEG and FABS change the sign bit only (R122). -/
def execFneg (ty : FTy) (f : RForm) (s : State) : Res :=
  fp1 ty f (fun t a => if a < t.signBit then a + t.signBit else a - t.signBit) s
def execFabs (ty : FTy) (f : RForm) (s : State) : Res := fp1 ty f (fun t a => a % t.signBit) s

/-- FDOT (R125): two FP32 results from four 16-bit pairs and two FP32 addends. -/
def execFdot (ty : FTy) (f : RForm) (s : State) : Res :=
  compute s f.g [rA f, rB f, rC f] f.d (lanewise3 (fun a b c =>
    packElems 32 ((List.range 2).map (fun j =>
      fpDot (fmtOf ty) (frMode f.cmp) (frSat f.cmp) (elem 32 c j) (elem 16 a (2 * j)) (elem 16 b (2 * j))
        (elem 16 a (2 * j + 1)) (elem 16 b (2 * j + 1))))))

def execFclass (ty : FTy) (f : RForm) (s : State) : Res := fp1 ty f fpClass s

/-- The scalar formats of codes 0 to 5 (R57). -/
def fmtCode : Nat → Fmt
  | 0 => .fp64 | 1 => .fp32 | 2 => .fp16 | 3 => .bf16 | 4 => .e4m3 | _ => .e5m2

/-- Pairs source and destination elements by index and clears the rest (R127). -/
def convElems (sb db : Nat) (op : Nat → Nat) (x : Word) : Word :=
  packElems db ((List.range (64 / max sb db)).map (fun j => op (elem sb x j)))

/-- FCVT (R128). -/
def execFcvt (f : IForm) (s : State) : Res :=
  let src := fmtCode (f.imm.toNat % 32)
  let dst := fmtCode (f.imm.toNat / 256 % 32)
  compute s f.g [iA f] f.d (lanewise1 (convElems src.width dst.width (fpCvt src dst (frMode f.cmp) (frSat f.cmp))))

/-- Bits and signedness of an integer type code (R57). -/
def itypeBits (c : Nat) : Nat := 8 * 2 ^ (c % 4)
def itypeUnsigned (c : Nat) : Bool := 4 ≤ c % 8

/-- A floating-point pattern to an integer, rounded and clamped; a NaN gives 0 (R129). -/
def fpToInt (t : Fmt) (m : Mode) (w : Nat) (u : Bool) (x : Nat) : Nat :=
  let lo : Int := if u then 0 else -(2 ^ (w - 1) : Nat)
  let hi : Int := if u then (2 ^ w : Nat) - 1 else (2 ^ (w - 1) : Nat) - 1
  match t.value x with
  | .nan => 0
  | .inf neg => wrapI w (if neg then lo else hi)
  | .fin neg mant e =>
    let n : Int := roundInt m neg mant e
    wrapI w (max lo (min hi (if neg then -n else n)))

/-- F2I (R129). -/
def execF2i (f : IForm) (s : State) : Res :=
  let t := fmtCode (f.imm.toNat % 32)
  let w := itypeBits (f.imm.toNat / 256 % 16)
  compute s f.g [iA f] f.d
    (lanewise1 (convElems t.width w (fpToInt t (frMode f.cmp) w (itypeUnsigned (f.imm.toNat / 256 % 16)))))

/-- An integer pattern to a floating-point one, rounded once; zero gives +0 (R130). -/
def intToFp (t : Fmt) (m : Mode) (sat : Bool) (w : Nat) (u : Bool) (x : Nat) : Nat :=
  t.round m sat ((Dy.ofInt (if u then (x : Int) else sextN x w)).toX false)

/-- I2F (R130). -/
def execI2f (f : IForm) (s : State) : Res :=
  let t := fmtCode (f.imm.toNat % 32)
  let w := itypeBits (f.imm.toNat / 256 % 16)
  compute s f.g [iA f] f.d
    (lanewise1 (convElems w t.width (intToFp t (frMode f.cmp) (frSat f.cmp) w (itypeUnsigned (f.imm.toNat / 256 % 16)))))

/-- The packed lanes of every block of a round (R131, R133). -/
def packBlocks (g : Grid) (search : Bool) (inputs : Nat → List Nat) : Lanes :=
  (List.range 4).flatMap (fun j =>
    let (e, xs) := quantize g search (inputs j)
    packedLanes g.k e (xs.map g.code))

/-- QNT (R133). Lanes that do not pass contribute zeros. -/
def execQnt (f : RForm) (s : State) : Res :=
  compute s f.g [rA f] f.d (fun m xs =>
    packBlocks (Grid.ofCode (f.c.toNat % 32)) (f.cmp.getLsbD 0) (fun j => blockInputs (arg xs 0) j (fun l => m.getLsbD l)))

/-- The decoded lanes of a block (R134). -/
def dequantLane (c : Nat) (dst : Fmt) (m : Mode) (sat : Bool) (x : Lanes) (l : Nat) : Word :=
  let j := l / 16
  let e := (laneOf x (16 * j + 15)).toNat % 256
  let st := blockStream x j
  packElems dst.width ((List.range 2).map (fun i =>
    dst.round m sat (blockValue c e (streamBits (blockWidth c) (2 * (l % 16) + i) st)).toX))

/-- DQNT (R134). -/
def execDqnt (f : RForm) (s : State) : Res :=
  compute s f.g [rA f] f.d (fun _ xs =>
    tab (dequantLane (f.c.toNat % 32) (fmtCode (f.c.toNat / 32 % 32)) (frMode f.cmp) (frSat f.cmp) (arg xs 0)))

/-- u = gradient + residual of GCOMP (R135), as FP32 patterns of a block. -/
def gcompSums (m : Mask) (a b : Lanes) (j : Nat) : List Nat :=
  ((blockInputs a j (fun _ => true)).zip (blockInputs b j (fun _ => true))).zipIdx.map (fun p =>
    if m.getLsbD (16 * j + p.2 / 2) then fpAdd .fp32 .rne false p.1.1 p.1.2 else 0)

/-- The new residual of a lane (R135). -/
def gcompResidual (g : Grid) (search : Bool) (m : Mask) (a b : Lanes) (l : Nat) : Word :=
  let u := gcompSums m a b (l / 16)
  let (e, xs) := quantize g search u
  packElems 32 ((List.range 2).map (fun i =>
    if e = 255 then 0
    else rneDy .fp32 ((Fmt.fp32.value (u.getD (2 * (l % 16) + i) 0)).dy.sub (g.decoded e (xs.getD (2 * (l % 16) + i) 0)))))

/-- GCOMP (R135): writes the packed form to D and the residual to B; where both name one register the residual is
written last. -/
def execGcomp (f : RForm) (s : State) : Res :=
  registerOnly s f.g [rA f, rB f] (regNames f.d 1) (fun m xs r =>
    let g := Grid.ofCode (f.c.toNat % 32)
    writeOperand m f.b (tab (gcompResidual g (f.cmp.getLsbD 0) m (arg xs 0) (arg xs 1)))
      (writeOperand m f.d (packBlocks g (f.cmp.getLsbD 0) (gcompSums m (arg xs 0) (arg xs 1))) r))

/-- CVTW and WREB (R136). -/
def execCvtw (f : RForm) (s : State) : Res :=
  compute s f.g [rA f] f.d (lanewise1 (fun a => BitVec.ofNat 64 (cvtw (elem 32 a 0) + 2 ^ 24 * cvtw (elem 32 a 1))))
def execWreb (f : RForm) (s : State) : Res :=
  compute s f.g [rA f] f.d (lanewise1 (fun a => packElems 32 [wreb (bits a 23 0), wreb (bits a 47 24)]))

end Sys2Proof.Machine
end

