-- ==== Sys2Proof/Machine/Integer.lean ====
section
/-! DEFINITION. The integer instructions (R108 to R119), opcodes 0x000 to 0x02A. -/
namespace Sys2Proof.Machine

/-- The .sat or .u bit of an IW completer (R60, R109). -/
def bit0 (cmp : BitVec 3) : Bool := cmp.getLsbD 0

/-- Two-source element operations of e bits (R110): the completer's bit [0] selects the second meaning. -/
def addE (e : Nat) (sat : Bool) (a b : Nat) : Nat := if sat then ssat e (sextN a e + sextN b e) else wrapI e (a + b : Nat)
def subE (e : Nat) (sat : Bool) (a b : Nat) : Nat := if sat then ssat e (sextN a e - sextN b e) else wrapI e ((a : Int) - b)
def mulE (e : Nat) (sat : Bool) (a b : Nat) : Nat := if sat then ssat e (sextN a e * sextN b e) else wrapI e (a * b : Nat)
def mulhE (e : Nat) (u : Bool) (a b : Nat) : Nat := if u then a * b / 2 ^ e % 2 ^ e else wrapI e (sextN a e * sextN b e / 2 ^ e)
def madE (e : Nat) (sat : Bool) (a b c : Nat) : Nat :=
  if sat then ssat e (sextN a e * sextN b e + sextN c e) else wrapI e (a * b + c : Nat)
def minE (e : Nat) (u : Bool) (a b : Nat) : Nat :=
  if u then min a b else if sextN b e < sextN a e then b else a
def maxE (e : Nat) (u : Bool) (a b : Nat) : Nat :=
  if u then max a b else if sextN a e < sextN b e then b else a
def absE (e : Nat) (sat : Bool) (a : Nat) : Nat :=
  if sat then ssat e (sextN a e).natAbs else wrapI e (sextN a e).natAbs

/-- Shifts; the count is the whole element (R111). -/
def shlE (e : Nat) (sat : Bool) (a n : Nat) : Nat :=
  if sat then
    if n < e then ssat e (sextN a e * 2 ^ n)
    else if sextN a e = 0 then 0 else if sextN a e < 0 then 2 ^ (e - 1) else 2 ^ (e - 1) - 1
  else if n < e then wrapI e (a * 2 ^ n : Nat) else 0
def shrE (e : Nat) (a n : Nat) : Nat := if n < e then a / 2 ^ n else 0
def sarE (e : Nat) (a n : Nat) : Nat :=
  if n < e then wrapI e (sextN a e / 2 ^ n) else if sextN a e < 0 then 2 ^ e - 1 else 0
def rolE (e : Nat) (a n : Nat) : Nat := a * 2 ^ (n % e) % 2 ^ e + a / 2 ^ (e - n % e)

/-- Bit counts and reversal (R110). -/
def popcE (e : Nat) (a : Nat) : Nat := popcountN e a
def clzE (e : Nat) (a : Nat) : Nat := if a = 0 then e else e - 1 - Nat.log2 a
def ctzE (e : Nat) (a : Nat) : Nat := ((List.range e).find? (fun i => a.testBit i)).getD e
def brevE (e : Nat) (a : Nat) : Nat := (List.range e).foldl (fun acc i => if a.testBit i then acc + 2 ^ (e - 1 - i) else acc) 0

/-- Position and effective length of a bit field from its control element (R112). -/
def fieldPos (e t : Nat) : Nat := if e = 8 then bitsN t 3 0 else bitsN t 7 0
def fieldLen (e t : Nat) : Nat :=
  let len := if e = 8 then bitsN t 7 4 else bitsN t 15 8
  if e ≤ fieldPos e t then 0 else min len (e - fieldPos e t)
def bfxE (e : Nat) (u : Bool) (a t : Nat) : Nat :=
  let l := fieldLen e t
  if l = 0 then 0
  else
    let f := a / 2 ^ fieldPos e t % 2 ^ l
    if u then f else wrapI e (sextN f l)
def bfiE (e : Nat) (a b t : Nat) : Nat :=
  let l := fieldLen e t
  let p := fieldPos e t
  if l = 0 then b else b % 2 ^ p + a % 2 ^ l * 2 ^ p + b / 2 ^ (p + l) * 2 ^ (p + l)

/-- BYSEL: each result byte is steered by a selector byte (R113). -/
def bysel (a b c : Word) : Word :=
  packElems 8 ((List.range 8).map (fun i =>
    let s := elem 8 c i
    let x := if s % 16 < 8 then elem 8 a (s % 16) else elem 8 b (s % 16 - 8)
    if s / 128 = 1 then 0 else if s / 16 % 2 = 1 then (if x / 128 = 1 then 255 else 0) else x))

/-- The integer conditions of R56. -/
def intCond (cond e : Nat) (u : Bool) (a b : Nat) : Bool :=
  let lt := if u then decide (a < b) else decide (sextN a e < sextN b e)
  match cond with
  | 0 => a == b
  | 1 => a != b
  | 2 => lt
  | 3 => lt || a == b
  | 4 => !(lt || a == b)
  | _ => !lt

/-- The IMM24 of the integer immediates in every e-bit element (R62). -/
def immElem (e : Nat) (imm : BitVec 24) : Nat := wrapI e (sextN imm.toNat 24)
def immWord (e : Nat) (imm : BitVec 24) : Word := packElems e (List.replicate (64 / e) (immElem e imm))

/-- Integer R-format instructions of one, two and three sources (R110). -/
def int1 (f : RForm) (op : Nat → Bool → Nat → Nat) (s : State) : Res :=
  compute s f.g [rA f] f.d (lanewise1 (mapElems1 (iwBits f.cmp) (op (iwBits f.cmp) (bit0 f.cmp))))
def int2 (f : RForm) (op : Nat → Bool → Nat → Nat → Nat) (s : State) : Res :=
  compute s f.g [rA f, rB f] f.d (lanewise2 (mapElems2 (iwBits f.cmp) (op (iwBits f.cmp) (bit0 f.cmp))))
def int3 (f : RForm) (op : Nat → Bool → Nat → Nat → Nat → Nat) (s : State) : Res :=
  compute s f.g [rA f, rB f, rC f] f.d (lanewise3 (mapElems3 (iwBits f.cmp) (op (iwBits f.cmp) (bit0 f.cmp))))
/-- Integer I-format instructions: the immediate stands in place of B (R119). -/
def intImm (f : IForm) (op : Nat → Bool → Nat → Nat → Nat) (b : Nat) (s : State) : Res :=
  compute s f.g [iA f] f.d (lanewise1 (mapElems1 (iwBits f.cmp) (fun a => op (iwBits f.cmp) (bit0 f.cmp) a b)))

def execIadd (f : RForm) (s : State) : Res := int2 f addE s
def execIsub (f : RForm) (s : State) : Res := int2 f subE s
def execImul (f : RForm) (s : State) : Res := int2 f mulE s
def execImulh (f : RForm) (s : State) : Res := int2 f mulhE s
def execImad (f : RForm) (s : State) : Res := int3 f madE s
def execImin (f : RForm) (s : State) : Res := int2 f minE s
def execImax (f : RForm) (s : State) : Res := int2 f maxE s
def execIabs (f : RForm) (s : State) : Res := int1 f absE s

/-- The bitwise instructions act on all 64 bits whatever the width (R110). -/
def execAnd (f : RForm) (s : State) : Res := compute s f.g [rA f, rB f] f.d (lanewise2 (fun a b => a &&& b))
def execOr (f : RForm) (s : State) : Res := compute s f.g [rA f, rB f] f.d (lanewise2 (fun a b => a ||| b))
def execXor (f : RForm) (s : State) : Res := compute s f.g [rA f, rB f] f.d (lanewise2 (fun a b => a ^^^ b))
def execAndn (f : RForm) (s : State) : Res := compute s f.g [rA f, rB f] f.d (lanewise2 (fun a b => a &&& ~~~b))
def execNot (f : RForm) (s : State) : Res := compute s f.g [rA f] f.d (lanewise1 (fun a => ~~~a))

def execShl (f : RForm) (s : State) : Res := int2 f shlE s
def execShr (f : RForm) (s : State) : Res := int2 f (fun e _ => shrE e) s
def execSar (f : RForm) (s : State) : Res := int2 f (fun e _ => sarE e) s
def execRol (f : RForm) (s : State) : Res := int2 f (fun e _ => rolE e) s
def execPopc (f : RForm) (s : State) : Res := int1 f (fun e _ => popcE e) s
def execClz (f : RForm) (s : State) : Res := int1 f (fun e _ => clzE e) s
def execCtz (f : RForm) (s : State) : Res := int1 f (fun e _ => ctzE e) s
def execBrev (f : RForm) (s : State) : Res := int1 f (fun e _ => brevE e) s
def execBfx (f : RForm) (s : State) : Res := int2 f bfxE s
def execBfi (f : RForm) (s : State) : Res := int3 f (fun e _ => bfiE e) s
def execLea (f : RForm) (s : State) : Res := int3 f (fun e _ a b c => addE e false a (shlE e false b c)) s
def execMov (f : RForm) (s : State) : Res := compute s f.g [rA f] f.d (lanewise1 (fun a => a))

/-- SEL (R115). -/
def execSel (f : RForm) (s : State) : Res :=
  registerOnly s f.g [rA f, rB f] (regNames f.d 1) (fun m xs r =>
    writeOperand m f.d (mergeLanes (r.predField f.c) (arg xs 0) (arg xs 1)) r)

def execBysel (f : RForm) (s : State) : Res := compute s f.g [rA f, rB f, rC f] f.d (lanewise3 bysel)

/-- ICMP (R116): the predicate D[2:0] by the condition D[5:3]. -/
def execIcmp (f : RForm) (s : State) : Res :=
  registerOnly s f.g [rA f, rB f] [] (fun m xs r =>
    r.setPred (f.d.toNat % 8) m (maskOf (fun l =>
      allElems (iwBits f.cmp) (intCond (f.d.toNat / 8 % 8) (iwBits f.cmp) (bit0 f.cmp)) (laneOf (arg xs 0) l) (laneOf (arg xs 1) l))))

/-- PCOMB (R117): the truth table D[10:3], pA lowest. -/
def execPcomb (f : RForm) (s : State) : Res :=
  registerOnly s f.g [] [] (fun m _ r =>
    r.setPred (f.d.toNat % 8) m (maskOf (fun l =>
      f.d.getLsbD (3 + ((if (r.predField f.a).getLsbD l then 1 else 0) + (if (r.predField f.b).getLsbD l then 2 else 0)
        + (if (r.predField f.c).getLsbD l then 4 else 0))))))

/-- VOTE (R118). -/
def execVote (f : RForm) (s : State) : Res :=
  registerOnly s f.g [] (regNames f.d 1) (fun m _ r =>
    let b := m &&& r.predField f.a
    let x : Word := match f.cmp.toNat with
      | 0 => if b = 0 then 0 else 1
      | 1 => if b = m then 1 else 0
      | _ => b
    writeOperand m f.d (tab (fun _ => x)) r)

/-- PICK (R115): the lowest passing lane's value in every passing lane. -/
def execPick (f : RForm) (s : State) : Res :=
  compute s f.g [rA f] f.d (fun m xs => tab (fun _ => laneOf (arg xs 0) ((lowestLane m).getD 0)))

def execIaddi (f : IForm) (s : State) : Res := intImm f addE (immElem (iwBits f.cmp) f.imm) s
def execImuli (f : IForm) (s : State) : Res := intImm f mulE (immElem (iwBits f.cmp) f.imm) s
def execAndi (f : IForm) (s : State) : Res :=
  compute s f.g [iA f] f.d (lanewise1 (fun a => a &&& immWord (iwBits f.cmp) f.imm))
def execOri (f : IForm) (s : State) : Res :=
  compute s f.g [iA f] f.d (lanewise1 (fun a => a ||| immWord (iwBits f.cmp) f.imm))
def execXori (f : IForm) (s : State) : Res :=
  compute s f.g [iA f] f.d (lanewise1 (fun a => a ^^^ immWord (iwBits f.cmp) f.imm))
def execShli (f : IForm) (s : State) : Res := intImm f shlE (f.imm.toNat % 64) s
def execShri (f : IForm) (s : State) : Res := intImm f (fun e _ => shrE e) (f.imm.toNat % 64) s
def execSari (f : IForm) (s : State) : Res := intImm f (fun e _ => sarE e) (f.imm.toNat % 64) s
def execMovi (f : IForm) (s : State) : Res :=
  compute s f.g [] f.d (fun _ _ => tab (fun _ => immWord (iwBits f.cmp) f.imm))
/-- MOVK (R62, R119): 16 bits of A replaced. -/
def execMovk (f : IForm) (s : State) : Res :=
  compute s f.g [iA f] f.d (lanewise1 (fun a =>
    packElems 16 ((List.range 4).map (fun j => if j = f.imm.toNat / 2 ^ 16 % 4 then f.imm.toNat % 2 ^ 16 else elem 16 a j))))
/-- ICMPI (R116). -/
def execIcmpi (f : IForm) (s : State) : Res :=
  registerOnly s f.g [iA f] [] (fun m xs r =>
    r.setPred (f.d.toNat % 8) m (maskOf (fun l =>
      allElems (iwBits f.cmp) (intCond (f.d.toNat / 8 % 8) (iwBits f.cmp) (bit0 f.cmp)) (laneOf (arg xs 0) l)
        (immWord (iwBits f.cmp) f.imm))))

end Sys2Proof.Machine
end

