-- ==== Sys2Proof/Machine/LaneOps.lean ====
section
/-! DEFINITION. The lane instructions (R137 to R146), opcodes 0x0A0 to 0x0AD. -/
namespace Sys2Proof.Machine

/-- Element of a flat index y over the lanes of a register; S elements a lane (R137). -/
def flat (e : Nat) (x : Lanes) (y : Nat) : Nat := elem e (laneOf x (y / (64 / e))) (y % (64 / e))

/-- The width of the round that issues; 16 where there is none. -/
def State.width (s : State) : Nat := (s.issuing.map (fun r => r.width)).getD 16

/-- SHFL (R138). -/
def execShfl (f : RForm) (s : State) : Res :=
  let e := esBits f.cmp
  compute s f.g [rA f, rB f] f.d (fun _ xs => tab (fun l =>
    packElems e ((List.range (64 / e)).map (fun sub =>
      let y := bits (laneOf (arg xs 1) l) 15 0 + sub
      if y < s.width * (64 / e) then flat e (arg xs 0) y else 0))))

/-- The source of element x under a SHFLX mode and distance, over n elements (R139). -/
def shflxSource (mode x d n : Nat) : Option Nat :=
  match mode with
  | 0 => if Nat.xor x d < n then some (Nat.xor x d) else none
  | 1 => if d ≤ x then some (x - d) else some x
  | _ => if x + d < n then some (x + d) else some x

/-- SHFLX (R139). -/
def execShflx (f : RForm) (s : State) : Res :=
  let e := esBits f.cmp
  compute s f.g [rA f, rB f] f.d (fun _ xs => tab (fun l =>
    packElems e ((List.range (64 / e)).map (fun sub =>
      match shflxSource (f.c.toNat % 4) (l * (64 / e) + sub) (bits (laneOf (arg xs 1) l) 15 0) (s.width * (64 / e)) with
      | some y => flat e (arg xs 0) y
      | none => 0))))

/-- BCST (R140). -/
def execBcst (f : RForm) (s : State) : Res :=
  let e := esBits f.cmp
  compute s f.g [rA f, rB f] f.d (fun m xs =>
    let y := bits (laneOf (arg xs 1) ((lowestLane m).getD 0)) 15 0
    let v := if y < s.width * (64 / e) then flat e (arg xs 0) y else 0
    tab (fun _ => packElems e (List.replicate (64 / e) v)))

/-- Element width of an RT type (R60): .i32 .i64 .u32 .u64 .f32 .f64. -/
def rtBits (cmp : BitVec 3) : Nat := if cmp.getLsbD 0 then 64 else 32
/-- 0 signed, 1 unsigned, 2 floating (R60). -/
def rtKind (cmp : BitVec 3) : Nat := cmp.toNat / 2
def rtFmt (cmp : BitVec 3) : Fmt := if cmp.getLsbD 0 then .fp64 else .fp32

/-- A NaN pattern becomes canonical (R14). -/
def canon (t : Fmt) (x : Nat) : Nat := if (t.value x).isNan then t.nan else x

/-- The sum and the two orders of an RT type (R141, R144). -/
def rtAdd (cmp : BitVec 3) (a b : Nat) : Nat :=
  if rtKind cmp = 2 then fpAdd (rtFmt cmp) .rne false a b else (a + b) % 2 ^ rtBits cmp
def rtMin (cmp : BitVec 3) (a b : Nat) : Nat :=
  if rtKind cmp = 2 then fpMin (rtFmt cmp) a b else minE (rtBits cmp) (rtKind cmp == 1) a b
def rtMax (cmp : BitVec 3) (a b : Nat) : Nat :=
  if rtKind cmp = 2 then fpMax (rtFmt cmp) a b else maxE (rtBits cmp) (rtKind cmp == 1) a b
/-- A NaN element takes the canonical pattern (R14). DEDUCED: log entry 15. -/
def rtCanon (cmp : BitVec 3) (x : Nat) : Nat := if rtKind cmp = 2 then canon (rtFmt cmp) x else x

/-- The values of element j in the passing lanes, ascending. -/
def passingElems (e j : Nat) (m : Mask) (x : Lanes) : List Nat := (lanesOf m).map (fun l => elem e (laneOf x l) j)

/-- A reduction of every element position, written to every lane (R141). -/
def reduceAll (e : Nat) (f : Nat → Nat) : Lanes := tab (fun _ => packElems e ((List.range (64 / e)).map f))

/-- log2 of a width. -/
def levels (w : Nat) : Nat := if w = 16 then 4 else if w = 32 then 5 else 6

/-- RADD (R141): the integer sum, or tree_sum with -0.0 in lanes that do not pass (R37). -/
def execRadd (f : RForm) (s : State) : Res :=
  let e := rtBits f.cmp
  compute s f.g [rA f] f.d (fun m xs => reduceAll e (fun j =>
    if rtKind f.cmp = 2 then
      treeSum (rtFmt f.cmp) (levels s.width) ((List.range s.width).map (fun l =>
        if m.getLsbD l then elem e (laneOf (arg xs 0) l) j else (rtFmt f.cmp).signed true 0))
    else (passingElems e j m (arg xs 0)).foldl (· + ·) 0 % 2 ^ e))

/-- A fold of a nonempty list from its first element; 0 of an empty one. -/
def fold1 (op : Nat → Nat → Nat) : List Nat → Nat
  | [] => 0
  | x :: xs => xs.foldl op x

def execRmin (f : RForm) (s : State) : Res :=
  compute s f.g [rA f] f.d (fun m xs => reduceAll (rtBits f.cmp) (fun j =>
    rtCanon f.cmp (fold1 (rtMin f.cmp) (passingElems (rtBits f.cmp) j m (arg xs 0)))))
def execRmax (f : RForm) (s : State) : Res :=
  compute s f.g [rA f] f.d (fun m xs => reduceAll (rtBits f.cmp) (fun j =>
    rtCanon f.cmp (fold1 (rtMax f.cmp) (passingElems (rtBits f.cmp) j m (arg xs 0)))))

/-- Whether value a wins over value b in RMINX or RMAXX (R142): strictly, so that the earlier of equal values stays. -/
def beats (cmp : BitVec 3) (isMax : Bool) (a b : Nat) : Bool :=
  if rtKind cmp = 2 then
    if (Fmt.fp32.value a).isNan then false
    else if (Fmt.fp32.value b).isNan then true
    else if isMax then orderKey .fp32 b < orderKey .fp32 a else orderKey .fp32 a < orderKey .fp32 b
  else
    let ka : Int := if rtKind cmp = 1 then a else sextN a 32
    let kb : Int := if rtKind cmp = 1 then b else sextN b 32
    if isMax then kb < ka else ka < kb

/-- The winner of a list of (value, index) in ascending index order (R142). -/
def winner (cmp : BitVec 3) (isMax : Bool) : List (Nat × Nat) → Nat × Nat
  | [] => (0, 0)
  | p :: ps => ps.foldl (fun best q => if beats cmp isMax q.1 best.1 then q else best) p

/-- RMINX and RMAXX (R142). The identity takes part, with index 0xFFFFFFFF, when some lane does not pass. -/
def extreme (isMax : Bool) (f : RForm) (s : State) : Res :=
  compute s f.g [rA f, rC f] f.d (fun m xs =>
    let ps := (lanesOf m).map (fun l => (elem 32 (laneOf (arg xs 0) l) 0, l))
    let id := if m = fullMask s.width then [] else [(elem 32 (laneOf (arg xs 1) ((lowestLane m).getD 0)) 0, 0xFFFFFFFF)]
    let (v, i) := winner f.cmp isMax (ps ++ id)
    tab (fun _ => packElems 32 [if rtKind f.cmp = 2 then canon .fp32 v else v, i]))
def execRminx (f : RForm) (s : State) : Res := extreme false f s
def execRmaxx (f : RForm) (s : State) : Res := extreme true f s

/-- RBIT (R143). -/
def execRbit (f : RForm) (s : State) : Res :=
  compute s f.g [rA f] f.d (fun m xs =>
    let vs := (lanesOf m).map (fun l => laneOf (arg xs 0) l)
    let x : Word := match f.cmp.toNat with
      | 0 => vs.foldl (· &&& ·) (BitVec.allOnes 64)
      | 1 => vs.foldl (· ||| ·) 0
      | _ => vs.foldl (· ^^^ ·) 0
    tab (fun _ => x))

/-- The chain of a scan (R144): the accumulator before and after lane l, over the passing lanes below and at l. -/
def scanAt (op : Nat → Nat → Nat) (m : Mask) (x : Nat → Nat) (l : Nat) : Option Nat :=
  ((lanesOf m).filter (fun k => k ≤ l)).foldl (fun acc k => some (match acc with | none => x k | some a => op a (x k))) none

/-- The identity of SCANAE (R144): 0, or -0.0. -/
def scanIdentity (cmp : BitVec 3) : Nat := if rtKind cmp = 2 then (rtFmt cmp).signed true 0 else 0

/-- The inclusive scans (R144). -/
def scan (f : RForm) (op : BitVec 3 → Nat → Nat → Nat) (s : State) : Res :=
  let e := rtBits f.cmp
  compute s f.g [rA f] f.d (fun m xs => tab (fun l =>
    packElems e ((List.range (64 / e)).map (fun j =>
      rtCanon f.cmp ((scanAt (op f.cmp) m (fun k => elem e (laneOf (arg xs 0) k) j) l).getD 0)))))
def execScana (f : RForm) (s : State) : Res := scan f rtAdd s
def execScanmin (f : RForm) (s : State) : Res := scan f rtMin s
def execScanmax (f : RForm) (s : State) : Res := scan f rtMax s

/-- SCANAE (R144): the accumulator before the lane's own value. -/
def execScanae (f : RForm) (s : State) : Res :=
  let e := rtBits f.cmp
  compute s f.g [rA f] f.d (fun m xs => tab (fun l =>
    packElems e ((List.range (64 / e)).map (fun j =>
      if l = 0 then scanIdentity f.cmp
      else rtCanon f.cmp ((scanAt (rtAdd f.cmp) m (fun k => elem e (laneOf (arg xs 0) k) j) (l - 1)).getD (scanIdentity f.cmp))))))

/-- MATCH (R145). -/
def execMatch (f : RForm) (s : State) : Res :=
  let e := esBits f.cmp
  compute s f.g [rA f] f.d (fun m xs => tab (fun l =>
    maskOf (fun k => m.getLsbD k && elem e (laneOf (arg xs 0) k) 0 == elem e (laneOf (arg xs 0) l) 0)))

end Sys2Proof.Machine
end

