-- ==== Sys2Proof/Machine/Layout.lean ====
section
/-! DEFINITION. Layout records, binary matrices and the canonical planner (R173 to R183, R190 to R192). -/
namespace Sys2Proof.Machine

/-- A word of a record of 64 words (R186). -/
def recWord (w : List Word) (i : Nat) : Word := w.getD i 0
/-- A byte field of a record: bytes [hi:lo] as a number (R177). -/
def recBytes (w : List Word) (hi lo : Nat) : Nat :=
  ofBytes ((List.range (hi + 1 - lo)).map (fun i =>
    BitVec.ofNat 8 ((recWord w ((lo + i) / 8)).toNat / 2 ^ (8 * ((lo + i) % 8)))))

def recRank (w : List Word) : Nat := recBytes w 0 0
def recEtype (w : List Word) : Nat := recBytes w 1 1
def recKind (w : List Word) : Nat := recBytes w 2 2 % 4
def recLanebits (w : List Word) : Nat := recBytes w 3 3
def recVbase (w : List Word) : Nat := recBytes w 5 4 % 2 ^ 11
def recPad (w : List Word) : Nat := (recWord w 1).toNat
def recExtent (w : List Word) (k : Nat) : Nat := recBytes w (19 + 4 * k) (16 + 4 * k)
def recExtents (w : List Word) : List Nat := (List.range (recRank w)).map (recExtent w)
def recBase (w : List Word) : Word := recWord w 5
def recAlt (w : List Word) : Word := recWord w 6
def recOffset (w : List Word) : Nat := (recWord w 56).toNat
/-- The progress byte [488] (R179). -/
def recProgress (w : List Word) : Nat := (recWord w 61).toNat % 256

/-- Index bits of a dimension of extent E (R173). -/
def dimBits (e : Nat) : Nat := if e ≤ 1 then 0 else Nat.log2 (e - 1) + 1
/-- The index width n (R173). -/
def recN (w : List Word) : Nat := ((recExtents w).map dimBits).foldl (· + ·) 0

/-- Element width of an etype (R176, R178). -/
def etypeBits (e : Nat) : Nat :=
  if 128 ≤ e then 8 * 2 ^ (e % 4)
  else
    match e with
    | 0 => 64 | 1 => 32 | 2 => 16 | 3 => 16 | 6 => 4 | 0x14 => 4 | _ => 8
def recEs (w : List Word) : Nat := etypeBits (recEtype w)
/-- The element types that a record may hold (R178). -/
def etypeOk (e : Nat) : Bool :=
  if 128 ≤ e then e % 128 < 8 else e ≤ 6 || e == 9 || e == 0x14 || e == 0x18

/-- The matrix rows 0 to n - 1 (R177). -/
def recMatrix (w : List Word) : List Nat := (List.range (recN w)).map (fun k => (recWord w (8 + k)).toNat)

/-- Dimension fields of an index, last dimension lowest: whether some field reaches its extent (R173). -/
def phantomFrom : List Nat → Nat → Bool
  | [], _ => false
  | e :: es, i => decide (e ≤ i % 2 ^ dimBits e) || phantomFrom es (i / 2 ^ dimBits e)
/-- A phantom index (R173). -/
def phantom (w : List Word) (i : Nat) : Bool := phantomFrom (recExtents w).reverse i

/-- gf2(M, i): bit k is the parity of row k and i (R10). -/
def gf2 (m : List Nat) (i : Nat) : Nat :=
  m.zipIdx.foldl (fun acc p => if parity (Nat.land p.1 i) then acc + 2 ^ p.2 else acc) 0

/-- The identity of size n. -/
def gfIdentity (n : Nat) : List Nat := (List.range n).map (fun k => 2 ^ k)

/-- The product of two matrices of rows. -/
def gfMul (a b : List Nat) : List Nat :=
  a.map (fun r => b.zipIdx.foldl (fun acc p => if r.testBit p.2 then Nat.xor acc p.1 else acc) 0)

/-- One elimination step on column c: a pivot among the rows not yet used, cleared from all others. -/
def gaussStep (c : Nat) (st : List (Nat × Nat) × List (Nat × Nat)) : List (Nat × Nat) × List (Nat × Nat) :=
  match st.2.find? (fun r => r.1.testBit c) with
  | none => st
  | some p =>
    let clear (r : Nat × Nat) : Nat × Nat := if r.1.testBit c then (Nat.xor r.1 p.1, Nat.xor r.2 p.2) else r
    (st.1.map clear ++ [p], (st.2.erase p).map clear)

/-- Elimination of a matrix beside another. -/
def gauss (n : Nat) (m : List (Nat × Nat)) : List (Nat × Nat) × List (Nat × Nat) :=
  (List.range n).foldl (fun st c => gaussStep c st) ([], m)

/-- The rank of an n × n matrix. -/
def gfRank (n : Nat) (m : List Nat) : Nat := (gauss n (m.map (fun r => (r, 0)))).1.length

/-- The inverse of an invertible n × n matrix. -/
def gfInverse (n : Nat) (m : List Nat) : List Nat :=
  (gauss n (m.zip (gfIdentity n))).1.map (fun r => r.2)

/-- The location of an index (R175). -/
def locationOf (w : List Word) (i : Nat) : Nat := Nat.xor (gf2 (recMatrix w) i) (recOffset w)

/-- log2(64 / es), the sub-element bits of the register kind (R176). -/
def recSigma (w : List Word) : Nat := Nat.log2 (64 / recEs w)
/-- Register bits ρ (R176). -/
def recRho (w : List Word) : Nat := if recN w < recSigma w then 0 else recN w - recSigma w - recLanebits w
/-- Bytes of a storage buffer (R176). -/
def recSpan (w : List Word) : Nat := (2 ^ recN w * recEs w + 7) / 8
/-- Bytes of a parcel: 256 in memory, 16 in scratchpad (R176). -/
def parcelBytes (kind : Nat) : Nat := if kind = 0 then 256 else 16
/-- Position bits within a parcel (R176). -/
def recG (w : List Word) : Nat := min (recN w) (Nat.log2 (parcelBytes (recKind w) * 8 / recEs w))

/-- The location bits of group Y, y_0 first (R176). -/
def groupY (w : List Word) : List Nat :=
  if recKind w = 2 then (List.range (recLanebits w)).map (fun j => recSigma w + j) else List.range (recG w)
/-- The location bits of group X, x_0 first (R176). -/
def groupX (w : List Word) : List Nat := (List.range (recN w)).filter (fun k => !(groupY w).contains k)

/-- Whether a range of two buffers shares a byte. -/
def buffersOverlap (a b span : Nat) : Bool := decide (a < b + span) && decide (b < a + span)

/-- Whether the zero bytes of R177 to R180 are zero (reason 8). -/
def zeroBytesOk (w : List Word) : Bool :=
  recBytes w 2 2 < 4 && recBytes w 7 6 == 0 && recBytes w 5 4 < 2 ^ 11 && recWord w 7 == 0
    && (recKind w == 2 || (recLanebits w == 0 && recVbase w == 0))
    && (recKind w != 2 || (recBase w == 0 && recAlt w == 0))
    && (List.range 4).all (fun k => recBytes w (457 + 2 * k) (456 + 2 * k) < 2 ^ 12)
    && (List.range 6).all (fun k => recBytes w (464 + k) (464 + k) % 128 < 4)
    && recBytes w 471 470 == 0 && recBytes w 487 476 == 0 && recProgress w < 128 && recBytes w 490 489 == 0
    && recWord w 62 == 0 && recWord w 63 == 0

/-- What a use requires of a record beside its own form: the kinds it accepts, whether the storage fields count (reasons 4, 5
and 6), and whether the second buffer is used. -/
structure LayoutUse where
  kinds : List Nat
  storage : Bool
  alt : Bool
  deriving DecidableEq, Repr

/-- bits [63:57] equal to bit 56 (R282). -/
def canonicalNat (a : Nat) : Bool := a / 2 ^ 56 == 0 || a / 2 ^ 56 == 0xFF

/-- Reason 5 (R181). -/
def registersOk (w : List Word) (width : Nat) : Bool :=
  2 ^ recLanebits w ≤ width
    && ((recSigma w + recLanebits w ≤ recN w) || (recLanebits w == 0 && recN w < recSigma w))
    && recVbase w + 2 ^ recRho w ≤ 1536

/-- Reason 6 (R181). -/
def buffersOk (w : List Word) (alt : Bool) : Bool :=
  let p := parcelBytes (recKind w)
  let ok (a : Word) : Bool :=
    a.toNat % p == 0 && (recKind w != 0 || canonicalNat a.toNat)
  ok (recBase w) && (!alt || (ok (recAlt w) && !buffersOverlap (recBase w).toNat (recAlt w).toNat (recSpan w)))

/-- The first failing check of R181 in the order of its table, reason 12 before all. -/
def layoutReason (u : LayoutUse) (width : Nat) (w : List Word) : Option Nat :=
  let d := recRank w
  let n := recN w
  if d = 0 then some 12
  else if 6 < d || (recExtents w).any (fun e => e == 0) || (List.range 6).any (fun k => decide (d ≤ k) && recExtent w k != 0) then some 1
  else if 48 < n then some 2
  else if !etypeOk (recEtype w) then some 3
  else if u.storage && !u.kinds.contains (recKind w) then some 4
  else if u.storage && recKind w == 2 && !registersOk w width then some 5
  else if u.storage && recKind w != 2 && !buffersOk w u.alt then some 6
  else if (List.range 48).any (fun k => decide (2 ^ n ≤ (recWord w (8 + k)).toNat) || (decide (n ≤ k) && recWord w (8 + k) != 0))
      || decide (2 ^ n ≤ recOffset w) then some 7
  else if !zeroBytesOk w then some 8
  else none

/-- The checks of a source record of PLACE or PLQ: reasons 12, 1, 2, 3, 7, 8 and then 9 (R193). -/
def sourceReason (dst src : List Word) : Option Nat :=
  match layoutReason { kinds := [], storage := false, alt := false } 64 src with
  | some k => some k
  | none => if recRank src = recRank dst && recExtents src == recExtents dst && recEtype src == recEtype dst then none else some 9

/-- Bits of a row at listed positions, the first lowest. -/
def pickBits (cols : List Nat) (row : Nat) : Nat :=
  cols.zipIdx.foldl (fun acc p => if row.testBit p.1 then acc + 2 ^ p.2 else acc) 0
/-- A block of a matrix by row and column positions. -/
def block (t : List Nat) (rows cols : List Nat) : List Nat := rows.map (fun r => pickBits cols (t.getD r 0))
/-- Column j of a matrix of rows. -/
def column (m : List Nat) (j : Nat) : Nat := m.zipIdx.foldl (fun acc p => if p.1.testBit j then acc + 2 ^ p.2 else acc) 0

/-- Reduces a vector by a basis in descending order of highest bits. -/
def reduceBy (basis : List Nat) (v : Nat) : Nat := basis.foldl (fun v b => min v (Nat.xor v b)) v
/-- Adds a nonzero reduced vector to the basis, highest first. -/
def addBasis (v : Nat) : List Nat → List Nat
  | [] => [v]
  | b :: bs => if b < v then v :: b :: bs else b :: addBasis v bs

/-- The columns q_j of Q1 (R191). The least v that makes a dependent d_j independent is a power of two: if every 2^k below some 2^m
leaves it dependent, so does every v below 2^m. -/
def planColumns (p : Nat) (c d : List Nat) : List Nat → List Nat → List Nat
  | _, [] => []
  | basis, j :: js =>
    let cand (v : Nat) : Nat := reduceBy basis (Nat.xor (column d j) (gf2 c v))
    let v := ((0 :: (List.range p).map (fun k => 2 ^ k)).find? (fun v => cand v != 0)).getD 0
    v :: planColumns p c d (addBasis (cand v) basis) js

/-- A row over (X, Y) coordinates, X lowest, as a row over location bits. -/
def unpick (xs ys : List Nat) (row : Nat) : Nat :=
  (xs ++ ys).zipIdx.foldl (fun acc p => if row.testBit p.2 then acc + 2 ^ p.1 else acc) 0

/-- An affine pass that updates one group: the identity elsewhere (R192). -/
def makePass (n : Nat) (isX : Bool) (group : List Nat) (rows : List Nat) (offs : Nat) : Pass :=
  { isX := isX
    rows := (List.range n).map (fun k =>
      match group.idxOf? k with
      | some i => BitVec.ofNat 64 (rows.getD i 0)
      | none => BitVec.ofNat 64 (2 ^ k))
    off := BitVec.ofNat 64 (group.zipIdx.foldl (fun acc p => if offs.testBit p.2 then acc + 2 ^ p.1 else acc) 0) }

/-- Whether a pass does nothing (R191). -/
def Pass.isIdentity (x : Pass) : Bool := x.rows == (gfIdentity x.rows.length).map (BitVec.ofNat 64) && x.off == 0

/-- The canonical plan of an affine change ℓ' = Tℓ xor u over groups X and Y (R190, R191). -/
def planPasses (n : Nat) (xs ys : List Nat) (t : List Nat) (u : Nat) : List Pass :=
  let p := xs.length
  let q := ys.length
  let a := block t xs xs
  let b := block t xs ys
  let c := block t ys xs
  let d := block t ys ys
  let q1c := planColumns p c d [] (List.range q)
  let q1 := (List.range p).map (fun k => column q1c k)
  let e := (d.zip (gfMul c q1)).map (fun z => Nat.xor z.1 z.2)
  let top := (List.range p).map (fun k => 2 ^ k + 2 ^ p * q1.getD k 0)
  let bot := (List.range q).map (fun k => c.getD k 0 + 2 ^ p * d.getD k 0)
  let ab := (List.range p).map (fun k => a.getD k 0 + 2 ^ p * b.getD k 0)
  let fg := gfMul ab (gfInverse (p + q) (top ++ bot))
  let g := fg.map (fun r => r / 2 ^ p)
  let uX := pickBits xs u
  let uY := pickBits ys u
  [ makePass n true xs ((List.range p).map (fun k => unpick xs ys (top.getD k 0))) 0
  , makePass n false ys ((List.range q).map (fun k => unpick xs ys (c.getD k 0 + 2 ^ p * e.getD k 0))) uY
  , makePass n true xs (fg.map (fun r => unpick xs ys r)) (Nat.xor uX (gf2 g uY)) ].filter (fun x => !x.isIdentity)

/-- The passes that PLACE plans from a record to a target (R190). -/
def planOf (dst src : List Word) : List Pass :=
  let n := recN dst
  let t := gfMul (recMatrix src) (gfInverse n (recMatrix dst))
  planPasses n (groupX dst) (groupY dst) t (Nat.xor (gf2 t (recOffset dst)) (recOffset src))

/-- Replaces words of a record. -/
def setWord (w : List Word) (i : Nat) (x : Word) : List Word := w.set i x

/-- The progress word: count, done, running, plan, fault and cursor (R179). -/
def progressWord (count done : Nat) (running plan fault : Bool) (cursor : Nat) : Word :=
  BitVec.ofNat 64 (count % 4 + 4 * (done % 4) + (if running then 16 else 0) + (if plan then 32 else 0) + (if fault then 64 else 0)
    + 2 ^ 24 * cursor)
/-- The progress word with count, done and plan left at 0 (R193). -/
def clearCounts (w : Word) : Word := w &&& ~~~0x2F
def progCount (w : List Word) : Nat := recProgress w % 4
def progDone (w : List Word) : Nat := recProgress w / 4 % 4
def progRunning (w : List Word) : Bool := (recProgress w).testBit 4
def progPlan (w : List Word) : Bool := (recProgress w).testBit 5
def progCursor (w : List Word) : Nat := (recWord w 61).toNat / 2 ^ 24

/-- The record after a pass: the placement reached, and the buffers exchanged unless it holds registers (R192, R195). -/
def applyPass (x : Pass) (w : List Word) : List Word :=
  let n := recN w
  let rows := x.rows.map (fun r => r.toNat)
  let m := gfMul rows (recMatrix w)
  let w1 := (List.range n).foldl (fun w k => setWord w (8 + k) (BitVec.ofNat 64 (m.getD k 0))) w
  let w2 := setWord w1 56 (BitVec.ofNat 64 (Nat.xor (gf2 rows (recOffset w)) x.off.toNat))
  if recKind w = 2 then w2 else setWord (setWord w2 5 (recAlt w)) 6 (recBase w)

/-- What a destination slot of a pass receives: the source slot, or none where the slot's index is a phantom (R174). `w` is the
record before the pass. -/
def passSource (x : Pass) (w : List Word) (slot : Nat) : Option Nat :=
  let n := recN w
  let src := gf2 (gfInverse n (x.rows.map (fun r => r.toNat))) (Nat.xor slot x.off.toNat)
  let i := gf2 (gfInverse n (recMatrix w)) (Nat.xor src (recOffset w))
  if phantom w i then none else some src

/-- The all-zero record of a layout register (R182). -/
def LayoutReg.empty : LayoutReg := { words := List.replicate 64 0, plan := none }

/-- A record from its 512 bytes. -/
def recordOf (l : List Byte) : List Word :=
  (List.range 64).map (fun i => BitVec.ofNat 64 (ofBytes ((l.drop (8 * i)).take 8)))

/-- The 512 bytes of a record. -/
def recordBytes (w : List Word) : List Byte := (List.range 64).flatMap (fun i => toBytes 8 (recWord w i).toNat)

end Sys2Proof.Machine
end

