-- ==== Sys2Proof/Machine/MemOps.lean ====
section
/-! DEFINITION. Device memory: addresses, translation and its refusals, the store buffers, releases and promotion
(R282 to R289, R296 to R299), and the scratchpad of a team (R150 to R152). -/
namespace Sys2Proof.Machine

/-- Whether bits [63:57] all equal bit 56 (R282). -/
def canonical (va : Word) : Bool := va.toNat / 2 ^ 56 == 0 || va.toNat / 2 ^ 56 == 0xFF

/-- Whether a physical address is memory of a compute die (R283). -/
def mapped (pa : Nat) : Bool := pa / 2 ^ 37 < 6 && pa % 2 ^ 37 < 96000000000

/-- The home die of a physical address (R283). -/
def homeDie (pa : Nat) : Nat := pa / 2 ^ 37

/-- The home slice of a physical address (R283). -/
def homeSlice (pa : Nat) : Nat := Nat.xor (bitsN pa 12 8) (Nat.xor (bitsN pa 17 13) (bitsN pa 22 18))

/-- The HBM stack of a die that serves a physical address (R331): slices 0 to 15 by the first, 16 to 31 by the second. -/
def stackOf (pa : Nat) : Nat := homeSlice pa / 16

/-- Whether the HBM channel that holds a physical address is ready (R338); what is no memory has no channel. Which of a stack's channels
holds an address is open. DESIGN CHOICE: log entry 71. -/
def State.channelReady (s : State) (pa : Nat) : Bool :=
  !mapped pa || SMap.get s.package.ready 0 (6 + homeDie pa) == BitVec.allOnes 64
    || s.isReady (6 + homeDie pa) (32 * stackOf pa + Config.channel pa % 32)

/-- The smallest page (R286). -/
def pageBytes : Nat := 2 ^ 19
/-- The page that holds an address. -/
def pageOf (va : Word) : Word := va &&& ~~~(BitVec.ofNat 64 (pageBytes - 1))

/-- What an access needs of a page (R286). -/
structure PageNeeds where
  write : Bool
  fetch : Bool
  user : Bool
  deriving DecidableEq, Repr

/-- The outcome of one translation (R286, R288): a physical address; a missing or malformed entry at a level; a refusal with
its flag: 1 missing right, 2 non-canonical address, 3 host window, 4 outside the partition's grants, 5 pair across dies; or an access
that waits for an HBM channel (R338). -/
inductive Xlat where
  | ok (pa : Nat)
  | missing (level : Nat)
  | refused (flag : Nat)
  | held
  deriving DecidableEq, Repr

/-- A table level (R286): the index field, the size of the next table (0 for none) and whether a leaf is allowed. -/
structure TableLevel where
  shift : Nat
  bits : Nat
  next : Nat
  leaf : Bool
  deriving DecidableEq, Repr

def tableLevels : List TableLevel :=
  [⟨46, 11, 2 ^ 16, false⟩, ⟨33, 13, 2 ^ 10, true⟩, ⟨26, 7, 2 ^ 10, true⟩, ⟨19, 7, 0, true⟩]

/-- A leaf translation: page address, size and rights. -/
structure Leaf where
  size : Nat
  pa : Nat
  u : Bool
  x : Bool
  w : Bool
  deriving DecidableEq, Repr

/-- An 8-byte entry at a physical address. -/
def readEntry (s : State) (pa : Nat) : Nat := ofBytes (Memory.readList s.mem pa 8)

/-- What a walk comes to: a leaf, the level whose entry is missing or malformed, or a wait for the HBM channel of a table (R338). -/
inductive Walk where
  | leaf (l : Leaf)
  | missing (level : Nat)
  | held
  deriving DecidableEq, Repr

/-- A walk from a table (R286). -/
def walkFrom (s : State) (va : Nat) : Nat → Nat → List TableLevel → Walk
  | _, level, [] => .missing level
  | table, level, t :: ts =>
    let at_ := table + 8 * (va / 2 ^ t.shift % 2 ^ t.bits)
    let e := readEntry s at_
    let pa := bitsN e 51 10 * 2 ^ 10
    let leaf := e.testBit 1
    if !s.channelReady at_ then .held
    else if !e.testBit 0 || bitsN e 63 52 != 0 || bitsN e 9 5 != 0 || !mapped pa then .missing level
    else if leaf then
      if !t.leaf || pa % 2 ^ t.shift != 0 then .missing level
      else .leaf { size := 2 ^ t.shift, pa := pa, u := e.testBit 4, x := e.testBit 3, w := e.testBit 2 }
    else if t.next = 0 || pa % t.next != 0 then .missing level
    else walkFrom s va pa (level + 1) ts

/-- A walk of a partition's tables from its root (R286, R326). -/
def walk (s : State) (p : Partition) (va : Word) : Walk := walkFrom s va.toNat p.ptroot.toNat 0 tableLevels

/-- A translation that a core has cached (R287). -/
def cachedLeaf (s : State) (core part : Nat) (va : Word) : Option Leaf :=
  ((s.core core).tlb.find? (fun e => e.part == part && e.va == va.toNat / e.size * e.size)).map (fun e =>
    { size := e.size, pa := e.pa, u := e.u, x := e.x, w := e.w })

/-- Whether a physical address lies in a partition's grants (R288), which never leave the memory of its own dies (R336). -/
def granted (p : Partition) (pa : Nat) : Bool := p.dies.getLsbD (homeDie pa) && p.grants.any (fun g => g.1 ≤ pa && pa < g.1 + g.2)

/-- The rights and grants of a leaf for an access (R286, R288), which waits for the HBM channel of its address (R338). -/
def checkLeaf (s : State) (p : Partition) (k : PageNeeds) (va : Word) (l : Leaf) : Xlat :=
  if (k.user && !l.u) || (k.write && !l.w) || (k.fetch && !l.x) then .refused 1
  else
    let pa := l.pa + va.toNat % l.size
    if !(mapped pa && granted p pa) then .refused 4 else if s.channelReady pa then .ok pa else .held

/-- Translates one address through the tables alone. -/
def translateWalk (s : State) (p : Partition) (k : PageNeeds) (va : Word) : Xlat :=
  if !canonical va then .refused 2
  else
    match walk s p va with
    | .missing level => .missing level
    | .held => .held
    | .leaf l => checkLeaf s p k va l

/-- Translates one address for a core, through its cached translations first (R287). -/
def translate (s : State) (core : Nat) (p : Partition) (k : PageNeeds) (va : Word) : Xlat :=
  if !canonical va then .refused 2
  else
    match cachedLeaf s core p.num va with
    | some l => checkLeaf s p k va l
    | none => translateWalk s p k va

/-- The addresses at which the pages of a range of z bytes begin, and its first byte. -/
def rangePages (va : Word) (z : Nat) : List Word :=
  if pageOf va == pageOf (va + BitVec.ofNat 64 (z - 1)) then [va] else [va, pageOf (va + BitVec.ofNat 64 (z - 1))]

/-- The translation of one lane's range (R288): physical addresses of its bytes, the refusal's flag, missing pages with the
level, or a wait (R338). -/
inductive LaneXlat where
  | ok (pas : List Nat)
  | refused (flag : Nat)
  | missing (pages : List Word) (level : Nat)
  | held
  deriving DecidableEq, Repr

/-- Translates a range of z bytes of at most two pages (R288, R291). -/
def translateRange (tr : Word → Xlat) (va : Word) (z : Nat) : LaneXlat :=
  let rs := (rangePages va z).map (fun a => (a, tr a))
  match rs.find? (fun r => match r.2 with | .refused _ => true | _ => false) with
  | some (_, .refused f) => .refused f
  | _ =>
    match rs.filterMap (fun r => match r.2 with | .missing l => some (pageOf r.1, l) | _ => none) with
    | [] =>
      let xs := (List.range z).map (fun i => tr (va + BitVec.ofNat 64 i))
      if xs.any (fun x => x == .held) then .held else .ok (xs.map (fun x => match x with | .ok pa => pa | _ => 0))
    | m :: ms => .missing ((m :: ms).map (fun x => x.1)) m.2

/-- The translations of all passing lanes (R288, R394). -/
inductive Lanesx where
  | ok (l : List (Nat × List Nat))
  | refused (mask : Mask) (addr : Word) (flag : Nat)
  | missing (pages : List Word) (mask : Mask) (addr : Word) (level : Nat)
  | held
  deriving DecidableEq, Repr

/-- Inserts a page in ascending order without repeats. -/
def insertPage (p : Word) : List Word → List Word
  | [] => [p]
  | q :: qs => if p == q then q :: qs else if p.toNat < q.toNat then p :: q :: qs else q :: insertPage p qs

/-- Translates every lane; a refusal of any lane comes before service (R288). -/
def translateLanes (tr : Word → Xlat) (z : Nat) (lanes : List (Nat × Word)) : Lanesx :=
  let rs := lanes.map (fun p => (p.1, p.2, translateRange tr p.2 z))
  let bad := rs.filterMap (fun r => match r.2.2 with | .refused f => some (r.1, r.2.1, f) | _ => none)
  match bad with
  | b :: bs => .refused (maskOf (fun l => (b :: bs).any (fun x => x.1 == l))) b.2.1 b.2.2
  | [] =>
    match rs.filterMap (fun r => match r.2.2 with | .missing ps lv => some (r.1, r.2.1, ps, lv) | _ => none) with
    | m :: ms =>
      .missing ((m :: ms).foldl (fun acc x => x.2.2.1.foldl (fun acc p => insertPage p acc) acc) [])
        (maskOf (fun l => (m :: ms).any (fun x => x.1 == l))) m.2.1 m.2.2.2
    | [] =>
      if rs.any (fun r => r.2.2 == .held) then .held
      else .ok (rs.filterMap (fun r => match r.2.2 with | .ok pas => some (r.1, pas) | _ => none))

/-- The translation function of a round's LS path for reads or writes. -/
def State.xlat (s : State) (r : Round) (write : Bool) (va : Word) : Xlat :=
  translate s r.core (s.partOf r) { write := write, fetch := false, user := !r.priv } va

/-- Handles a failed translation of an instruction that the lanes of m pass (R288), or goes on with the physical addresses. -/
def withPages (s : State) (r : Round) (m : Mask) (write : Bool) (z : Nat) (lanes : List (Nat × Word))
    (k : List (Nat × List Nat) → Res) : Res :=
  match translateLanes (s.xlat r write) z lanes with
  | .refused mask addr flag => takeTrap s r 0x61 addr (BitVec.ofNat 64 flag) 0 mask
  | .missing pages mask addr level => .next (parkService s r pages m mask addr level)
  | .held => stall s r .engine
  | .ok l => k l

/-- Goes on unless some lane fails a check; the trap holds the failing lanes and the value of the lowest (R394). -/
def checkLanes (s : State) (r : Round) (cause : Nat) (info1 : Word) (lanes : List (Nat × Word)) (ok : Nat × Word → Bool)
    (k : Res) : Res :=
  match lanes.filter (fun p => !ok p) with
  | [] => k
  | b :: bs => takeTrap s r cause b.2 info1 0 (maskOf (fun l => (b :: bs).any (fun x => x.1 == l)))

/-- Passing lanes with their values, ascending. -/
def laneValues (m : Mask) (x : Lanes) : List (Nat × Word) := (lanesOf m).map (fun l => (l, laneOf x l))

/-- Whether a sector of 32 bytes is lasting (R289). -/
def State.isLasting (s : State) (pa : Nat) : Bool := s.lasting.contains (pa / 32)

/-- Raises MEMORY_LASTING for the lanes that read a lasting sector (R289); its physical address is that of the sector's first byte. DESIGN
CHOICE: log entry 82. -/
def withClean (s : State) (r : Round) (l : List (Nat × List Nat)) (k : Res) : Res :=
  match l.filterMap (fun p => (p.2.find? s.isLasting).map (fun pa => (p.1, pa))) with
  | [] => k
  | b :: bs => takeTrap s r 0x63 (BitVec.ofNat 64 (b.2 / 32 * 32)) 0 0 (maskOf (fun l => (b :: bs).any (fun x => x.1 == l)))

/-- Writes bytes at their home slices; a write of a whole sector clears its lasting mark (R284, R289). -/
def State.writeBytes (s : State) (bytes : List (Nat × Byte)) : State :=
  { s with
    mem := Memory.writeCells s.mem bytes
    lasting := s.lasting.filter (fun sec => !(List.range 32).all (fun i => bytes.any (fun b => b.1 == 32 * sec + i))) }

/-- A byte as a load by a round of a core reads it: the latest buffered write of that core, else the home slice (R296). DESIGN CHOICE: log
entry 9. -/
def State.coreRead (s : State) (core pa : Nat) : Byte :=
  match (s.stores.reverse.filter (fun e => e.core == core)).findSome? (fun e => SMap.find e.bytes pa) with
  | some b => b
  | none => Memory.read s.mem pa

/-- Whether two sets of bytes share an address. -/
def overlap (a b : List (Nat × Byte)) : Bool := a.any (fun x => b.any (fun y => x.1 == y.1))

/-- Splits the buffered entries into those that stay and those that leave when the entries of `p` must leave: earlier
entries of the same core to the same bytes leave before them (R296). -/
def splitStores (p : StoreEntry → Bool) : List StoreEntry → List StoreEntry × List StoreEntry
  | [] => ([], [])
  | e :: es =>
    let (stay, go) := splitStores p es
    if p e || go.any (fun x => x.core == e.core && overlap x.bytes e.bytes) then (stay, e :: go) else (e :: stay, go)

/-- Counts an entry that has left in its round's die or package counter (R296). -/
def countLeft (s : State) (e : StoreEntry) : State :=
  match s.rounds[e.round]? with
  | none => s
  | some r =>
    if e.bytes.all (fun b => homeDie b.1 == s.dieOf r) then s.setRoundAt e.round { r with dieCtr := r.dieCtr + 1 }
    else s.setRoundAt e.round { r with pkgCtr := r.pkgCtr + 1 }

/-- Sends the entries of `p` to their home slices (R296). -/
def State.drainStores (s : State) (p : StoreEntry → Bool) : State :=
  let (stay, go) := splitStores p s.stores
  go.foldl (fun s e => countLeft (s.writeBytes e.bytes) e) { s with stores := stay }

/-- The unit of an entry to which a byte belongs (R291): its chunk, or itself where an unaligned lane wrote it. -/
def StoreEntry.unitOf (e : StoreEntry) (pa : Nat) : Nat := if e.loose.contains pa then 2 * pa + 1 else 2 * (pa / e.chunk)

/-- Some units of an entry leave ahead of the rest, which stays (R296, R387): the core's earlier entries to those bytes leave first. -/
def State.drainUnits (s : State) (id : Nat) (units : List Nat) : State :=
  match s.stores.find? (fun e => e.id == id) with
  | none => s
  | some e =>
    let goes (b : Nat × Byte) : Bool := units.contains (e.unitOf b.1)
    let part := e.bytes.filter goes
    if e.bytes.all goes then s.drainStores (fun x => x.id == id)
    else
      let earlier := (s.stores.takeWhile (fun x => x.id != id)).filter (fun x => x.core == e.core && overlap x.bytes part)
      let s1 := s.drainStores (fun x => earlier.any (fun y => y.id == x.id))
      { s1.writeBytes part with
        stores := s1.stores.map (fun x =>
          if x.id == id then { x with bytes := x.bytes.filter (fun b => !goes b), left := x.left ++ part.map (fun b => b.1) } else x) }

/-- The scope of team accesses: that of a pair team acts as cluster scope (R297). -/
def State.effScope (s : State) (r : Round) (scope : Nat) : Nat := if scope = 1 && (s.teamOf r).pair then 3 else scope

/-- Whether a core lies in a scope around a round (R297, R298). -/
def inScope (r : Round) (scope core : Nat) : Bool :=
  if scope ≤ 2 then core == r.core
  else if scope = 3 then core / 8 == r.core / 8
  else if scope = 4 then core / 64 == r.core / 64
  else true

/-- A promotion (R298): entries left behind a core-scope or team-scope release in the cores of the scope leave. -/
def State.promote (s : State) (r : Round) (scope : Nat) : State :=
  s.drainStores (fun e => e.released && inScope r scope e.core)

/-- Issues the host writes of a round in their order once their link is trained (R299, R338). -/
def State.issueHostWrites (s : State) (n : Nat) : State :=
  let goes (w : HostWrite) : Bool := w.round == n && s.linkReady (linkOf w.part)
  { s with hostq := s.hostq.filter (fun w => !goes w), hostOut := s.hostOut ++ s.hostq.filter goes }

/-- Whether round n has no host write that waits (R296). -/
def State.hostQuiet (s : State) (n : Nat) : Bool := !s.hostq.any (fun w => w.round == n)

/-- Adds an entry of a store instruction of z-byte lanes to the buffer (R296): a later lane's byte replaces an earlier lane's. -/
def State.bufferStore (s : State) (n core z : Nat) (lanes : List (List (Nat × Byte))) : State :=
  { s with
    stores := s.stores ++ [{ id := s.nextId, round := n, core := core
                             bytes := (lanes.flatMap (fun l => l)).foldl (fun acc b => SMap.set acc b.1 b.2) []
                             chunk := min z 8
                             loose := (lanes.filter (fun l => (l.map (fun b => b.1)).headD 0 % min z 8 != 0)).flatMap (fun l => l.map (fun b => b.1))
                             released := false, entered := s.now, left := [], seen := [], shown := [] }]
    nextId := s.nextId + 1 }

/-- Entries that a round holds in its buffer. -/
def State.buffered (s : State) (n : Nat) : Nat := (s.stores.filter (fun e => e.round == n)).length

/-- Writes scratchpad bytes of a team. -/
def Team.writeSpad (t : Team) (bytes : List (Nat × Byte)) : Team := { t with spad := Memory.writeCells t.spad bytes }

/-- The range check of R151: bytes a to a + z - 1 lie in the allocation. -/
def Team.holds (t : Team) (a z : Nat) : Bool := a + z ≤ t.spadSize

/-- The declared window whose shadow addresses bytes a to a + z - 1 meet (R270). -/
def Team.shadowOf (t : Team) (a z : Nat) : Option Nat :=
  if z = 0 then none
  else t.windows.findIdx? (fun w => w.declared && decide (a < w.base + 2 * w.size) && decide (w.base + w.size < a + z))

/-- Whether bytes a to a + z - 1 meet the shadow addresses of a declared window (R270). -/
def Team.shadowed (t : Team) (a z : Nat) : Bool := (t.shadowOf a z).isSome

/-- XWIN_RANGE (R281): member, window, and offset or address. -/
def xwinRange (s : State) (r : Round) (m : Mask) (member window at_ : Word) : Res := takeTrap s r 0x52 member window at_ m

/-- XWIN_RANGE of an access of z bytes at an address of the team's own (R270, R281). -/
def shadowTrap (s : State) (r : Round) (m : Mask) (a : Word) (z : Nat) : Res :=
  xwinRange s r m (BitVec.ofNat 64 (s.teamOf r).member) (BitVec.ofNat 64 (((s.teamOf r).shadowOf a.toNat z).getD 0)) a

/-- Goes on unless an access of z bytes of some lane meets shadow addresses (R270, R394). -/
def checkShadow (s : State) (r : Round) (z : Nat) (lanes : List (Nat × Word)) (k : Res) : Res :=
  match lanes.filter (fun p => (s.teamOf r).shadowed p.2.toNat z) with
  | [] => k
  | b :: bs => shadowTrap s r (maskOf (fun l => (b :: bs).any (fun x => x.1 == l))) b.2 z

/-- The lower of two runs. -/
def lowerRun (a b : Word × Nat) : Word × Nat := if b.1.toNat < a.1.toNat then b else a

/-- The range check of areas of the scratchpad, each with the address that SPAD_RANGE reports and its runs of bytes (R151, R270): over
all of them, shadow addresses come first, and the lowest such run is reported; an empty run passes. -/
def withAreas (s : State) (r : Round) (m : Mask) (areas : List (Word × List (Word × Nat))) (k : Res) : Res :=
  let t := s.teamOf r
  match (areas.flatMap (fun x => x.2)).filter (fun x => t.shadowed x.1.toNat x.2) with
  | x :: xs =>
    let low := xs.foldl lowerRun x
    shadowTrap s r m low.1 low.2
  | [] =>
    match areas.find? (fun x => x.2.any (fun y => decide (0 < y.2) && !t.holds y.1.toNat y.2)) with
    | some x => takeTrap s r 0x20 x.1 0 0 m
    | none => k

/-- The range check of one area of z bytes (R151, R270). -/
def withArea (s : State) (r : Round) (m : Mask) (a : Word) (z : Nat) (k : Res) : Res := withAreas s r m [(a, [(a, z)])] k

end Sys2Proof.Machine
end

