-- ==== Sys2Proof/Machine/Sources.lean ====
section
/-! DEFINITION. What the engines read (R169, R170, R195, R352, R383): bytes by kind of address, and the sources of batch members, Courier jobs
and collectives with what they have read of them. -/
namespace Sys2Proof.Machine

/-- The state with the issuing round's team changed. -/
def State.modTeam (s : State) (r : Round) (f : Team → Team) : State := s.setTeam r.team (f (s.teamOf r))

/-- On whose behalf an engine accesses memory: a core's cached translations, a partition, the mode, and the round whose
scratchpad it uses. -/
structure Agent where
  core : Nat
  part : Nat
  user : Bool
  round : Option Nat
  deriving DecidableEq, Repr

/-- The outcome of one engine access: a value; a missing page; a cause that is never serviced (R170); or a wait for an HBM channel
(R338). -/
inductive Got (α : Type) where
  | ok (a : α)
  | missing (va : Word)
  | fault (va : Word) (cause : Nat)
  | held
  deriving Repr

/-- An access that follows another one. -/
def Got.bind {α β : Type} (x : Got α) (f : α → Got β) : Got β :=
  match x with
  | .ok a => f a
  | .missing va => .missing va
  | .fault va c => .fault va c
  | .held => .held

/-- Two accesses of one element: a fault of either decides, then a missing page. -/
def Got.both {α β : Type} (x : Got α) (y : Got β) : Got (α × β) :=
  match x, y with
  | .fault va c, _ => .fault va c
  | _, .fault va c => .fault va c
  | .missing va, _ => .missing va
  | _, .missing va => .missing va
  | .ok a, .ok b => .ok (a, b)
  | _, _ => .held

/-- What a list of accesses comes to: their values; missing pages, with the first missing address; a fault; or a wait. -/
inductive Gathered (α : Type) where
  | ok (l : List α)
  | missing (pages : List Word) (va : Word)
  | fault (va : Word) (cause : Nat)
  | held
  deriving Repr

/-- Collects the outcomes of a list of accesses: the first fault decides, then the missing pages (R170, R288). -/
def gather {α : Type} : List (Got α) → Gathered α
  | [] => .ok []
  | .fault va c :: _ => .fault va c
  | .missing va :: gs =>
    match gather gs with
    | .fault va c => .fault va c
    | .missing ps _ => .missing (insertPage (pageOf va) ps) va
    | _ => .missing [pageOf va] va
  | .held :: gs =>
    match gather gs with
    | .ok _ => .held
    | x => x
  | .ok a :: gs =>
    match gather gs with
    | .ok l => .ok (a :: l)
    | x => x

/-- The engine of a round. -/
def State.agentOf (s : State) (n : Nat) : Agent :=
  match s.rounds[n]? with
  | none => { core := 0, part := 16, user := true, round := none }
  | some r => { core := r.core, part := (s.teamOf r).part, user := !r.priv, round := some n }

/-- The physical address of an engine's access (R286, R288). -/
def State.engineXlat (s : State) (a : Agent) (write : Bool) (va : Word) : Got Nat :=
  match translate s a.core (s.part a.part) { write := write, fetch := false, user := a.user } va with
  | .ok pa => .ok pa
  | .missing _ => .missing va
  | .refused _ => .fault va 0x61
  | .held => .held

/-- A byte of memory at its home slice; a lasting sector is a fault (R169, R170, R289). -/
def State.readVirtual (s : State) (a : Agent) (va : Word) : Got Byte :=
  (s.engineXlat a false va).bind (fun pa => if s.isLasting pa then .fault va 0x63 else .ok (Memory.read s.mem pa))

/-- The host bus address of a host-window offset (R333), or none where the table refuses it. -/
def hostTranslate (p : Partition) (write : Bool) (off : Word) : Option Nat :=
  if 2 ^ 33 ≤ off.toNat then none
  else
    let e := SMap.get p.hostWin 0 (off.toNat / 2 ^ 21)
    if !e.getLsbD 0 || bits e 20 3 != 0 || (write && !e.getLsbD 2) || (!write && !e.getLsbD 1) then none
    else some (bits e 63 21 * 2 ^ 21 + off.toNat % 2 ^ 21)

/-- A scratchpad byte of an agent's team. -/
def State.readSpad (s : State) (a : Agent) (addr : Nat) : Byte :=
  match a.round.bind (fun n => s.rounds[n]?) with
  | none => 0
  | some r => Memory.read (s.teamOf r).spad addr

/-- A source byte by kind (0 memory, 1 scratchpad, 2 host) at its point of coherence; host memory returns free values (R285). -/
def State.sourceByte (s : State) (a : Agent) (kind : Nat) (addr : Word) : Got Byte :=
  match kind with
  | 0 => s.readVirtual a addr
  | 1 => .ok (s.readSpad a addr.toNat)
  | _ =>
    match hostTranslate (s.part a.part) false addr with
    | some _ => .ok (Config.hostByte s.free addr.toNat)
    | none => .fault addr 0x61

/-- A range of bytes that a member reads: kind, address and length. -/
structure Source where
  kind : Nat
  base : Word
  len : Nat
  deriving DecidableEq, Repr

/-- Whether a range holds an address. -/
def Source.has (x : Source) (a : Word) : Bool := decide ((a - x.base).toNat < x.len)

/-- The key of a source byte in what a member has read. -/
def sourceKey (kind : Nat) (a : Word) : Nat := 4 * a.toNat + kind

/-- The naturally aligned 8-byte word that holds an address. -/
def wordAddr (a : Word) : Word := a &&& ~~~7

/-- A source word as a member reads it: the bytes that its range covers, at one instant (R169). -/
def State.sourceWord (s : State) (a : Agent) (x : Source) (w : Word) : List (Got (Nat × Byte)) :=
  (((List.range 8).map (fun i => w + BitVec.ofNat 64 i)).filter x.has).map (fun b =>
    (s.sourceByte a x.kind b).bind (fun v => .ok (sourceKey x.kind b, v)))

/-- Adds bytes to what a member has read. -/
def Member.note (m : Member) (l : List (Nat × Byte)) : Member := { m with read := l.foldl (fun acc b => SMap.set acc b.1 b.2) m.read }

/-- Element bytes, and the byte lengths of the plain and the interleaved form (R165). -/
def InterleaveDesc.eb (d : InterleaveDesc) : Nat := 2 ^ d.esz
def InterleaveDesc.plain (d : InterleaveDesc) : Nat := d.nch * d.npos * d.eb
def InterleaveDesc.woven (d : InterleaveDesc) : Nat := (d.nch + d.f - 1) / d.f * d.npos * d.f * d.eb

/-- What a member reads (R163 to R165, R195): for a placement, the buffer at base of its current pass. -/
def Work.sources (t : Team) : Work → List Source
  | .copy kind src _ _ len => [{ kind := kind, base := src, len := len }]
  | .regs kind addrs mask _ count _ => (lanesOf mask).map (fun l => { kind := kind, base := laneOf addrs l, len := 8 * count })
  | .interleave unpack d => [{ kind := d.srcKind, base := d.src, len := if unpack then d.woven else d.plain }]
  | .place k _ =>
    let w := (t.layouts.getD k { words := [], plan := none }).words
    [{ kind := recKind w, base := recBase w, len := recSpan w }]

/-- What a member writes (R163 to R165, R195): for a placement, the buffer that its current pass fills. -/
def Work.targets (t : Team) : Work → List Source
  | .copy _ _ kind dst len => [{ kind := kind, base := dst, len := len }]
  | .regs _ _ _ _ _ _ => []
  | .interleave unpack d => [{ kind := d.dstKind, base := d.dst, len := if unpack then d.plain else d.woven }]
  | .place k _ =>
    let w := (t.layouts.getD k { words := [], plan := none }).words
    [{ kind := recKind w, base := recAlt w, len := recSpan w }]

/-- All unfinished members of a round, oldest batch first. -/
def Round.members (r : Round) : List Member := r.sealed.flatMap (fun b => b.members) ++ r.openBatch.members

/-- A source byte as a member takes it: what it has read of it (R169), else what stands at the point of coherence now. -/
def State.memberByte (s : State) (a : Agent) (m : Member) (kind : Nat) (addr : Word) : Got Byte :=
  match SMap.find m.read (sourceKey kind addr) with
  | some b => .ok b
  | none => s.sourceByte a kind addr

/-- The member once it has read, whole and at one instant, the source words that hold some addresses (R169). -/
def State.readWords (s : State) (a : Agent) (ranges : List Source) (addrs : List Word) (m : Member) : Member :=
  ranges.foldl (fun m x =>
    (addrs.filter x.has).foldl (fun m b =>
      if (SMap.find m.read (sourceKey x.kind b)).isSome then m
      else
        match gather (s.sourceWord a x (wordAddr b)) with
        | .ok l => m.note l
        | _ => m) m) m

/-- Changes every member of a round. -/
def Round.mapMembers (r : Round) (f : Member → Member) : Round :=
  let g (b : Batch) : Batch := { b with members := b.members.map f }
  { r with openBatch := g r.openBatch, sealed := r.sealed.map g }

/-- The offsets in a range of virtual addresses at which a physical byte stands, by the translation of its pages. -/
def offsetsAt (tr : Word → Option Nat) (base : Word) (len at_ : Nat) : List Nat :=
  ((List.range ((base.toNat % pageBytes + len + pageBytes - 1) / pageBytes)).map (fun i =>
    pageOf base + BitVec.ofNat 64 (pageBytes * i))).filterMap (fun p =>
      match tr p with
      | some pa =>
        let k := (p + BitVec.ofNat 64 (at_ % pageBytes) - base).toNat
        if pa / pageBytes = at_ / pageBytes && k < len then some k else none
      | none => none)

/-- The addresses in a range at which a byte of device memory or of the scratchpad stands. -/
def State.addressesOf (s : State) (a : Agent) (x : Source) (spad : Bool) (at_ : Nat) : List Word :=
  if spad then (if x.kind = 1 && x.has (BitVec.ofNat 64 at_) then [BitVec.ofNat 64 at_] else [])
  else if x.kind != 0 then []
  else
    (offsetsAt (fun p => match s.engineXlat a false p with | .ok pa => some pa | _ => none) x.base x.len at_).map (fun k =>
      x.base + BitVec.ofNat 64 k)

/-- The entry of a rank word in a partition's tables (R364). -/
def Partition.named (p : Partition) (w : Word) : Word := p.entry (bits w 23 16) (bits w 12 0)

/-- The package, the die and the port set of an entry (R327, R364). -/
def entryPkg (e : Word) : Nat := bits e 9 0
def entryDie (e : Word) : Nat := bits e 12 10
def entryPorts (e : Word) : Nat := bits e 31 16

/-- Start and length of part p of an extent over a parts (R344). -/
def splitPart (e a p : Nat) : Nat × Nat :=
  (p * (e / a) + min p (e % a), if p < e % a then e / a + 1 else e / a)

/-- Whether a rank has a valid entry in a job's table (R351 reason 7). -/
def Partition.validRank (p : Partition) (job rank : Nat) : Bool := decide (rank < 6144) && (p.entry job rank).getLsbD 63

/-- A user access of an engine through its partition's tables (R352). -/
def userXlat (s : State) (part : Nat) (write : Bool) (va : Word) : Xlat :=
  translateWalk s (s.part part) { write := write, fetch := false, user := true } va

/-- A byte that the Courier or the collective engine writes as a user (R352, R353, R383). -/
def State.userDest (s : State) (part : Nat) (va : Word) : Got Nat :=
  match userXlat s part true va with
  | .ok pa => .ok pa
  | .missing _ => .missing va
  | .refused _ => .fault va 0x61
  | .held => .held

/-- A byte that an engine reads as a user from its own partition (R352, R358, R383). -/
def State.userByte (s : State) (part : Nat) (va : Word) : Got Byte :=
  match userXlat s part false va with
  | .ok pa => if s.isLasting pa then .fault va 0x63 else .ok (Memory.read s.mem pa)
  | .missing _ => .missing va
  | .refused _ => .fault va 0x61
  | .held => .held

/-- The partition of this package through whose tables the Courier reads a rank (R352, R365): its own, or another one in which some rank of
that job number is the issuing die. -/
def State.sourcePart (s : State) (j : CourierJob) (rank : Nat) : Option Nat :=
  let e := (s.part j.part).entry j.table rank
  if entryPkg e != s.package.number then none
  else
    match (s.die (entryDie e)).part with
    | none => none
    | some q => if q = j.part || ((s.part q).rankOf j.table s.package.number j.die).isSome then some q else none

/-- A source byte at a rank (R352): from this package through the tables of its die's partition, or as another package returned it.
A source-side failure records REMOTE_FAULT. -/
def State.segmentByte (s : State) (j : CourierJob) (x : Segment) (outside : ExtData) (i : Nat) : Got Byte :=
  let va := x.srcAddr + BitVec.ofNat 64 i
  if !(s.part j.part).validRank j.table x.srcRank then .fault va 0x81
  else if entryPkg ((s.part j.part).entry j.table x.srcRank) != s.package.number then
    match outside with
    | .bytes l => .ok (l.getD i 0)
    | .fail c => .fault x.srcAddr (if c = 0x82 then 0x82 else 0x81)
    | .none => .ok 0
  else
    match s.sourcePart j x.srcRank with
    | none => .fault va 0x81
    | some q =>
      match s.userByte q va with
      | .ok b => .ok b
      | .held => .held
      | .missing va => if q = j.part then .missing va else .fault va 0x81
      | .fault va _ => .fault va 0x81

/-- The address of a byte that an engine reads as a user, where it can be read. -/
def State.userAt (s : State) (part : Nat) (va : Word) : Option Nat :=
  match userXlat s part false va with
  | .ok pa => some pa
  | _ => none

/-- Element bytes and floating-point format of a collective's type (R378); none for any other type. -/
def collType (etype : Nat) : Option (Nat × Option Fmt) :=
  match etype with
  | 0x00 => some (8, some .fp64)
  | 0x01 => some (4, some .fp32)
  | 0x03 => some (2, some .bf16)
  | 0x82 => some (4, none)
  | 0x83 => some (8, none)
  | _ => none

def collBytes (etype : Nat) : Nat := ((collType etype).map (fun x => x.1)).getD 1

/-- Elements and first element of participant i (R378). -/
def Coll.part_ (c : Coll) (i : Nat) : Nat × Nat := splitPart c.count c.ranks.length i

/-- Source bytes of participant i (R381). -/
def Coll.sourceLength (c : Coll) (i : Nat) : Nat :=
  if c.bfp4 then c.count / 2 + c.count / 32
  else if c.kind = 1 then (c.part_ i).2 * collBytes c.etype
  else c.count * collBytes c.etype

/-- The addresses of a participant's source bytes. -/
def Coll.sourceVas (c : Coll) (i : Nat) : List Word := (List.range (c.sourceLength i)).map (fun k => c.src + BitVec.ofNat 64 k)

/-- The number of a byte of segment k in what a job has read or written of it. -/
def segmentKey (k i : Nat) : Nat := 4096 * k + i

/-- The naturally aligned 8-byte word of a range from `base`, of len bytes, that holds its byte i: the offsets of its bytes. -/
def wordOffsets (base : Word) (len i : Nat) : List Nat :=
  (List.range 8).filterMap (fun k =>
    let o := (wordAddr (base + BitVec.ofNat 64 i) + BitVec.ofNat 64 k - base).toNat
    if o < len then some o else none)

/-- A job once it has read, each at one instant, the source words of segment k that hold the bytes at some offsets (R352). -/
def State.readSegment (s : State) (j : CourierJob) (k : Nat) (outside : ExtData) (offsets : List Nat) : CourierJob :=
  match j.plan[k]? with
  | none => j
  | some x =>
    offsets.foldl (fun j i =>
      if x.len ≤ i || (SMap.find j.read (segmentKey k i)).isSome then j
      else
        match gather ((wordOffsets x.srcAddr x.len i).map (fun o => (s.segmentByte j x outside o).bind (fun b => Got.ok (segmentKey k o, b)))) with
        | .ok l => { j with read := l.foldl (fun acc b => SMap.set acc b.1 b.2) j.read }
        | _ => j) j

/-- A collective once it has read, each at one instant, the source words of its own that hold the bytes at some offsets (R383). -/
def State.readColl (s : State) (c : Coll) (offsets : List Nat) : Coll :=
  let len := c.sourceLength (c.ranks.idxOf c.rank)
  offsets.foldl (fun c i =>
    if len ≤ i || (SMap.find c.read i).isSome then c
    else
      match gather ((wordOffsets c.src len i).map (fun o => (s.userByte c.part (c.src + BitVec.ofNat 64 o)).bind (fun b => Got.ok (o, b)))) with
      | .ok l => { c with read := l.foldl (fun acc b => SMap.set acc b.1 b.2) c.read }
      | _ => c) c

/-- Whether a member uses the TX path (R302): placement passes; other members use CP. -/
def Member.isTx (m : Member) : Bool :=
  match m.work with
  | .place _ _ => true
  | _ => false

end Sys2Proof.Machine
end

