-- ==== Sys2Proof/Machine/Accesses.lean ====
section
/-! DEFINITION. Accesses as they take effect at their points of coherence (R284, R385 to R389): the units of an access, accesses left
pending, the reads that a later read of the round makes come first, and what a release, a fence or a later access makes take effect
first. -/
namespace Sys2Proof.Machine

/-- Marks the entries that a load of round n was served from (R296). -/
def State.noteServed (s : State) (n core : Nat) (addrs : List Nat) : State :=
  { s with stores := s.stores.map (fun e =>
      if e.core == core && !e.seen.contains n && addrs.any (fun a => (SMap.find e.bytes a).isSome) then { e with seen := e.seen ++ [n] } else e) }

/-- The entries to some bytes that served a load of round n leave before the round reads those bytes at their home slices (R284, R387
law 4). -/
def State.sendServed (s : State) (n : Nat) (addrs : List Nat) : State :=
  s.drainStores (fun e => e.seen.contains n && addrs.any (fun a => (SMap.find e.bytes a).isSome))

/-- The units of an access of z bytes, as byte offsets (R152, R291): whole chunks of up to 8 bytes where it is aligned, else bytes. -/
def unitsOf (z at_ : Nat) : List (List Nat) :=
  let w := min z 8
  if at_ % w = 0 then (List.range (z / w)).map (fun k => (List.range w).map (fun i => w * k + i)) else (List.range z).map (fun i => [i])

/-- The units of the lanes of an access, each lane with the addresses of its bytes; `data` gives the bytes that a lane stores. -/
def piecesOf (z : Nat) (lanes : List (Nat × List Nat)) (data : Nat → List Byte) : List Piece :=
  lanes.flatMap (fun p => (unitsOf z (p.2.headD 0)).map (fun os =>
    { lane := p.1, ofs := os.headD 0, addrs := os.map (fun i => p.2.getD i 0), data := os.map (fun i => (data p.1).getD i 0), b := 0, c := 0 }))

/-- The addresses of the bytes of scratchpad lanes. -/
def spadLanesOf (z : Nat) (addrs : List (Nat × Word)) : List (Nat × List Nat) :=
  addrs.map (fun p => (p.1, (List.range z).map (fun i => p.2.toNat + i)))

/-- Whether two units share a byte. -/
def Piece.meets (p q : Piece) : Bool := p.addrs.any (fun a => q.addrs.contains a)

/-- Whether an access still has a unit on one of some bytes. -/
def Access.touches (a : Access) (spad : Bool) (addrs : List Nat) : Bool :=
  a.spad == spad && a.pieces.any (fun p => p.addrs.any (fun x => addrs.contains x))

/-- Whether an access is an acquire (R54). -/
def Access.acquires (a : Access) : Bool := a.sem % 2 == 1

/-- The result of an atomic operation on z-byte values (R58, R156, R294). DEDUCED: log entry 37. -/
def atomicOp (op z : Nat) (unsigned : Bool) (old b : Nat) : Nat :=
  let e := 8 * z
  match op with
  | 0 => (old + b) % 2 ^ e
  | 1 => minE e unsigned old b
  | 2 => maxE e unsigned old b
  | 3 => Nat.land old b
  | 4 => Nat.lor old b
  | 5 => Nat.xor old b
  | 6 => b
  | _ => fpAdd (if z = 4 then .fp32 else if z = 8 then .fp64 else .bf16) .rne false old b

/-- The value that a step of an access leaves in place of an old one of z bytes, with operands b and c (R156, R294). -/
def AccessOp.value (op : AccessOp) (z b c old : Nat) : Nat :=
  match op with
  | .atomic o u => atomicOp o z u old (b % 2 ^ (8 * z))
  | .compare => if old = b then c else old
  | .load => old
  | .store => old

/-- Bytes at a point of coherence: of the round's team's scratchpad, or of memory. -/
def State.pointRead (s : State) (r : Round) (spad : Bool) (addrs : List Nat) : List Byte :=
  addrs.map (Memory.read (if spad then (s.teamOf r).spad else s.mem))

/-- Writes bytes at a point of coherence. -/
def State.pointWrite (s : State) (r : Round) (spad : Bool) (bytes : List (Nat × Byte)) : State :=
  if spad then s.modTeam r (fun t => t.writeSpad bytes) else s.writeBytes bytes

/-- The core's buffered entries to some bytes leave (R294, R295). -/
def State.sendEarlier (s : State) (core : Nat) (addrs : List Nat) : State :=
  s.drainStores (fun e => e.core == core && addrs.any (fun a => (SMap.find e.bytes a).isSome))

/-- Whether an access reads. -/
def Access.isRead (a : Access) : Bool := a.op != .store

/-- What a unit of an element of 4 bits obtains of its byte (R188). -/
def Piece.taken (p : Piece) (bytes : List Byte) : List Byte :=
  if p.b = 0 then bytes else bytes.map (fun x => BitVec.ofNat 8 (if p.b = 1 then x.toNat % 16 else x.toNat / 16))

/-- The bytes that a unit stores over old ones: of an element of 4 bits only its half of the byte (R189). -/
def Piece.stored (p : Piece) (old : List Byte) : List Byte :=
  if p.b = 0 then p.data
  else
    (p.data.zip old).map (fun x =>
      BitVec.ofNat 8 (if p.b = 1 then x.1.toNat % 16 + x.2.toNat / 16 * 16 else x.1.toNat % 16 * 16 + x.2.toNat % 16))

/-- One unit takes effect: the new state, and the bytes that it obtained or stored. -/
def State.performPiece (s : State) (n : Nat) (r : Round) (a : Access) (p : Piece) : State × List Byte :=
  match a.op with
  | .load =>
    if a.spad then (s, p.taken (s.pointRead r true p.addrs))
    else if a.path = 0 then (s.noteServed n r.core p.addrs, p.addrs.map (s.coreRead r.core))
    else
      let s1 := s.sendServed n p.addrs
      (s1, p.taken (s1.pointRead r false p.addrs))
  | .store =>
    let s1 := if a.spad || a.path != 0 then s else s.sendEarlier r.core p.addrs
    let l := p.stored (s1.pointRead r a.spad p.addrs)
    (s1.pointWrite r a.spad (p.addrs.zip l), l)
  | op =>
    let s1 := if a.spad then s else s.sendEarlier r.core p.addrs
    let old := s1.pointRead r a.spad p.addrs
    let z := p.addrs.length
    (s1.pointWrite r a.spad (p.addrs.zip (toBytes z (op.value z p.b p.c (ofBytes old)))), old)

/-- Whether a unit of an access goes before another, which a later lane issued: units that share a byte do (R291, R294), and so do all
those of a scratchpad atomic (R156). -/
def Access.inOrder (a : Access) (p q : Piece) : Bool :=
  match a.op with
  | .load => false
  | .store => p.meets q
  | _ => a.spad || p.meets q

/-- The units of an access that take effect when some are asked for, and those that remain. -/
def Access.picks (a : Access) (units : Option (List Nat)) : List Piece × List Piece :=
  a.pieces.zipIdx.foldl (fun acc q =>
    if (units.map (fun l => l.contains q.2)).getD true && !acc.2.any (fun x => a.inOrder x q.1) then (acc.1 ++ [q.1], acc.2)
    else (acc.1, acc.2 ++ [q.1])) ([], [])

/-- Units take effect in order. -/
def State.performPieces (n : Nat) (r : Round) : State → Access → List Piece → State × Access
  | s, a, [] => (s, a)
  | s, a, p :: ps =>
    let (s1, bytes) := s.performPiece n r a p
    State.performPieces n r s1
      { a with got := bytes.zipIdx.foldl (fun acc b => SMap.set acc (64 * p.lane + p.ofs + b.2) b.1) a.got } ps

/-- The lane vectors that a load of z bytes delivers, zero-extended, lowest register first (R55, R291). -/
def loadedRegs (n : Nat) (bytes : Nat → List Byte) : List Lanes :=
  (List.range n).map (fun k => tab (fun l => BitVec.ofNat 64 (ofBytes (((bytes l).drop (8 * k)).take 8))))

/-- A whole access delivers what it obtained. -/
def Access.deliver (a : Access) (r : Round) : Round :=
  writeRun a.mask a.dst (loadedRegs a.regs (fun l => (List.range (8 * a.regs)).map (fun i => SMap.get a.got 0 (64 * l + i)))) r

/-- Promotion before the load of an .acqp access (R298). -/
def State.promoteFor (s : State) (r : Round) (a : Access) : State := if a.op = .load && a.sem = 3 then s.promote r a.scope else s

/-- Units of a pending access of round n take effect, whatever the round reads elsewhere; the access is over with its last unit. -/
def State.performUnits (s : State) (n id : Nat) (units : Option (List Nat)) : State :=
  match s.rounds[n]?, s.rounds[n]?.bind (fun r => r.pending.find? (fun a => a.id == id)) with
  | some r, some a =>
    let (go, stay) := a.picks units
    if go.isEmpty then s
    else
      let (s1, a1) := State.performPieces n r (s.promoteFor r a) a go
      match s1.rounds[n]? with
      | none => s1
      | some q =>
        s1.setRoundAt n (if stay.isEmpty then a1.deliver { q with pending := q.pending.filter (fun x => x.id != id) }
          else { q with pending := q.pending.map (fun x => if x.id == id then { a1 with pieces := stay } else x) })
  | _, _ => s

/-- The units of an access that must take effect where those on some bytes do: of a store also the earlier units that they follow, of an
atomic all (R156, R291, R294). -/
def Access.unitsOn (a : Access) (addrs : List Nat) : Option (List Nat) :=
  match a.op with
  | .load => some ((a.pieces.zipIdx.filter (fun p => p.1.addrs.any (fun x => addrs.contains x))).map (fun p => p.2))
  | .store =>
    some (a.pieces.zipIdx.foldr (fun p (acc : List Nat × List Nat) =>
      if p.1.addrs.any (fun x => acc.1.contains x) then (acc.1 ++ p.1.addrs, p.2 :: acc.2) else acc) (addrs, [])).2
  | _ => none

/-- The bytes of some units of an access. -/
def Access.bytesOn (a : Access) (units : Option (List Nat)) : List Nat :=
  (a.pieces.zipIdx.filter (fun p => (units.map (fun l => l.contains p.2)).getD true)).flatMap (fun p => p.1.addrs)

/-- A read of a round that has been issued and is not over: a pending load or atomic, a batch member, a Courier job, a collective. -/
inductive Reader where
  | access (id : Nat)
  | member (id : Nat)
  | job (i : Nat)
  | coll (i : Nat)
  deriving DecidableEq, Repr

/-- The reads of round n that are older than `before` and not over, in program order. -/
def State.readers (s : State) (n before : Nat) : List (Nat × Reader) :=
  match s.rounds[n]? with
  | none => []
  | some r =>
    let all : List (Nat × Reader) :=
      (r.pending.filter Access.isRead).map (fun a => (a.id, .access a.id)) ++ r.members.map (fun m => (m.id, .member m.id))
        ++ (s.jobs.zipIdx.filter (fun j => j.1.round == some n && (j.1.state == .waiting || j.1.state == .running))).map (fun j => (j.1.id, .job j.2))
        ++ (s.colls.zipIdx.filter (fun c => c.1.round == n && c.1.out.isNone && (c.1.state == .waiting || c.1.state == .running))).map (fun c =>
          (c.1.id, .coll c.2))
    (all.filter (fun x => x.1 < before)).foldl (fun acc x => insertBy (fun a b => decide (a.1 < b.1)) x acc) []

/-- The offsets of a job's segments at which bytes of memory stand that it has not read, by segment. -/
def State.jobOffsets (s : State) (j : CourierJob) (addrs : List Nat) : List (Nat × List Nat) :=
  j.plan.zipIdx.filterMap (fun x =>
    if x.2 < j.committed || j.done.contains x.2 then none
    else
      match s.sourcePart j x.1.srcRank with
      | none => none
      | some q =>
        match (addrs.flatMap (offsetsAt (s.userAt q) x.1.srcAddr x.1.len)).filter (fun i => (SMap.find j.read (segmentKey x.2 i)).isNone) with
        | [] => none
        | is => some (x.2, is))

/-- The offsets of a collective's source at which bytes of memory stand that it has not read. -/
def State.collOffsets (s : State) (c : Coll) (addrs : List Nat) : List Nat :=
  (addrs.flatMap (offsetsAt (s.userAt c.part) c.src (c.sourceLength (c.ranks.idxOf c.rank)))).filter (fun i => (SMap.find c.read i).isNone)

/-- The bytes of the 8-byte words that hold some bytes. -/
def wholeWords (addrs : List Nat) : List Nat := addrs.flatMap (fun a => (List.range 8).map (fun k => a / 8 * 8 + k))

/-- The bytes that a reader of round n takes where it must read some bytes now, its units and words being whole; none where it has none
of them to read. -/
def State.readerTakes (s : State) (n : Nat) (spad : Bool) (addrs : List Nat) : Reader → List Nat
  | .access id =>
    match s.rounds[n]?.bind (fun r => r.pending.find? (fun a => a.id == id)) with
    | some a => if a.touches spad addrs then a.bytesOn (a.unitsOn addrs) else []
    | none => []
  | .member id =>
    match s.rounds[n]?, s.rounds[n]?.bind (fun r => r.members.find? (fun m => m.id == id)) with
    | some r, some m =>
      wholeWords (addrs.filter (fun x => (m.work.sources (s.teamOf r)).any (fun src =>
        (s.addressesOf (s.agentOf n) src spad x).any (fun va => (SMap.find m.read (sourceKey src.kind va)).isNone))))
    | _, _ => []
  | .job i =>
    match s.jobs[i]? with
    | some j => if spad then [] else wholeWords (addrs.filter (fun x => !(s.jobOffsets j [x]).isEmpty))
    | none => []
  | .coll i =>
    match s.colls[i]? with
    | some c => if spad then [] else wholeWords (addrs.filter (fun x => !(s.collOffsets c [x]).isEmpty))
    | none => []

/-- A reader of round n reads some bytes now. -/
def State.readNow (s : State) (n : Nat) (spad : Bool) (addrs : List Nat) : Reader → State
  | .access id =>
    match s.rounds[n]?.bind (fun r => r.pending.find? (fun a => a.id == id)) with
    | some a => if a.touches spad addrs then s.performUnits n id (a.unitsOn addrs) else s
    | none => s
  | .member id =>
    let s := if spad then s else s.sendServed n addrs
    match s.rounds[n]? with
    | some r =>
      let a := s.agentOf n
      s.setRoundAt n (r.mapMembers (fun m =>
        if m.id != id then m
        else (m.work.sources (s.teamOf r)).foldl (fun m x => s.readWords a [x] (addrs.flatMap (s.addressesOf a x spad)) m) m))
    | none => s
  | .job i =>
    let s := s.sendServed n addrs
    match s.jobs[i]? with
    | some j => { s with jobs := s.jobs.set i ((s.jobOffsets j addrs).foldl (fun j x => s.readSegment j x.1 .none x.2) j) }
    | none => s
  | .coll i =>
    let s := s.sendServed n addrs
    match s.colls[i]? with
    | some c => { s with colls := s.colls.set i (s.readColl c (s.collOffsets c addrs)) }
    | none => s

/-- The older reads of round n that read bytes which a read now takes, or which one of them takes then, read them first, the oldest first:
two reads of one round never return the writes of a byte in descending order, whatever their paths (R284, R387 law 4). -/
def State.serveReads (s : State) (n before : Nat) (spad : Bool) (addrs : List Nat) : State :=
  match s.readers n before with
  | [] => s
  | rs =>
    let picked := (rs.foldr (fun x (acc : List Nat × List (Reader × List Nat)) =>
      match s.readerTakes n spad acc.1 x.2 with
      | [] => acc
      | l => (acc.1 ++ l, (x.2, l) :: acc.2)) (addrs, [])).2
    picked.foldl (fun s x => s.readNow n spad x.2 x.1) s

/-- What a read of round n now makes its older reads that are not over read first (R284). -/
def State.capture (s : State) (n : Nat) (spad : Bool) (addrs : List Nat) : State := s.serveReads n s.nextId spad addrs

/-- Units of a pending access of round n take effect; of a read, after the round's older reads of those bytes. -/
def State.perform (s : State) (n id : Nat) (units : Option (List Nat)) : State :=
  match s.rounds[n]?.bind (fun r => r.pending.find? (fun a => a.id == id)) with
  | some a => (if a.isRead then s.serveReads n id a.spad (a.bytesOn units) else s).performUnits n id units
  | none => s

/-- The pending accesses of `p` take effect whole, each round's in program order. -/
def State.performAll (s : State) (p : Nat → Round → Access → Bool) : State :=
  (s.rounds.zipIdx.flatMap (fun q => (q.1.pending.filter (p q.2 q.1)).map (fun a => (q.2, a.id)))).foldl (fun s x => s.perform x.1 x.2 none) s

/-- The pending accesses of `p` take effect on some bytes, each round's in program order. -/
def State.performOn (s : State) (p : Nat → Round → Access → Bool) (spad : Bool) (addrs : List Nat) : State :=
  (s.rounds.zipIdx.flatMap (fun q => (q.1.pending.filter (fun a => p q.2 q.1 a && a.touches spad addrs)).map (fun a =>
    (q.2, a.id, a.unitsOn addrs)))).foldl (fun s x => s.perform x.1 x.2.1 x.2.2) s

/-- Acquires of round n take effect before its later LS-path and FB-path accesses (R297, R374), and so do the reads behind a release,
which an acquire may have found (R386, R388). DEDUCED: log entry 10. -/
def State.settleAcquires (s : State) (n : Nat) : State :=
  s.performAll (fun m _ a => (m == n && a.path == 0 && a.acquires) || (a.released && a.isRead))

/-- Whether an access behind a release must be found by a later access to scratchpad bytes of a team, or to memory. -/
def Access.binds (a : Access) (spad : Bool) (team : Nat) (q : Round) : Bool := a.released && (!spad || q.team == team)

/-- What takes effect before an LS-path access of round n to some bytes: its acquires; and on those bytes its own LS-path accesses, those
behind a release, and the pairs of its core (R157, R284, R295, R297, R386). -/
def State.orderBefore (s : State) (n : Nat) (spad : Bool) (addrs : List Nat) : State :=
  match s.rounds[n]? with
  | none => s
  | some r =>
    (s.settleAcquires n).performOn (fun m q a =>
      (m == n && a.path == 0) || a.binds spad r.team q || (!spad && a.path == 0 && a.op == .store && q.core == r.core)) spad addrs

/-- A stream of accesses: path p of round n (R302, R385). -/
def streamOf (n path : Nat) : Nat := 8 * n + path

/-- What takes effect before a path of round n other than the LS path reads or writes some bytes: what a fence has shown to it (R264, R301,
R386), the reads on any bytes (R388). -/
def State.settleFor (s : State) (n path : Nat) (spad : Bool) (addrs : List Nat) : State :=
  let k := streamOf n path
  let s1 := (s.performAll (fun _ _ a => a.shown.contains k && a.isRead)).performOn (fun _ _ a => a.shown.contains k) spad addrs
  if spad then s1 else s1.drainStores (fun e => e.shown.contains k && addrs.any (fun a => (SMap.find e.bytes a).isSome))

/-- What takes effect before a read of some bytes on a path of round n other than the LS path: what a fence has shown to it, the round's
reads of those bytes older than `before`, and the stores that served its loads of them (R284, R387 law 4). -/
def State.readyReads (s : State) (n path before : Nat) (spad : Bool) (addrs : List Nat) : State :=
  let s1 := (s.settleFor n path spad addrs).serveReads n before spad addrs
  if spad then s1 else s1.sendServed n addrs

/-- The round's own TLD and TST accesses to some bytes, those older than `before`, take effect before its later TX-path accesses to them
(R189). -/
def State.settleTx (s : State) (n before : Nat) (spad : Bool) (addrs : List Nat) : State :=
  s.performOn (fun m _ a => m == n && a.path == 1 && a.id < before) spad addrs

/-- The bytes at addresses of a kind, where they stand in the scratchpad or in memory. -/
def State.placesOf (s : State) (n kind : Nat) (write : Bool) (addrs : List Word) : Bool × List Nat :=
  match kind with
  | 0 => (false, addrs.filterMap (fun a => match s.engineXlat (s.agentOf n) write a with | .ok pa => some pa | _ => none))
  | 1 => (true, addrs.map (fun a => a.toNat))
  | _ => (false, [])

/-- The path of a member's accesses (R302): TX for a placement, else CP. -/
def Member.path (m : Member) : Nat := if m.isTx then 1 else 2

/-- Whether nothing waits that an engine's access could find: no access is pending, no buffered entry, and no other read of round n. -/
def State.settled (s : State) (n : Nat) : Bool :=
  s.stores.isEmpty && s.rounds.all (fun r => r.pending.isEmpty) && (s.readers n s.nextId).length ≤ 1

/-- The state as a member of round n reads bytes at some addresses of a kind. -/
def State.readyMember (s : State) (n : Nat) (m : Member) (kind : Nat) (addrs : List Word) : State :=
  if s.settled n then s
  else
    let l := s.placesOf n kind false addrs
    let s1 := if m.isTx then s.settleTx n m.id l.1 l.2 else s
    s1.readyReads n m.path m.id l.1 l.2

/-- The state as a member of round n writes bytes at some addresses of a kind. A pass also lets the TLDs of its team read first what it
overwrites (R201). -/
def State.readyWrite (s : State) (n : Nat) (m : Member) (kind : Nat) (addrs : List Word) : State :=
  if s.settled n then s
  else
    let l := s.placesOf n kind true addrs
    let s1 := s.settleFor n m.path l.1 l.2
    if !m.isTx then s1
    else
      let team := (s.rounds[n]?.map (fun r => r.team)).getD 0
      (s1.settleTx n m.id l.1 l.2).performOn (fun _ q a => q.team == team && a.path == 1 && a.isRead) l.1 l.2

/-- The LS-path part of a release of the round at position `n` (R297): its pending accesses must be found by what follows the release, and
at team or core scope its buffered entries too (R298); at cluster scope and wider its entries, and those of its core behind a narrower
release that it may have acquired (R386), leave and are acknowledged. DEDUCED: log entry 10. -/
def State.releaseStores (s : State) (n scope : Nat) : State :=
  if scope = 0 then s
  else
    match s.rounds[n]? with
    | none => s
    | some r =>
      let s1 := s.setRoundAt n { r with pending := r.pending.map (fun a => if a.path = 0 then { a with released := true } else a) }
      if scope ≤ 2 then { s1 with stores := s1.stores.map (fun e => if e.round == n then { e with released := true } else e) }
      else
        let s2 := s1.drainStores (fun e => e.round == n || (e.core == r.core && e.released))
        match s2.rounds[n]? with
        | none => s2
        | some q => s2.setRoundAt n { q with dieCtr := 0, pkgCtr := 0 }

/-- Whether some of the paths of a round find what stands behind a release or is shown to streams: its LS path finds the first (R386). -/
def found (n : Nat) (from_ : List Nat) (bound : Bool) (shown : List Nat) : Bool :=
  from_.any (fun p => (p == 0 && bound) || shown.contains (streamOf n p))

/-- What some paths of round n find, other paths of it find from now on, through a fence or a wait (R301, R302, R386): accesses to its
team's scratchpad and to memory, and the buffered entries of its core. -/
def State.shows (s : State) (n : Nat) (sources targets : List Nat) : State :=
  match s.rounds[n]? with
  | none => s
  | some r =>
    let add (l : List Nat) : List Nat := l ++ (targets.map (streamOf n)).filter (fun k => !l.contains k)
    { s with
      rounds := s.rounds.map (fun q => { q with pending := q.pending.map (fun a =>
        if found n sources (a.binds a.spad r.team q) a.shown then { a with shown := add a.shown } else a) })
      stores := s.stores.map (fun e => if found n sources (e.core == r.core && e.released) e.shown then { e with shown := add e.shown } else e) }

/-- The paths other than LS (R57): TX, CP, MX, FB and CR. -/
def otherPaths : List Nat := [1, 2, 3, 4, 5]

/-- What a fence that names the LS path makes take effect (R301): the round's own LS-path accesses and its buffered entries. -/
def State.pushLs (s : State) (n : Nat) : State :=
  (s.performAll (fun m _ a => m == n && a.path == 0)).drainStores (fun e => e.round == n)

/-- What a fence or a wait that names the TX path makes take effect at once (R167, R301): the round's own TLD and TST accesses. -/
def State.pushTx (s : State) (n : Nat) : State := s.performAll (fun m _ a => m == n && a.path == 1)

/-- The start of an instruction that orders as an LS-path access and names no bytes: the round's acquires come first (R161). -/
def beginSettled (s : State) (g : Guard) (fs : List Field) (touched : List Nat) (k : State → Round → Mask → List Lanes → Res) : Res :=
  begin (s.settleAcquires s.cur) g fs touched k

/-- A read of scratchpad bytes that takes its whole effect at once, with the ordering of a plain LDS (R157, R284). -/
def State.readSpadNow (s : State) (addrs : List Nat) : State := (s.orderBefore s.cur true addrs).capture s.cur true addrs

/-- Reads scratchpad bytes at one instant, as plain LDS accesses do, and goes on with them. -/
def withSpad (s : State) (addrs : List Nat) (k : State → Round → List Byte → Res) : Res :=
  let s1 := s.readSpadNow addrs
  onRound s1 (fun r => k s1 r (s1.pointRead r true addrs))

/-- The addresses of n bytes from a scratchpad address. -/
def spadRange (a : Word) (n : Nat) : List Nat := (List.range n).map (fun i => a.toNat + i)

/-- The state as an instruction reads some bytes of memory at one instant, with the ordering of plain loads: the core's entries to them leave
first, so that no engine reads older ones later (R284). -/
def State.loadNow (s : State) (r : Round) (at_ : List Nat) : State :=
  ((s.orderBefore s.cur false at_).capture s.cur false at_).sendEarlier r.core at_

/-- A plain load of n bytes for the whole instruction, in the lowest passing lane. -/
def withLoad (s : State) (r : Round) (m : Mask) (va : Word) (n : Nat) (k : State → Round → List Byte → Res) : Res :=
  withPages s r m false n [((lowestLane m).getD 0, va)] (fun pas =>
    withClean s r pas
      (let at_ := pas.flatMap (fun p => p.2)
       let s1 := s.loadNow r at_
       onRound s1 (fun r1 => k s1 r1 (at_.map (Memory.read s1.mem)))))

/-- An instruction leaves its access pending (R389): its destination holds rows and is held by the scoreboard (R81, R84). -/
def leave (s0 s : State) (fs : List Field) (a : Access) : Res :=
  finish s0 { s with nextId := s.nextId + 1 } fs (fun q =>
    { writeRun a.mask a.dst (List.replicate a.regs []) q with pending := q.pending ++ [{ a with id := s.nextId }] })

end Sys2Proof.Machine
end

