-- ==== Sys2Proof/Machine/Memory.lean ====
section
/-! DEFINITION. The loads, stores, atomics and fences of device and host memory (R290 to R302), opcodes 0x100, 0x101,
0x104 to 0x109 and 0x10C to 0x10E. -/
namespace Sys2Proof.Machine

/-- Consecutive registers of a field with the field's last-read bit (R46, R55). -/
def runFields (c : Code) (n : Nat) (lr : Bool) : List Field := (List.range n).map (fun k => (c + BitVec.ofNat 11 k, lr))

/-- Addresses of an M-format access (R154, R291). -/
def offsetLanes (m : Mask) (x : Lanes) (ofs : BitVec 18) : List (Nat × Word) :=
  (laneValues m x).map (fun p => (p.1, p.2 + ofs.signExtend 64))

/-- The low z bytes of a lane's data, lowest register at the lowest address (R55, R291). -/
def storedBytes (z : Nat) (regs : List Lanes) (l : Nat) : List Byte :=
  (regs.flatMap (fun x => toBytes 8 (laneOf x l).toNat)).take z

/-- Bytes of the lane at its physical addresses. -/
def placeBytes (pas : List Nat) (bytes : List Byte) : List (Nat × Byte) := pas.zip bytes

/-- The physical addresses of a lane. -/
def pasOf (l : List (Nat × List Nat)) (lane : Nat) : List Nat := ((l.find? (fun p => p.1 == lane)).map (fun p => p.2)).getD []

/-- A release at system scope: the write-combining lines of the round must have drained and its system counter be zero; until
then the instruction waits, and then it raises a kept failure (R297, R372). `drainLines` and the failure belong to the
fabric; the LS-path part and the host writes are taken here (R299). -/
def State.systemReady (s : State) (n : Nat) : Bool :=
  (s.rounds[n]?.map (fun r => r.sysCtr == 0)).getD true && s.hostQuiet n

/-- Changes a round's epoch toward a rank word (R375). -/
def Round.modEpoch (r : Round) (w : Word) (f : Epoch → Epoch) : Round :=
  { r with
    epochs :=
      if r.epochs.any (fun q => q.rankWord == w) then r.epochs.map (fun q => if q.rankWord == w then f q else q)
      else r.epochs ++ [f { rankWord := w, epoch := 0, sent := 0, unacked := 0 }] }

/-- A round's epoch toward a rank word (R375). -/
def Round.epochOf (r : Round) (w : Word) : Epoch :=
  (r.epochs.find? (fun q => q.rankWord == w)).getD { rankWord := w, epoch := 0, sent := 0, unacked := 0 }

/-- A rank-table entry's ranges (R327). -/
def entryOk (c : Word) : Bool := bits c 12 10 < 6 && bits c 15 13 == 0 && bits c 62 32 == 0

/-- A range that no line has: that of a packet which stores nothing or is alone (R375, R391). -/
def noRange : Nat := 2 ^ 64

/-- A packet of round n that leaves for the rank of a rank word, whose entry is e (R362, R364). -/
def State.packet (s : State) (n : Nat) (r : Round) (w e : Word) (body : PacketBody) : Packet :=
  { id := s.nextId, srcPkg := s.package.number, srcDie := s.dieOf r, srcRound := n, dstPkg := entryPkg e, dstDie := entryDie e
    job := bits w 23 16, rankWord := w, body := body, sent := s.now }

/-- A packet of round n on its way to a rank (R362). Where it counts, it does so in the round's system counter from now on (R296, R372). -/
def State.sendPacket (s : State) (n : Nat) (w e : Word) (body : Epoch → PacketBody) (step : Epoch → Epoch) (range lane : Nat)
    (counted : Bool) (st : FlightState) : State :=
  match s.rounds[n]? with
  | none => s
  | some r =>
    let r1 : Round := if counted then { r with sysCtr := r.sysCtr + 1 } else r
    let s1 : State := { s with
      flights := s.flights ++ [{ key := s.nextId, packet := s.packet n r w e (body (r.epochOf w)), state := st, counted := counted
                                 range := range, lastSent := s.now, ports := entryPorts e, lane := lane, todo := [], got := [] }]
      nextId := s.nextId + 1 }
    s1.setRoundAt n (r1.modEpoch w step)

/-- Sends a store packet, which its epoch counts (R375). -/
def State.sendStore (s : State) (n : Nat) (w e : Word) (bytes : List (Nat × Byte)) (range : Nat) (st : FlightState) : State :=
  s.sendPacket n w e (fun x => .store bytes x.epoch true) (fun x => { x with sent := x.sent + 1 }) range 0 true st

/-- A line leaves as one packet (R371, R372), which waits while an earlier packet of the same round, rank word and range is
unacknowledged. A line with no byte enabled is never sent (R373). -/
def State.drainLine (s : State) (x : WcLine) : State :=
  let s1 := { s with lines := s.lines.filter (fun y => y.id != x.id) }
  if x.bytes.isEmpty then s1
  else
    let behind := s.flights.any (fun f =>
      f.counted && f.packet.srcRound == x.round && f.packet.rankWord == x.rankWord && f.range == x.base)
    s1.sendStore x.round x.rankWord x.entry x.bytes x.base (if behind then .held else .sent)

/-- Drains every line of `p` in order. -/
def State.drainLines (s : State) (p : WcLine → Bool) : State := (s.lines.filter p).foldl State.drainLine s

/-- A release at a scope, and what follows it (R297, R299, R372): `k` runs once the release's conditions hold. `fence` drains the
round's lines at any scope (R300, R371); `m` holds the passing lanes, for the trap record (R322). -/
def withRelease (s : State) (scope : Nat) (fence : Bool) (m : Mask) (k : State → Res) : Res :=
  onRound s (fun r0 =>
    let sc := s.effScope r0 scope
    let s1 := s.releaseStores s.cur sc
    let s2 := if fence || sc = 6 then s1.drainLines (fun x => x.round == s.cur) else s1
    if sc = 6 then
      let s3 := s2.issueHostWrites s.cur
      if s3.systemReady s.cur then
        onRound s3 (fun r =>
          match r.kept with
          | some f =>
            takeTrap (s3.setRound { r with kept := none }) { r with kept := none } (if f.timeout then 0x82 else 0x81) f.rankWord f.addr
              (BitVec.ofNat 64 f.cause) m
          | none => k s3)
      else onRound s3 (fun r => stall s3 r .acks)
    else k s2)

/-- Runs `k` after a release when the semantics has one (R54). -/
def withSemRelease (s : State) (rel : Bool) (scope : Nat) (m : Mask) (k : State → Res) : Res :=
  if rel then withRelease s scope false m k else k s

/-- Alignment that an access needs (R291): natural up to 8 bytes when it is ordered. -/
def orderedAlign (sem z : Nat) (a : Word) : Bool := sem == 0 || a.toNat % min z 8 == 0

/-- An LS-path access of the issuing round that has units pending. -/
def accessOf (spad : Bool) (op : AccessOp) (d : Code) (regs : Nat) (m : Mask) (sem scope : Nat) (pieces : List Piece) : Access :=
  { id := 0, path := 0, spad := spad, op := op, dst := d, regs := regs, mask := m, sem := sem, scope := scope, released := false
    shown := [], pieces := pieces, got := [] }

/-- LD (R291, R298): it reads at once, or its units read later, in any order (R389). DESIGN CHOICE: log entry 9. -/
def execLd (f : MForm) (s : State) : Res :=
  let z := szBytes f.sz
  let n := szRegs f.sz
  let fs := [(f.a, f.lra)]
  begin s f.g fs (regNames f.d n) (fun s r m xs =>
    let addrs := offsetLanes m (arg xs 0) f.ofs
    checkLanes s r 0x62 0 addrs (fun p => orderedAlign (ordSem f.ord) z p.2)
      (withPages s r m false z addrs (fun pas =>
        withClean s r pas
          (let bytes := pas.flatMap (fun p => p.2)
           let scope := s.effScope r (ordScope f.ord)
           let s1 := s.orderBefore s.cur false bytes
           if s1.late && m != 0 then
             leave s s1 fs (accessOf false .load f.d n m (ordSem f.ord) scope (piecesOf z pas (fun _ => [])))
           else
             let s2 := if ordSem f.ord = 3 then s1.promote r scope else s1
             let s3 := (s2.capture s.cur false bytes).noteServed s.cur r.core bytes
             finish s s3 fs (writeRun m f.d (loadedRegs n (fun l => (pasOf pas l).map (s3.coreRead r.core))))))))

/-- The entry of a store: a full buffer sends its oldest entry first (R296). -/
def State.store (s : State) (r : Round) (z : Nat) (lanes : List (List (Nat × Byte))) : State :=
  if lanes.isEmpty then s
  else
    let s0 := s.orderBefore s.cur false (lanes.flatMap (fun l => l.map (fun b => b.1)))
    let s1 :=
      if s0.buffered s.cur < 16 then s0
      else
        match s0.stores.find? (fun e => e.round == s.cur) with
        | some e => s0.drainStores (fun x => x.id == e.id)
        | none => s0
    s1.bufferStore s.cur r.core z lanes

/-- ST (R291). The release takes its effect before the write leaves the round (R297), lanes or none (R45). -/
def execSt (f : MForm) (s : State) : Res :=
  let z := szBytes f.sz
  let n := szRegs f.sz
  let fs := (f.a, f.lra) :: runFields f.d n f.lrd
  begin s f.g fs [] (fun s r m xs =>
    let addrs := offsetLanes m (arg xs 0) f.ofs
    checkLanes s r 0x62 0 addrs (fun p => orderedAlign (ordSem f.ord) z p.2)
      (withPages s r m true z addrs (fun pas =>
        withSemRelease s (ordSem f.ord == 2) (ordScope f.ord) m (fun s1 =>
          finish s (s1.store r z (pas.map (fun p => placeBytes p.2 (storedBytes z (xs.drop 1) p.1)))) fs (fun q => q)))))

/-- LDH (R285, R291, R299): the value is the host's and free. -/
def execLdh (f : MForm) (s : State) : Res :=
  let z := szBytes f.sz
  let fs := [(f.a, f.lra)]
  begin s f.g fs (regNames f.d 1) (fun s r m xs =>
    let addrs := offsetLanes m (arg xs 0) f.ofs
    checkLanes s r 0x62 0 addrs (fun p => p.2.toNat % min z 8 == 0)
      (checkLanes s r 0x61 3 addrs (fun p => (hostTranslate (s.partOf r) false p.2).isSome)
        (let s1 := s.issueHostWrites s.cur
         let n := s1.free
         if !s1.hostQuiet s.cur || !s1.linkReady (linkOf (s.teamOf r).part) then stall s1 r .engine
         else finish s { s1 with free := n + 1 } fs (fun q =>
           writeRun m f.d (loadedRegs 1 (fun l => (List.range z).map (fun i => Config.hostByte n (8 * l + i)))) q))))

/-- STH (R285, R291, R299): posted host writes, issued in the round's order. -/
def execSth (f : MForm) (s : State) : Res :=
  let z := szBytes f.sz
  let fs := [(f.a, f.lra), (f.d, f.lrd)]
  begin s f.g fs [] (fun s r m xs =>
    let addrs := offsetLanes m (arg xs 0) f.ofs
    checkLanes s r 0x62 0 addrs (fun p => p.2.toNat % min z 8 == 0)
      (checkLanes s r 0x61 3 addrs (fun p => (hostTranslate (s.partOf r) true p.2).isSome)
        (withSemRelease s (ordSem f.ord == 2) (ordScope f.ord) m (fun s1 =>
          let ws : List HostWrite := addrs.filterMap (fun p =>
            (hostTranslate (s.partOf r) true p.2).map (fun h =>
              { round := s.cur, part := (s.teamOf r).part, addr := h, data := storedBytes z (xs.drop 1) p.1 }))
          finish s { s1 with hostq := s1.hostq ++ ws } fs (fun q => q)))))

/-- PREF (R292): no result changes and nothing traps. -/
def execPref (f : MForm) (s : State) : Res :=
  let fs := [(f.a, f.lra)]
  begin s f.g fs [] (fun s _ _ _ => finish s s fs (fun q => q))

/-- One indivisible step of an atomic at its point of coherence (R156, R294): the new state and the old value. -/
def atomicStep (r : Round) (spad : Bool) (op : Nat → Nat) (s : State) (addrs : List Nat) : State × Nat :=
  let old := ofBytes (s.pointRead r spad addrs)
  (s.pointWrite r spad (addrs.zip (toBytes addrs.length (op old))), old)

/-- The steps of the passing lanes in ascending order, and the old value of each (R156, R294). -/
def atomicLanes (r : Round) (spad : Bool) (op : Nat → Nat → Nat) : State → List (Nat × List Nat) → State × List (Nat × Nat)
  | s, [] => (s, [])
  | s, p :: ps =>
    let (s1, old) := atomicStep r spad (op p.1) s p.2
    let (s2, olds) := atomicLanes r spad op s1 ps
    (s2, (p.1, old) :: olds)

/-- The old values as a lane vector. -/
def oldLanes (olds : List (Nat × Nat)) : Lanes :=
  tab (fun l => BitVec.ofNat 64 (((olds.find? (fun p => p.1 == l)).map (fun p => p.2)).getD 0))

/-- The effect of an atomic on the addresses of its lanes, at once or left pending (R389). `xs` holds its sources. -/
def atomicEffect (s0 s : State) (spad : Bool) (fs : List Field) (d : Code) (m : Mask) (z sem scope : Nat) (op : AccessOp)
    (xs : List Lanes) (lanes : List (Nat × List Nat)) : Res :=
  onRound s (fun r =>
    let bytes := lanes.flatMap (fun p => p.2)
    let s1 := s.orderBefore s.cur spad bytes
    let b (l : Nat) : Nat := (laneOf (arg xs 1) l).toNat
    let c (l : Nat) : Nat := (laneOf (arg xs 2) l).toNat
    if s1.late && m != 0 then
      leave s0 s1 fs (accessOf spad op d 1 m sem scope
        (lanes.map (fun p => { lane := p.1, ofs := 0, addrs := p.2, data := [], b := b p.1, c := c p.1 })))
    else
      let e := s1.capture s.cur spad bytes
      let s2 := if spad then e else e.sendEarlier r.core bytes
      let (s3, olds) := atomicLanes r spad (fun l => op.value z (b l) (c l)) s2 lanes
      finish s0 s3 fs (writeOperand m d (oldLanes olds)))

/-- A memory atomic (R294). -/
def memoryAtomic (s0 : State) (g : Guard) (fs : List Field) (d : Code) (z sem scope : Nat) (op : AccessOp) : Res :=
  begin s0 g fs (regNames d 1) (fun s r m xs =>
    let addrs := laneValues m (arg xs 0)
    checkLanes s r 0x62 0 addrs (fun p => p.2.toNat % z == 0)
      (withPages s r m true z addrs (fun pas =>
        withClean s r pas
          (withSemRelease s (2 ≤ sem) scope m (fun s1 => atomicEffect s s1 false fs d m z sem (s.effScope r scope) op xs pas)))))

/-- ATOM, ATOMU and CAS (R293, R294). -/
def execAtom (f : AForm) (s : State) : Res :=
  memoryAtomic s f.g [(f.a, f.lra), (f.b, f.lrb)] f.d (aszBytes f.asz) (ordSem f.ord) (ordScope f.ord) (.atomic f.op.toNat false)
def execAtomu (f : AForm) (s : State) : Res :=
  memoryAtomic s f.g [(f.a, f.lra), (f.b, f.lrb)] f.d (aszBytes f.asz) (ordSem f.ord) (ordScope f.ord) (.atomic f.op.toNat true)
def execCas (f : RForm) (s : State) : Res := memoryAtomic s f.g [rA f, rB f, rC f] f.d 8 3 f.cmp.toNat .compare

/-- Two translated ranges per lane, in lane order. -/
def pairUp : List (Nat × List Nat) → List (Nat × List Nat × List Nat)
  | a :: b :: rest => (a.1, a.2, b.2) :: pairUp rest
  | _ => []

/-- STP (R295): the pair of each lane enters its two locations at one instant, now or later, after the core's earlier stores to those
bytes. Of a pair that is refused, a misaligned one reports A unless A is aligned, one across dies A, and one that does not translate A
before B. DESIGN CHOICE: log entry 82. -/
def execStp (f : RForm) (s : State) : Res :=
  let z := 2 ^ f.cmp.toNat
  let fs := [rA f, rB f, (f.d, false)]
  begin s f.g fs [] (fun s r m xs =>
    let both := (lanesOf m).map (fun l =>
      (l, if (laneOf (arg xs 0) l).toNat % z == 0 then laneOf (arg xs 1) l else laneOf (arg xs 0) l))
    checkLanes s r 0x62 0 both (fun p => p.2.toNat % z == 0)
      (withPages s r m true z ((lanesOf m).flatMap (fun l => [(l, laneOf (arg xs 0) l), (l, laneOf (arg xs 1) l)])) (fun pas =>
        let pairs := pairUp pas
        checkLanes s r 0x61 5 (laneValues m (arg xs 0)) (fun p =>
            pairs.all (fun q => q.1 != p.1 || homeDie (q.2.1.headD 0) == homeDie (q.2.2.headD 0)))
          (let bytes := pairs.flatMap (fun p =>
            placeBytes p.2.1 (storedBytes z (xs.drop 2) p.1) ++ placeBytes p.2.2 (storedBytes z (xs.drop 2) p.1))
           let at_ := bytes.map (fun b => b.1)
           let s1 := s.orderBefore s.cur false at_
           if s1.late && m != 0 then
             leave s s1 fs (accessOf false .store 0 0 m 0 0 (pairs.map (fun p =>
               let d := storedBytes z (xs.drop 2) p.1
               { lane := p.1, ofs := 0, addrs := p.2.1 ++ p.2.2, data := d ++ d, b := 0, c := 0 })))
           else finish s ((s1.sendEarlier r.core at_).writeBytes bytes) fs (fun q => q)))))

/-- FENCE (R300): a release and an acquire at its scope; it drains the round's write-combining lines at any scope. -/
def execFence (f : RForm) (s : State) : Res :=
  begin s f.g [] [] (fun s _ m _ => withRelease s f.cmp.toNat true m (fun s1 => finish s s1 [] (fun q => q)))

end Sys2Proof.Machine
end

