-- ==== Sys2Proof/Machine/Scratchpad.lean ====
section
/-! DEFINITION. Scratchpad accesses and the tag table (R151 to R161), opcodes 0x102, 0x103, 0x10A, 0x10B and 0x10F to 0x111. -/
namespace Sys2Proof.Machine

/-- The checks of R151 and R270: alignment over every lane, then shadow addresses, then the range. -/
def checkSpad (s : State) (r : Round) (z : Nat) (lanes : List (Nat × Word)) (k : Res) : Res :=
  checkLanes s r 0x21 0 lanes (fun p => p.2.toNat % min z 8 == 0)
    (checkShadow s r z lanes
      (checkLanes s r 0x20 0 lanes (fun p => (s.teamOf r).holds p.2.toNat z) k))

/-- LDS (R154), at once or left pending as an LD is. DESIGN CHOICE: log entry 9. -/
def execLds (f : MForm) (s : State) : Res :=
  let z := szBytes f.sz
  let n := szRegs f.sz
  let fs := [(f.a, f.lra)]
  begin s f.g fs (regNames f.d n) (fun s r m xs =>
    let addrs := offsetLanes m (arg xs 0) f.ofs
    checkSpad s r z addrs
      (let lanes := spadLanesOf z addrs
       let bytes := lanes.flatMap (fun p => p.2)
       let s1 := s.orderBefore s.cur true bytes
       if s1.late && m != 0 then
         leave s s1 fs (accessOf true .load f.d n m (ordSem f.ord) (ordScope f.ord) (piecesOf z lanes (fun _ => [])))
       else
         finish s (s1.capture s.cur true bytes) fs
           (writeRun m f.d (loadedRegs n (fun l => s1.pointRead r true (pasOf lanes l))))))

/-- Bytes that a scratchpad store writes, lane by lane (R154). -/
def spadBytes (z : Nat) (addrs : List (Nat × Word)) (regs : List Lanes) : List (Nat × Byte) :=
  addrs.flatMap (fun p => (storedBytes z regs p.1).zipIdx.map (fun b => (p.2.toNat + b.2, b.1)))

/-- The effect of an LS-path store of some scratchpad bytes by the issuing round. -/
def State.storeSpad (s : State) (r : Round) (bytes : List (Nat × Byte)) : State :=
  (s.orderBefore s.cur true (bytes.map (fun b => b.1))).modTeam r (fun t => t.writeSpad bytes)

/-- STS (R154, R157), at once or left pending (R302, R389). DESIGN CHOICE: log entry 18. -/
def execSts (f : MForm) (s : State) : Res :=
  let z := szBytes f.sz
  let n := szRegs f.sz
  let fs := (f.a, f.lra) :: runFields f.d n f.lrd
  begin s f.g fs [] (fun s r m xs =>
    let addrs := offsetLanes m (arg xs 0) f.ofs
    checkSpad s r z addrs
      (withSemRelease s (ordSem f.ord == 2) (ordScope f.ord) m (fun s1 =>
        if s1.late && m != 0 then
          let lanes := spadLanesOf z addrs
          leave s (s1.orderBefore s.cur true (lanes.flatMap (fun p => p.2))) fs
            (accessOf true .store 0 0 m (ordSem f.ord) (ordScope f.ord) (piecesOf z lanes (storedBytes z (xs.drop 1))))
        else finish s (s1.storeSpad r (spadBytes z addrs (xs.drop 1))) fs (fun q => q))))

/-- A scratchpad atomic (R156, R157). -/
def spadAtomic (s0 : State) (g : Guard) (fs : List Field) (d : Code) (z sem scope : Nat) (op : AccessOp) : Res :=
  begin s0 g fs (regNames d 1) (fun s r m xs =>
    let addrs := laneValues m (arg xs 0)
    checkSpad s r z addrs
      (withSemRelease s (2 ≤ sem) scope m (fun s1 => atomicEffect s s1 true fs d m z sem scope op xs (spadLanesOf z addrs))))

/-- ATOMS and CASS (R155, R156). -/
def execAtoms (f : AForm) (s : State) : Res :=
  spadAtomic s f.g [(f.a, f.lra), (f.b, f.lrb)] f.d (aszBytes f.asz) (ordSem f.ord) (ordScope f.ord) (.atomic f.op.toNat false)
def execCass (f : RForm) (s : State) : Res := spadAtomic s f.g [rA f, rB f, rC f] f.d 8 3 f.cmp.toNat .compare

/-- The set of a key in a share of T sets (R158). -/
def tagSet (t : Nat) (key : Word) : Nat :=
  ((List.range 7).foldl (fun acc i => Nat.xor acc (bits key (9 * i + 8) (9 * i))) (bits key 63 63)) % t

/-- The recency order of a set, least recent first (R149, R158). -/
def Team.order (t : Team) (set : Nat) : List Nat := SMap.get t.recency [0, 1, 2, 3] set

/-- An entry of the share. -/
def Team.tag (t : Team) (slot : Nat) : TagEntry := SMap.get t.tags { valid := false, key := 0 } slot

def Team.mostRecent (t : Team) (slot : Nat) : Team :=
  { t with recency := SMap.set t.recency (slot / 4) ((t.order (slot / 4)).filter (fun w => w != slot % 4) ++ [slot % 4]) }
def Team.leastRecent (t : Team) (slot : Nat) : Team :=
  { t with recency := SMap.set t.recency (slot / 4) (slot % 4 :: (t.order (slot / 4)).filter (fun w => w != slot % 4)) }

/-- The victim way of a set (R158). -/
def Team.victim (t : Team) (set : Nat) : Nat :=
  match (List.range 4).find? (fun w => !(t.tag (4 * set + w)).valid) with
  | some w => w
  | none => (t.order set).headD 0

/-- The way of a set that holds a key. -/
def Team.hit (t : Team) (set : Nat) (key : Word) : Option Nat :=
  (List.range 4).find? (fun w => (t.tag (4 * set + w)).valid && (t.tag (4 * set + w)).key == key)

/-- TLOOK in one lane (R160). -/
def tagLook (t : Team) (key : Word) : Team × Word :=
  let set := tagSet t.tagSets key
  match t.hit set key with
  | some w => (t.mostRecent (4 * set + w), BitVec.ofNat 64 (4 * set + w))
  | none => (t, BitVec.ofNat 64 ((12 + t.victim set) * 2 ^ 60 + (2 ^ 60 - 1)))

/-- TSET in one lane (R160). -/
def tagInstall (t : Team) (key : Word) (slot : Nat) : Team :=
  let set := slot / 4
  let cleared := (List.range 4).foldl (fun (tags : SMap TagEntry) w =>
    if w != slot % 4 && (t.tag (4 * set + w)).valid && (t.tag (4 * set + w)).key == key then
      SMap.set tags (4 * set + w) { valid := false, key := (t.tag (4 * set + w)).key }
    else tags) t.tags
  Team.mostRecent { t with tags := SMap.set cleared slot { valid := true, key := key } } slot

/-- TCLR in one lane (R160). -/
def tagClear (t : Team) (slot : Nat) : Team :=
  Team.leastRecent { t with tags := SMap.set t.tags slot { valid := false, key := (t.tag slot).key } } slot

/-- The lanes of TLOOK in ascending order (R160). -/
def tagLookLanes : Team → List (Nat × Word) → Team × List (Nat × Nat)
  | t, [] => (t, [])
  | t, p :: ps =>
    let (t1, x) := tagLook t p.2
    let (t2, xs) := tagLookLanes t1 ps
    (t2, (p.1, x.toNat) :: xs)

/-- A team without a share traps when any lane passes (R160); info1 is the no-share flag. -/
def withShare (s : State) (r : Round) (m : Mask) (k : Res) : Res :=
  if (s.teamOf r).tagSets = 0 && m != 0 then takeTrap s r 0x22 0 1 0 m else k

/-- TLOOK (R160, R161). -/
def execTlook (f : RForm) (s : State) : Res :=
  let fs := [rA f]
  beginSettled s f.g fs (regNames f.d 1) (fun s r m xs =>
    withShare s r m
      (let (t, olds) := tagLookLanes (s.teamOf r) (laneValues m (arg xs 0))
       finish s (s.setTeam r.team t) fs (writeOperand m f.d (oldLanes olds))))

/-- TSET (R160, R161). -/
def execTset (f : RForm) (s : State) : Res :=
  let fs := [rA f, rB f]
  beginSettled s f.g fs [] (fun s r m xs =>
    let t := s.teamOf r
    withShare s r m
      (checkLanes s r 0x22 0 (laneValues m (arg xs 1)) (fun p =>
          p.2.toNat < 4 * t.tagSets && p.2.toNat / 4 == tagSet t.tagSets (laneOf (arg xs 0) p.1))
        (finish s (s.setTeam r.team
            ((lanesOf m).foldl (fun t l => tagInstall t (laneOf (arg xs 0) l) (laneOf (arg xs 1) l).toNat) t)) fs (fun q => q))))

/-- TCLR (R160, R161). -/
def execTclr (f : RForm) (s : State) : Res :=
  let fs := [rA f]
  beginSettled s f.g fs [] (fun s r m xs =>
    let t := s.teamOf r
    withShare s r m
      (checkLanes s r 0x22 0 (laneValues m (arg xs 0)) (fun p => p.2.toNat < 4 * t.tagSets)
        (finish s (s.setTeam r.team ((lanesOf m).foldl (fun t l => tagClear t (laneOf (arg xs 0) l).toNat) t)) fs (fun q => q))))

end Sys2Proof.Machine
end

