-- ==== Sys2Proof/Machine/Barriers.lean ====
section
/-! DEFINITION. Named barriers (R249 to R254), opcodes 0x220 to 0x222. -/
namespace Sys2Proof.Machine

/-- Barrier b of a team at admission (R249). -/
def Barrier.reset : Barrier := { parity := false, arrivals := 0, count := 0, arrived := 0, waiters := 0 }
def Team.bar (t : Team) (b : Nat) : Barrier := t.bars.getD b Barrier.reset
def Team.setBar (t : Team) (b : Nat) (x : Barrier) : Team := { t with bars := t.bars.set b x }

/-- Positions of a team's rounds in the state. -/
def State.roundsOf (s : State) (team : Nat) : List (Nat × Round) :=
  (s.rounds.zipIdx.filter (fun q => q.1.team == team)).map (fun q => (q.2, q.1))

/-- u of R252: rounds of the team with a live lane that have not arrived. A kill empties the live mask in the same step, so that
no round is being killed when the test is made. -/
def State.unarrived (s : State) (team : Nat) (x : Barrier) : Nat :=
  ((s.roundsOf team).filter (fun q => q.2.live != 0 && !x.arrived.getLsbD q.2.rix)).length

/-- The lanes that pass the guard of the instruction at which a round stands, for its trap record (R322). -/
def Round.standing (r : Round) : Mask :=
  match r.clause.bind (fun c => c.words[c.idx]?) with
  | none => r.cur
  | some w => r.passing (guardOf false w)

/-- Parks round n, which waits at its instruction, with a trap that resumes there (R106, R252). -/
def State.parkAt (s : State) (n cause : Nat) (info0 info1 info2 : Word) : State :=
  match s.rounds[n]? with
  | none => s
  | some r =>
    let t : TrapRec := { cause := cause, index := r.ix, h := r.h, info0 := info0, info1 := info1, info2 := info2, mask := r.standing }
    { parkTrap { s with cur := n } r t true r.ix with cur := s.cur }

/-- Counts and arrivals of a barrier trap as one information word. DEDUCED: log entry 7. -/
def countWord (count arrivals : Nat) : Word := BitVec.ofNat 64 (count + 2 ^ 16 * arrivals)

/-- A phase after it is reset: no arrivals, no count, the parity as it was (R252). -/
def Barrier.cleared (x : Barrier) : Barrier := { x with arrivals := 0, count := 0, arrived := 0, waiters := 0 }

/-- fail(b) of R252 for the waiters: each takes BARRIER_UNSAT, and the phase is reset. -/
def State.failBarrier (s : State) (team b : Nat) : State :=
  let t := s.teams.getD team Team.blank
  let x := t.bar b
  let u := s.unarrived team x
  let s1 := s.setTeam team (t.setBar b x.cleared)
  ((s.roundsOf team).filter (fun q => x.waiters.getLsbD q.2.rix)).foldl (fun s q =>
    s.parkAt q.1 0x51 (BitVec.ofNat 64 b) (countWord x.count x.arrivals) (BitVec.ofNat 64 u)) s1

/-- unsat(b) of R252. -/
def State.unsat (s : State) (team : Nat) (x : Barrier) : Bool := decide (x.arrivals + s.unarrived team x < x.count)

/-- The tests that R252 makes when a round of a team loses its last live lane or is killed. -/
def State.testBarriers (s : State) (team : Nat) : State :=
  (List.range 16).foldl (fun s b => if s.unsat team ((s.teams.getD team Team.blank).bar b) then s.failBarrier team b else s) s

/-- The count of a barrier instruction (R250): an immediate, or the operand in the lowest active lane. DEDUCED: log entry 36. -/
def barCount (s : State) (r : Round) (f : SForm) : Nat :=
  if f.ci then f.cntf.toNat else (laneOf (readOperand s r f.cntf) ((lowestLane r.cur).getD 0)).toNat

/-- Whether the scoreboard holds the operand of the count (R81). -/
def State.countPending (s : State) (r : Round) (f : SForm) : Bool :=
  !f.ci && (regNames f.cntf 1).any (fun n => (s.pendingNames s.cur r).contains n)

/-- BARRIER_COUNT (R261). -/
def barrierCount (s : State) (r : Round) (g : Guard) (b c count : Nat) : Res :=
  takeTrap s r 0x50 (BitVec.ofNat 64 b) (BitVec.ofNat 64 c) (BitVec.ofNat 64 count) (r.passing g)

/-- Marks a round as held at a barrier. -/
def holdAt (x : Barrier) (rix : Nat) : Barrier := { x with waiters := x.waiters ||| BitVec.ofNat 32 (2 ^ rix) }

/-- The arrival itself (R251 from the release on): the round's earlier effects have all taken effect. -/
def arriveNow (s : State) (f : SForm) (b c : Nat) (wait : Bool) : Res :=
  withRelease s 1 false 0 (fun s =>
    onRound s (fun r =>
      let t := s.teamOf r
      let x := t.bar b
      let y := { x with count := c, arrived := x.arrived ||| BitVec.ofNat 32 (2 ^ r.rix), arrivals := x.arrivals + 1 }
      if y.arrivals = c then
        finish s (s.modTeam r (fun t => t.setBar b { y.cleared with parity := !y.parity })) [] (fun q => q)
      else
        let s1 := s.modTeam r (fun t => t.setBar b y)
        if s1.unsat r.team y then
          takeTrap (s1.failBarrier r.team b) r 0x51 (BitVec.ofNat 64 b) (countWord y.count y.arrivals)
            (BitVec.ofNat 64 (s1.unarrived r.team y)) (r.passing f.g)
        else if wait then stall (s.modTeam r (fun t => t.setBar b (holdAt y r.rix))) r (.barrier b)
        else finish s s1 [] (fun q => q)))

/-- BARA and BARW (R251). A round that waits issues again: it goes on once the phase that held it is over. -/
def arrive (f : SForm) (wait : Bool) (s : State) : Res :=
  onRound s (fun r =>
    let b := f.bar.toNat
    let x := (s.teamOf r).bar b
    let c := barCount s r f
    let held := x.waiters.getLsbD r.rix
    if r.status == .waiting (.barrier b) then
      if held then stall s r (.barrier b) else finish s s [] (fun q => q)
    else if r.status == .waiting (.second b) && held then stall s r (.second b)
    else if s.countPending r f then stall s r .scoreboard
    else if c = 0 || 32 < c then barrierCount s r f.g b c x.count
    else if x.arrived.getLsbD r.rix then stall (s.modTeam r (fun t => t.setBar b (holdAt x r.rix))) r (.second b)
    else if x.count != 0 && c != x.count then barrierCount s r f.g b c x.count
    else arriveNow s f b c wait)

def execBara (f : SForm) (s : State) : Res := arrive f false s
def execBarw (f : SForm) (s : State) : Res := arrive f true s

/-- The value of BARQ (R253). -/
def barqValue (x : Barrier) : Word :=
  BitVec.ofNat 64 (x.arrivals % 64 + 2 ^ 6 * (x.count % 64) + (if x.parity then 2 ^ 12 else 0))

/-- BARQ (R253). -/
def execBarq (f : IForm) (s : State) : Res :=
  begin s f.g [] (regNames f.d 1) (fun s r m _ =>
    finish s s [] (writeOperand m f.d (tab (fun _ => barqValue ((s.teamOf r).bar (f.imm.toNat % 16))))))

end Sys2Proof.Machine
end

