-- ==== Sys2Proof/Machine/Engine.lean ====
section
/-! DEFINITION. Accesses that the engines make on their own (R162 to R170, R393): bytes by kind of address, moves of a list of
bytes, fault records and service requests. -/
namespace Sys2Proof.Machine

/-- Where a destination byte goes. -/
inductive Place where
  | mem (pa : Nat)
  | spad (a : Nat)
  | host (h : Nat)
  deriving DecidableEq, Repr

/-- The destination of a byte by kind. -/
def State.destByte (s : State) (a : Agent) (kind : Nat) (addr : Word) : Got Place :=
  match kind with
  | 0 => (s.engineXlat a true addr).bind (fun pa => .ok (.mem pa))
  | 1 => .ok (.spad addr.toNat)
  | _ =>
    match hostTranslate (s.part a.part) true addr with
    | some h => .ok (.host h)
    | none => .fault addr 0x61

/-- Writes listed bytes where they go. A host write issues as a posted write (R168). -/
def State.putBytes (s : State) (a : Agent) (l : List (Place × Byte)) : State :=
  let s1 := s.writeBytes (l.filterMap (fun p => match p.1 with | .mem pa => some (pa, p.2) | _ => none))
  let spad := l.filterMap (fun p => match p.1 with | .spad x => some (x, p.2) | _ => none)
  let host := l.filterMap (fun p => match p.1 with
    | .host h => some ({ round := a.round.getD 0, part := a.part, addr := h, data := [p.2] } : HostWrite) | _ => none)
  let s2 := { s1 with hostOut := s1.hostOut ++ host }
  match a.round.bind (fun n => s2.rounds[n]?) with
  | none => s2
  | some r => s2.setTeam r.team ((s2.teamOf r).writeSpad spad)

/-- The outcome of a move: done, waiting for pages, a fault that is never serviced, or waiting for an HBM channel. -/
inductive Moved where
  | done (s : State)
  | missing (pages : List Word) (va : Word)
  | fault (va : Word) (cause : Nat)
  | held
  deriving Repr

/-- A move from what its accesses gave. -/
def Gathered.move {α : Type} (g : Gathered α) (put : List α → State) : Moved :=
  match g with
  | .ok l => .done (put l)
  | .missing ps va => .missing ps va
  | .fault va c => .fault va c
  | .held => .held

/-- A move of bytes: source and destination kinds and addresses, length, and for each destination byte its source offset or a
fixed byte (R163, R165). -/
structure Move where
  srcKind : Nat
  src : Word
  dstKind : Nat
  dst : Word
  len : Nat
  deriving DecidableEq, Repr

/-- The source addresses of the destination bytes listed. -/
def Move.reads (mv : Move) (from_ : Nat → Nat ⊕ Byte) (is : List Nat) : List Word :=
  is.filterMap (fun i => match from_ i with | .inl k => some (mv.src + BitVec.ofNat 64 k) | .inr _ => none)

/-- Whether a move reaches host memory, whose link must be trained (R338). -/
def Move.usesHost (mv : Move) : Bool := mv.srcKind == 2 || mv.dstKind == 2

/-- Performs a move of a member for the destination bytes listed (R169). -/
def State.moveBytes (s : State) (a : Agent) (m : Member) (mv : Move) (from_ : Nat → Nat ⊕ Byte) (is : List Nat) : Moved :=
  let gs := is.map (fun i =>
    let src : Got Byte :=
      match from_ i with
      | .inr b => .ok b
      | .inl k => s.memberByte a m mv.srcKind (mv.src + BitVec.ofNat 64 k)
    (src.both (s.destByte a mv.dstKind (mv.dst + BitVec.ofNat 64 i))).bind (fun x => Got.ok (x.2, x.1)))
  (gather gs).move (fun l => { (s.putBytes a l) with free := s.free + 1 })

/-- The destination words of a move that a list of word numbers names, or all of them (R169): the bytes not yet moved. -/
def wordBytes (mv : Move) (words : Option (List Nat)) (moved : List Nat) : List Nat :=
  (List.range mv.len).filter (fun i =>
    let w := (mv.dst.toNat + i) / 8 - mv.dst.toNat / 8
    !moved.contains w && (match words with | none => true | some ws => ws.contains w))

/-- Adds an engine's service request: a service handle, and an entry that parks nobody; while all service slots of the die are in use the
request waits (R393). -/
def State.requestService (s : State) (a : Agent) (work : ServiceWork) (pages : List Word) (va : Word) (die : Nat)
    (node : Option Nat) (tix : Nat) : State × Option Nat :=
  let d : Die := s.die die
  let used := s.services.map (fun x => x.handle % 2 ^ 12 + 2 ^ 12 * (x.handle / 2 ^ 12 % 8))
  match (List.range 4096).find? (fun k => !used.contains (k + 2 ^ 12 * die)) with
  | none => (s, none)
  | some slot =>
  let sq := SMap.get d.serviceSeq 0 slot
  let handle := slot + 2 ^ 12 * die + 2 ^ 15 + 2 ^ 16 * (sq % 2 ^ 16)
  let ps := pages.take 64
  let rh : BitVec 32 := ((a.round.bind (fun n => s.rounds[n]?)).map (fun r => r.handle)).getD 0
  let entry := queueEntry 1 0x60 0 2 rh (s.nodeHandle node) tix 0 (BitVec.ofNat 64 ps.length) (ps.headD 0) 0
    (BitVec.ofNat 64 handle) d.clock
  let s1 := s.setDie die ({ d with serviceSeq := SMap.set d.serviceSeq slot (sq + 1) } : Die)
  let s2 := { s1 with services := s1.services ++ [({ handle := handle, part := a.part, work := work, addr := va } : Service)] }
  (s2.enqueue a.part (entry :: continuations 10 (ps.drop 1)), some handle)

/-- A batch keeps its first record (R170). -/
def Batch.record (b : Batch) (f : FaultRec) : Batch :=
  if b.fault.isNone then { b with fault := some f } else b

/-- Applies a function to the batch that holds a member. -/
def Round.modBatch (r : Round) (id : Nat) (f : Batch → Batch) : Round :=
  { r with
    openBatch := if r.openBatch.members.any (fun m => m.id == id) then f r.openBatch else r.openBatch
    sealed := r.sealed.map (fun b => if b.members.any (fun m => m.id == id) then f b else b) }

/-- A member of a round. -/
def Round.member? (r : Round) (id : Nat) : Option Member := r.members.find? (fun m => m.id == id)

/-- A member finishes (R168), with a record when it failed. -/
def Round.finishMember (r : Round) (id : Nat) (f : Option FaultRec) : Round :=
  r.modBatch id (fun b =>
    let b1 := match f with | none => b | some x => b.record x
    { b1 with members := b1.members.filter (fun m => m.id != id) })

/-- Replaces a member. -/
def Round.setMember (r : Round) (m : Member) : Round :=
  r.modBatch m.id (fun b => { b with members := b.members.map (fun x => if x.id == m.id then m else x) })

/-- The kind code of a member's fault record (R170): 0 copy, 1 register copy, 2 interleave, 3 placement. -/
def Work.kind : Work → Nat
  | .copy _ _ _ _ _ => 0
  | .regs _ _ _ _ _ _ => 1
  | .interleave _ _ => 2
  | .place _ _ => 3

/-- Ends a member's attempt: progress, a service request, or a recorded fault (R170, R393). -/
def memberOutcome (s : State) (n : Nat) (m : Member) (progress : State → State) : Moved → State
  | .done s1 => progress s1
  | .held => s
  | .fault va c =>
    match s.rounds[n]? with
    | none => s
    | some r => s.setRoundAt n (r.finishMember m.id (some { kind := m.work.kind, addr := va, cause := c }))
  | .missing pages va =>
    match s.rounds[n]? with
    | none => s
    | some r =>
      let (s1, h) := s.requestService (s.agentOf n) (.member n m.id) pages va (s.dieOf r) (s.teamOf r).node (s.teamOf r).tix
      s1.setRoundAt n (r.setMember { m with service := h })

end Sys2Proof.Machine
end

