-- ==== Sys2Proof/Machine/Matrix.lean ====
section
/-! DEFINITION. The matrix engine and the accumulator store (R205 to R223, R266, R267), opcodes 0x180 to 0x186, 0x189 to 0x18B. -/
namespace Sys2Proof.Machine

/-- Where a team keeps the slot that a round names: the second core of a pair has slots of its own (R255). -/
def slotKey (t : Team) (r : Round) (slot : Nat) : Nat := if t.pair && r.core != t.core then 512 + slot else slot

/-- A cleared slot (R220): zeros with consistent checksums. -/
def Tile.zero : Tile := { vals := [], rows := [], cols := [], stuck := [] }
def Team.tile (t : Team) (key : Nat) : Tile := SMap.get t.slots Tile.zero key

/-- A pattern as the storage of element i returns it: stuck bits win. -/
def forceBits (stuck : List (Nat × Nat × Bool)) (i : Nat) (x : BitVec 32) : BitVec 32 :=
  stuck.foldl (fun x b =>
    if b.1 == i then
      let bit := BitVec.ofNat 32 (2 ^ b.2.1)
      if b.2.2 then x ||| bit else x &&& ~~~bit
    else x) x

/-- Element i = 64m + n of a tile. -/
def Tile.get (t : Tile) (i : Nat) : BitVec 32 := forceBits t.stuck i (t.vals.getD i 0)

/-- Row and column sums of 32-bit patterns (R222). -/
def rowSum (f : Nat → BitVec 32) (m : Nat) : BitVec 32 := (List.range 64).foldl (fun acc n => acc + f (64 * m + n)) 0
def colSum (f : Nat → BitVec 32) (n : Nat) : BitVec 32 := (List.range 64).foldl (fun acc m => acc + f (64 * m + n)) 0

/-- A slot after a write of all its elements: the sums are those of the patterns written (R222). DEDUCED: log entry 39. -/
def Tile.write (t : Tile) (vals : List (BitVec 32)) : Tile :=
  { vals := vals, rows := (List.range 64).map (rowSum (fun i => vals.getD i 0))
    cols := (List.range 64).map (colSum (fun i => vals.getD i 0)), stuck := t.stuck }

/-- The 4,096 elements of a new tile, row by row. -/
def tileVals (f : Nat → Nat → Nat) : List (BitVec 32) :=
  (List.range 4096).map (fun i => BitVec.ofNat 32 (f (i / 64) (i % 64)))

/-- Replaces a slot of a round's team. -/
def State.setTile (s : State) (r : Round) (slot : Nat) (x : Tile) : State :=
  s.modTeam r (fun t => { t with slots := SMap.set t.slots (slotKey t r slot) x })

/-- Information word of ACC_LASTING for a fenced slot: the slot with the fenced flag. -/
def fencedInfo (slot : Nat) : Word := BitVec.ofNat 64 (slot + 2 ^ 16)

/-- The slots that n handles from h name (R208), after the checks of R208 and R222. DEDUCED: log entry 34. The trap of a fenced slot comes
right after that of a handle, before every other check of the instruction. DESIGN CHOICE: log entry 76. -/
def withSlots (s : State) (r : Round) (m : Mask) (h n : Nat) (k : List Nat → Res) : Res :=
  let t := s.teamOf r
  let slots := (List.range n).map (fun i => (r.abase.toNat + h + i) % 2 ^ 64)
  if slots.any (fun x => decide (t.acc ≤ x)) then takeTrap s r 0x41 (BitVec.ofNat 64 h) r.abase (BitVec.ofNat 64 t.acc) m
  else
    match slots.find? (fun x => t.fenced.contains (slotKey t r x)) with
    | some x => takeTrap s r 0x42 (fencedInfo x) 0 0 m
    | none => k slots

/-- The check of a partial slot (R209). -/
def withPartial (s : State) (r : Round) (m : Mask) (z : Nat) (k : PartialSlot → Res) : Res :=
  let n := (s.teamOf r).zslots
  if n ≤ z then takeTrap s r 0x41 (BitVec.ofNat 64 z) r.abase (BitVec.ofNat 64 n) m
  else k (r.parts.getD z { pending := false, fa := 0, fb := 0, ka := 0, kb := 0, vals := [] })

/-- Pending mask of a round's partial slots (R218, R231). -/
def Round.pendingMask (r : Round) : Nat := r.parts.zipIdx.foldl (fun acc p => if p.1.pending then acc + 2 ^ p.2 else acc) 0

/-- SCALE_DESYNC (R231): FIFO bytes, pending mask, and the partial slot that MMAB.z or SCACC names (R215, R217). DEDUCED: log entry 7. -/
def scaleDesync (s : State) (r : Round) (m : Mask) (slot : Nat) : Res :=
  takeTrap s r 0x40 (BitVec.ofNat 64 r.fifo.length) (BitVec.ofNat 64 r.pendingMask) (BitVec.ofNat 64 slot) m

/-- Format and k fields of a block instruction as one number: FA, FB, k_A - 2, k_B - 2. -/
def formatCode (fa fb ka kb : Nat) : Word := BitVec.ofNat 64 (fa + 2 ^ 3 * fb + 2 ^ 6 * ka + 2 ^ 9 * kb)

/-- FORMAT of a partial slot (R231): its formats, and those of the instruction. -/
def partialFormat (s : State) (r : Round) (m : Mask) (p : PartialSlot) (fa fb ka kb : Nat) : Res :=
  takeTrap s r 0x43 (formatCode p.fa p.fb p.ka p.kb) (formatCode fa fb ka kb) 0 m

/-- The check of a block or tile of n bytes at a scratchpad address (R213, R220). -/
def withTileArea (s : State) (r : Round) (m : Mask) (a : Word) (n : Nat) (k : Res) : Res :=
  if a.toNat % 64 != 0 then takeTrap s r 0x21 a 0 0 m else withArea s r m a n k

/-- Element (m, k) of a fragment under the canonical placement (R206). -/
def fragElem (es width : Nat) (frag : List Lanes) (m k : Nat) : Nat :=
  let q := 64 / es
  elem es (laneOf (frag.getD (k / q + 32 / q * (m / width)) []) (m % width)) (k % q)

/-- The fragment that an instruction uses, and the round after the latch has acted (R207, R211). -/
def Round.fragment (r : Round) (reuse : Bool) (base fmt k count : Nat) : List Lanes × Round :=
  let names := (List.range count).map (fun i => base + i)
  let read := names.map r.readV
  let r1 := { r with unwr := r.unwr || names.any (fun n => (SMap.find r.v n).isNone) }
  match reuse, r.latch with
  | true, some l =>
    if l.base == base && l.fmt == fmt && l.k == k then (l.frag, r)
    else (read, { r1 with latch := some { base := base, fmt := fmt, k := k, frag := read } })
  | true, none => (read, { r1 with latch := some { base := base, fmt := fmt, k := k, frag := read } })
  | false, _ => (read, { r1 with latch := none })

/-- The names that a fragment instruction reads. -/
def fragNames (base count : Nat) : List Nat := (List.range count).map (fun i => base + i)

/-- The state as the matrix engine reads n bytes of the scratchpad for the issuing round (R229). -/
def State.readyBlock (s : State) (a n : Nat) : State := s.readyReads s.cur 3 s.nextId true ((List.range n).map (fun i => a + i))

/-- Bytes of a list at an offset as a number. -/
def bytesAt (l : List Byte) (o n : Nat) : Nat := ofBytes ((l.drop o).take n)

/-- The two formats of MMAH (R212): the latch tells them from the block formats by their code. -/
def mmahFmt (code : Nat) : Fmt := if code = 0 then .fp16 else .bf16

/-- The elements that MMAH writes (R214): each adds the 32 products of a fragment row and a block column to the slot's element, or to
zero. -/
def mmahVals (f : XForm) (width : Nat) (frag : List Lanes) (block : List Byte) (tile : Tile) : List (BitVec 32) :=
  tileVals (fun i n =>
    mmahElement (if f.z then 0 else (tile.get (64 * i + n)).toNat)
      ((List.range 32).map (fun k =>
        ((mmahFmt f.fa.toNat).value (fragElem 16 width frag i k),
         (mmahFmt f.fb.toNat).value (bytesAt block (2 * (32 * n + k)) 2)))))

/-- MMAH (R213, R214). -/
def execMmah (f : XForm) (s : State) : Res :=
  let fs : List Field := [(f.b, false)]
  let count := fragRegs 16 s.width
  let base := f.a.toNat
  begin s f.g fs (fragNames base count) (fun s r m xs =>
    if m = 0 then finish s s fs (fun q => q)
    else
      withSlots s r m f.h.toNat 1 (fun slots =>
        let b := laneOf (arg xs 0) 0
        withTileArea s r m b 4096
          (let slot := slots.headD 0
           let s1 := s.readyBlock b.toNat 4096
           let t := s1.teamOf r
           let frag := (r.fragment f.ru base (8 + f.fa.toNat) 0 count).1
           let block := Memory.readList t.spad b.toNat 4096
           let tile := t.tile (slotKey t r slot)
           let vals := mmahVals f r.width frag block tile
           finish s (s1.setTile r slot (tile.write vals)) fs
             (fun q => (q.fragment f.ru base (8 + f.fa.toNat) 0 count).2))))

/-- Offset f of a block format (R27): MXFP4, MXFP6 E2M3, MXINT8, BFP-k. -/
def blockOffset (code : Nat) : Nat := match code with | 0 => 1 | 1 => 3 | 2 => 6 | _ => 0
/-- Element width w_B of a block format (R213). -/
def mmabWidth (code k : Nat) : Nat := match code with | 0 => 4 | 1 => 6 | 2 => 8 | _ => k + 2
/-- The integer mantissa of an element code (R27, R215). -/
def mantissa (code k x : Nat) : Int :=
  match code with
  | 0 => ((miniValue 2 1 1 (x % 16)).dy.at (-1))
  | 1 => ((miniValue 2 3 1 (x % 64)).dy.at (-3))
  | 2 => sextN x 8
  | _ => sextN x (k + 2)

/-- The partial values that MMAB leaves (R215): exact integer sums of mantissa products modulo 2^32, added to a pending slot's. -/
def mmabVals (f : XForm) (width : Nat) (frag : List Lanes) (block : List Byte) (p : PartialSlot) : List (BitVec 32) :=
  let fa := f.fa.toNat
  let fb := f.fb.toNat
  let ka := f.imm.toNat % 8
  let kb := f.imm.toNat / 8 % 8
  let w := mmabWidth fb kb
  let sum (i n : Nat) : Int := (List.range 32).foldl (fun acc k =>
    acc + mantissa fa ka (fragElem (fragBits fa ka) width frag i k)
        * mantissa fb kb (streamBits w k (bytesAt block (4 * w * n) (4 * w)))) 0
  (List.range 4096).map (fun i =>
    BitVec.ofInt 32 (sum (i / 64) (i % 64)) + (if f.z || !p.pending then 0 else p.vals.getD i 0))

/-- MMAB (R213, R215). -/
def execMmab (f : XForm) (s : State) : Res :=
  let fs : List Field := [(f.b, false)]
  let fa := f.fa.toNat
  let fb := f.fb.toNat
  let ka := f.imm.toNat % 8
  let kb := f.imm.toNat / 8 % 8
  let es := fragBits fa ka
  let count := fragRegs es s.width
  let base := f.a.toNat
  let w := mmabWidth fb kb
  begin s f.g fs (fragNames base count) (fun s r m xs =>
    if m = 0 then finish s s fs (fun q => q)
    else
      withPartial s r m f.h.toNat (fun p =>
        let b := laneOf (arg xs 0) 0
        withTileArea s r m b (256 * w)
          (if f.z && p.pending then scaleDesync s r m f.h.toNat
           else if p.pending && !f.z && !(p.fa == fa && p.fb == fb && p.ka == ka && p.kb == kb) then
             partialFormat s r m p fa fb ka kb
           else
             let frag := (r.fragment f.ru base fa ka count).1
             let s1 := s.readyBlock b.toNat (256 * w)
             let block := Memory.readList (s1.teamOf r).spad b.toNat (256 * w)
             let vals := mmabVals f r.width frag block p
             finish s s1 fs (fun q =>
               let q1 := (q.fragment f.ru base fa ka count).2
               { q1 with parts := q1.parts.set f.h.toNat { pending := true, fa := fa, fb := fb, ka := ka, kb := kb, vals := vals } }))))

/-- Bytes of the scale FIFO (R216). -/
def fifoBytes : Nat := 2048

/-- SPUSH (R216). -/
def execSpush (f : RForm) (s : State) : Res :=
  let fs := [rA f]
  begin s f.g fs [] (fun s r m xs =>
    if m = 0 then finish s s fs (fun q => q)
    else if fifoBytes < r.fifo.length + 8 * r.width then scaleDesync s r m 0
    else
      finish s s fs (fun q => { q with
        fifo := q.fifo ++ (List.range r.width).flatMap (fun l => toBytes 8 (laneOf (arg xs 0) l).toNat) }))

/-- The elements that SCACC writes (R217): the partial values, scaled by the FIFO's first 64 row and 64 column scales. -/
def scaccVals (fa fb : Nat) (fifo : List Byte) (p : PartialSlot) (tile : Tile) : List (BitVec 32) :=
  let scale (i : Nat) : Nat := (fifo.getD i 0).toNat
  tileVals (fun i n =>
    scaccElement (tile.get (64 * i + n)).toNat (p.vals.getD (64 * i + n) 0).toInt (scale i) (scale (64 + n)) (blockOffset fa) (blockOffset fb))

/-- SCACC (R217). -/
def execScacc (f : XForm) (s : State) : Res :=
  let fa := f.fa.toNat
  let fb := f.fb.toNat
  let ka := f.imm.toNat % 8
  let kb := f.imm.toNat / 8 % 8
  let z := f.imm.toNat / 64 % 2
  begin s f.g [] [] (fun s r m _ =>
    if m = 0 then finish s s [] (fun q => q)
    else
      withSlots s r m f.h.toNat 1 (fun slots =>
        withPartial s r m z (fun p =>
          if !p.pending then scaleDesync s r m z
          else if r.fifo.length < 128 then scaleDesync s r m 0
          else if !(p.fa == fa && p.fb == fb && p.ka == ka && p.kb == kb) then partialFormat s r m p fa fb ka kb
          else
            let slot := slots.headD 0
            let t := s.teamOf r
            let tile := t.tile (slotKey t r slot)
            let vals := scaccVals fa fb r.fifo p tile
            finish s (s.setTile r slot (tile.write vals)) [] (fun q => { q with
              fifo := q.fifo.drop 128
              parts := q.parts.set z { pending := false, fa := 0, fb := 0, ka := 0, kb := 0, vals := [] } }))))

/-- Whether a round's scale FIFO holds bytes or a partial slot is pending (R218). -/
def Round.desync (r : Round) : Bool := !r.fifo.isEmpty || r.pendingMask != 0

/-- SCHK (R218): it acts even when no lane passes. -/
def execSchk (f : RForm) (s : State) : Res :=
  begin s f.g [] [] (fun s r m _ => if r.desync then scaleDesync s r m 0 else finish s s [] (fun q => q))

/-- AZERO (R220). -/
def execAzero (f : XForm) (s : State) : Res :=
  begin s f.g [] [] (fun s r m _ =>
    if m = 0 then finish s s [] (fun q => q)
    else
      withSlots s r m f.h.toNat 1 (fun slots =>
        let slot := slots.headD 0
        let tile := (s.teamOf r).tile (slotKey (s.teamOf r) r slot)
        finish s (s.setTile r slot { Tile.zero with stuck := tile.stuck }) [] (fun q => q)))

/-- ALD (R220). -/
def execAld (f : XForm) (s : State) : Res :=
  let fs : List Field := [(f.b, false)]
  begin s f.g fs [] (fun s r m xs =>
    if m = 0 then finish s s fs (fun q => q)
    else
      withSlots s r m f.h.toNat 1 (fun slots =>
        let b := laneOf (arg xs 0) 0
        withTileArea s r m b 16384
          (let slot := slots.headD 0
           let s1 := s.readyBlock b.toNat 16384
           let t := s1.teamOf r
           let bytes := Memory.readList t.spad b.toNat 16384
           let tile := t.tile (slotKey t r slot)
           finish s (s1.setTile r slot (tile.write (tileVals (fun i n => bytesAt bytes (4 * (64 * i + n)) 4)))) fs (fun q => q))))

/-- What the checksum procedure of R222 finds on one slot: the elements that its operation uses, the slot afterwards, and the
class: clean, transient cured by a second read, transient corrected, lasting, or beyond correction (with its rows and
columns). -/
inductive Verdict where
  | clean (vals : List (BitVec 32))
  | reread (vals : List (BitVec 32))
  | corrected (vals : List (BitVec 32)) (t : Tile)
  | lasting (vals : List (BitVec 32)) (t : Tile)
  | bad (rows cols : Mask)
  deriving DecidableEq, Repr

/-- Rows and columns whose recomputed sum differs from the stored one, with the difference (R222). -/
def rowErrors (t : Tile) (f : Nat → BitVec 32) : List (Nat × BitVec 32) :=
  ((List.range 64).map (fun m => (m, rowSum f m - t.rows.getD m 0))).filter (fun p => p.2 != 0)
def colErrors (t : Tile) (f : Nat → BitVec 32) : List (Nat × BitVec 32) :=
  ((List.range 64).map (fun n => (n, colSum f n - t.cols.getD n 0))).filter (fun p => p.2 != 0)

/-- All elements of a function. -/
def allVals (f : Nat → BitVec 32) : List (BitVec 32) := (List.range 4096).map f

/-- A read after a write-back: whether the correction holds (R222). -/
def afterCorrection (t : Tile) (vals : List (BitVec 32)) : Verdict :=
  let t1 := { t with vals := vals }
  if (rowErrors t1 t1.get).isEmpty && (colErrors t1 t1.get).isEmpty then .corrected vals t1 else .lasting vals t1

/-- The checksum procedure (R222), its first read with the armed flip (R267). -/
def verify (t : Tile) (flip : Option Flip) : Verdict :=
  let first (i : Nat) : BitVec 32 :=
    match flip with
    | some x => if i == x.elem then t.get i ^^^ BitVec.ofNat 32 (2 ^ x.bit) else t.get i
    | none => t.get i
  if (rowErrors t first).isEmpty && (colErrors t first).isEmpty then .clean (allVals first)
  else
    match rowErrors t t.get, colErrors t t.get with
    | [], [] => .reread (allVals t.get)
    | [(m, d)], [(n, e)] =>
      if d == e then afterCorrection t (allVals (fun i => if i == 64 * m + n then t.get i - d else t.get i))
      else .bad (maskOf (fun l => l == m)) (maskOf (fun l => l == n))
    | [(m, _)], [] => afterCorrection { t with rows := (List.range 64).map (fun k => if k = m then rowSum t.get m else t.rows.getD k 0) } (allVals t.get)
    | [], [(n, _)] => afterCorrection { t with cols := (List.range 64).map (fun k => if k = n then colSum t.get n else t.cols.getD k 0) } (allVals t.get)
    | rs, cs => .bad (maskOf (fun l => rs.any (fun x => x.1 == l))) (maskOf (fun l => cs.any (fun x => x.1 == l)))

/-- Counts a slot as retired or fenced (R222, R223). -/
def Core.retire (c : Core) : Core :=
  if 0 < c.spare then { c with spare := c.spare - 1, retired := min 255 (c.retired + 1) }
  else { c with retired := min 255 (c.retired + 1), fencedSlot := true }

/-- The state after a verification read of a slot (R222, R267): the flip is used up, the class is counted, and a lasting slot is
retired to a spare, or fenced, with an event that holds the slot and, as 1, that no spare was left. DEDUCED: log entry 7. -/
def State.classify (s : State) (r : Round) (slot : Nat) (v : Verdict) : State :=
  let s1 := s.modTeam r (fun t => { t with flips := t.flips.filter (fun x => x.slot != slotKey t r slot) })
  let c := s1.core r.core
  match v with
  | .clean _ => s1
  | .reread _ => s1.setCore r.core { c with trans := min 0xFFFF (c.trans + 1) }
  | .corrected _ t => (s1.setTile r slot t).setCore r.core { c with corr := min 0xFFFF (c.corr + 1) }
  | .lasting _ t =>
    let fence := c.spare == 0
    let s2 := (s1.setTile r slot (if fence then t else { t with stuck := [] })).setCore r.core c.retire
    let s3 := if fence then s2.modTeam r (fun t => { t with fenced := slotKey t r slot :: t.fenced }) else s2
    s3.enqueue (s.teamOf r).part
      [eventEntry s r 0x42 (BitVec.ofNat 64 slot) (if fence then 1 else 0) 0]
  | .bad _ _ => s1

/-- The flip armed for a slot (R266). -/
def Team.flip (t : Team) (key : Nat) : Option Flip := t.flips.find? (fun x => x.slot == key)

/-- The verdict on a slot of a round's team. DEDUCED: log entry 41. -/
def State.verdict (s : State) (r : Round) (slot : Nat) : Verdict :=
  let t := s.teamOf r
  verify (t.tile (slotKey t r slot)) (t.flip (slotKey t r slot))

/-- The trap of a slot beyond correction (R222). -/
def accLasting (s : State) (r : Round) (m : Mask) (slot : Nat) (rows cols : Mask) : Res :=
  onRound s (fun q => takeTrap s { q with unwr := r.unwr } 0x42 (BitVec.ofNat 64 slot) rows cols m)

/-- ACHK (R220, R222). -/
def execAchk (f : XForm) (s : State) : Res :=
  begin s f.g [] [] (fun s r m _ =>
    if m = 0 then finish s s [] (fun q => q)
    else
      withSlots s r m f.h.toNat 1 (fun slots =>
        let slot := slots.headD 0
        match s.verdict r slot with
        | .bad rows cols => accLasting (s.classify r slot (.bad rows cols)) r m slot rows cols
        | v => finish s (s.classify r slot v) [] (fun q => q)))

/-- AREL (R221). -/
def execArel (f : RForm) (s : State) : Res :=
  begin s f.g [] [] (fun s _ m _ => finish s s [] (fun q => if m = 0 then q else { q with latch := none }))

/-- ASET (R221). -/
def execAset (f : IForm) (s : State) : Res :=
  let fs := [iA f]
  begin s f.g fs [] (fun s _ m xs =>
    finish s s fs (fun q =>
      match lowestLane m with
      | none => q
      | some l => { q with abase := laneOf (arg xs 0) l + f.imm.signExtend 64 }))

end Sys2Proof.Machine
end

