-- ==== Sys2Proof/Machine/Projection.lean ====
section
/-! DEFINITION. The projection engine (R232 to R243) and the projection adjoint PJADJ (R244 to R248), opcode 0x188. -/
namespace Sys2Proof.Machine

/-- The FP32 canonical NaN. -/
def nan32 : Nat := Fmt.fp32.nan
/-- The exact value of an FP32 pattern. -/
def dy32 (x : Nat) : Dy := (Fmt.fp32.value x).dy
def isNan32 (x : Nat) : Bool := (Fmt.fp32.value x).isNan
def isFinite32 (x : Nat) : Bool := !(Fmt.fp32.value x).isNan && !(Fmt.fp32.value x).isInf
def isPositive32 (x : Nat) : Bool := isFinite32 x && Dy.zero.lt (dy32 x)

/-- rne(x / d) for an integer d > 0; an exact zero is +0 (R17, R234). -/
def rneQuot (x : Dy) (d : Nat) : Nat :=
  match x.toX false with
  | .rat neg num den => Fmt.fp32.round .rne false (.rat neg num (den * d))
  | z => Fmt.fp32.round .rne false z

/-- rne(x / y) for dyadic x and y > 0. -/
def rneRatio (x y : Dy) : Nat := rneQuot ⟨x.m, x.e - y.e⟩ y.m.natAbs

/-- rne(±√(x / y)) for x ≥ 0 and y > 0. -/
def rneRoot (neg : Bool) (x y : Dy) : Nat :=
  if x.m = 0 then 0
  else
    let e := x.e - y.e
    if 0 ≤ e then Fmt.fp32.roundSqrt neg (x.m.natAbs * 2 ^ e.toNat) y.m.natAbs
    else Fmt.fp32.roundSqrt neg x.m.natAbs (y.m.natAbs * 2 ^ (-e).toNat)

/-- Inserts in descending order. -/
def insertDesc (x : Dy) : List Dy → List Dy
  | [] => [x]
  | y :: ys => if y.lt x then x :: y :: ys else y :: insertDesc x ys
/-- Descending order (R236). -/
def sortDesc (l : List Dy) : List Dy := l.foldl (fun acc x => insertDesc x acc) []

/-- k and S_k of R236: the last j whose test passes, with the prefix sum there. -/
def simplexScan (s : Dy) : List Dy → Nat → Dy → Nat × Dy → Nat × Dy
  | [], _, _, best => best
  | y :: ys, j, sum, best =>
    let sum1 := sum.add y
    let j1 := j + 1
    simplexScan s ys j1 sum1 (if (sum1.sub s).lt ⟨y.m * j1, y.e⟩ then (j1, sum1) else best)

/-- k and the numerator S_k - s of τ = (S_k - s) / k (R236). -/
def simplexTau (z : List Dy) (s : Dy) : Nat × Dy :=
  let (k, sk) := simplexScan s (sortDesc z) 0 Dy.zero (0, Dy.zero)
  (k, sk.sub s)

/-- k·z - (S_k - s): its sign is that of z - τ. -/
def aboveTau (z : Dy) (k : Nat) (tau : Dy) : Dy := Dy.sub ⟨z.m * k, z.e⟩ tau

/-- A projected row: output patterns, count, applied bit, p0, and the bitmaps (R241, R242). -/
structure RowResult where
  out : List Nat
  count : Nat
  applied : Bool
  p0 : Nat
  mapA : List Bool
  mapB : List Bool
  deriving DecidableEq, Repr

def noBits (z : List Nat) : List Bool := z.map (fun _ => false)

/-- SIMPLEX (R236). -/
def projSimplex (z : List Nat) (s : Nat) : RowResult :=
  let (k, tau) := simplexTau (z.map dy32) (dy32 s)
  { out := z.map (fun x => if Dy.zero.lt (aboveTau (dy32 x) k tau) then rneQuot (aboveTau (dy32 x) k tau) k else 0)
    count := k, applied := true, p0 := rneQuot tau k
    mapA := z.map (fun x => decide (0 < (aboveTau (dy32 x) k tau).m)), mapB := noBits z }

/-- The sign bit of an FP32 pattern. -/
def sign32 (x : Nat) : Bool := x / 2 ^ 31 % 2 == 1

/-- L1BALL (R237). -/
def projL1 (z : List Nat) (r : Nat) : RowResult :=
  let ab := z.map (fun x => (dy32 x).abs)
  if (Dy.sum ab).le (dy32 r) then
    { out := z, count := (z.filter (fun x => (dy32 x).m != 0)).length, applied := false, p0 := 0
      mapA := z.map (fun x => (dy32 x).m != 0), mapB := noBits z }
  else
    let (k, tau) := simplexTau ab (dy32 r)
    let inside (x : Nat) : Bool := decide (0 < (aboveTau (dy32 x).abs k tau).m)
    { out := z.map (fun x =>
        if inside x then
          let y := rneQuot (aboveTau (dy32 x).abs k tau) k
          if y = 0 then 0 else Fmt.fp32.signed (sign32 x) y
        else 0)
      count := k, applied := true, p0 := rneQuot tau k
      mapA := z.map inside, mapB := z.map (fun x => inside x && decide ((dy32 x).m < 0)) }

/-- L2BALL (R238). -/
def projL2 (z : List Nat) (r : Nat) : RowResult :=
  let sq := Dy.sum (z.map (fun x => (dy32 x).mul (dy32 x)))
  let rr := (dy32 r).mul (dy32 r)
  let p0 := rneRoot false sq ⟨1, 0⟩
  if sq.le rr then
    { out := z, count := 0, applied := false, p0 := p0, mapA := noBits z, mapB := noBits z }
  else
    { out := z.map (fun x => rneRoot (sign32 x) (((dy32 x).mul (dy32 x)).mul rr) sq)
      count := 1, applied := true, p0 := p0, mapA := noBits z, mapB := noBits z }

/-- BOX (R239). -/
def projBox (z : List Nat) (lo hi : Nat) : RowResult :=
  let key := valueKey Fmt.fp32
  let inside (x : Nat) : Bool := !isNan32 x && decide (key lo < key x) && decide (key x < key hi)
  { out := z.map (fun x =>
      if isNan32 x then nan32 else if key x < key lo then lo else if key hi < key x then hi else x)
    count := (z.filter inside).length, applied := true, p0 := 0, mapA := z.map inside, mapB := noBits z }

/-- A block of the pool-adjacent-violators procedure (R240). -/
structure MonoBlock where
  sum : Dy
  n : Nat
  start : Nat
  deriving DecidableEq, Repr

/-- Pushes a block and merges while the two top blocks violate the order (R240). -/
def monoPush (up : Bool) (t : MonoBlock) : List MonoBlock → List MonoBlock
  | [] => [t]
  | l :: rest =>
    let x : Dy := ⟨l.sum.m * t.n, l.sum.e⟩
    let y : Dy := ⟨t.sum.m * l.n, t.sum.e⟩
    if (if up then y.lt x else x.lt y) then monoPush up { sum := l.sum.add t.sum, n := l.n + t.n, start := l.start } rest
    else t :: l :: rest

/-- MONO_UP and MONO_DOWN (R240). -/
def projMono (z : List Nat) (up : Bool) : RowResult :=
  let blocks := (z.zipIdx.foldl (fun st p => monoPush up { sum := dy32 p.1, n := 1, start := p.2 } st) []).reverse
  { out := blocks.flatMap (fun b => List.replicate b.n (rneQuot b.sum b.n))
    count := blocks.length, applied := true, p0 := 0
    mapA := blocks.flatMap (fun b => (List.range b.n).map (fun i => i == 0)), mapB := noBits z }

/-- A row that is not projected (R235). -/
def projNone (z : List Nat) : RowResult :=
  { out := z.map (fun _ => nan32), count := 0xFFFF, applied := false, p0 := 0, mapA := noBits z, mapB := noBits z }

/-- The projection of a row for selectors 1 to 6 (R233, R235). -/
def project (psel par1 par2 : Nat) (z : List Nat) : RowResult :=
  if psel = 4 then projBox z par1 par2
  else if z.any (fun x => !isFinite32 x) then projNone z
  else
    match psel with
    | 1 => projSimplex z par1
    | 2 => projL1 z par1
    | 3 => projL2 z par1
    | 5 => projMono z true
    | _ => projMono z false

/-- Whether the parameters of a selector are those that R233 asks for. -/
def projParamsOk (psel par1 par2 : Nat) : Bool :=
  match psel with
  | 1 => isPositive32 par1
  | 2 => isPositive32 par1
  | 3 => isPositive32 par1
  | 4 => !isNan32 par1 && !isNan32 par2 && decide (valueKey Fmt.fp32 par1 ≤ valueKey Fmt.fp32 par2)
  | _ => true

/-- Whether the parameters that a selector does not use are zero (R233). -/
def projZerosOk (psel par1 par2 : Nat) : Bool :=
  match psel with
  | 0 => par1 == 0 && par2 == 0
  | 4 => true
  | 5 => par1 == 0 && par2 == 0
  | 6 => par1 == 0 && par2 == 0
  | 7 => true
  | _ => par2 == 0

/-- Words of a bitmap over L columns, and bytes of a record (R241). -/
def mapWords (l : Nat) : Nat := (l + 63) / 64
def recordSize (l : Nat) : Nat := 16 + 16 * mapWords l

/-- A bitmap as bytes. -/
def mapBytes (l : Nat) (b : List Bool) : List Byte :=
  toBytes (8 * mapWords l) (b.foldr (fun x acc => (if x then 1 else 0) + 2 * acc) 0)

/-- A row record (R241). -/
def rowRecord (psel par1 : Nat) (l : Nat) (x : RowResult) : List Byte :=
  toBytes 2 x.count ++ toBytes 2 (l - 1 + 2 ^ 12 * psel + (if x.applied then 2 ^ 15 else 0)) ++ toBytes 4 0
    ++ toBytes 4 x.p0 ++ toBytes 4 par1 ++ mapBytes l x.mapA ++ mapBytes l x.mapB

/-- A parsed row record (R241). -/
structure RowRecord where
  count : Nat
  l : Nat
  psel : Nat
  applied : Bool
  zero : Nat
  p0 : Nat
  p1 : Nat
  mapA : Nat
  mapB : Nat
  deriving DecidableEq, Repr

/-- Reads a record whose header and bitmaps stand in a list of bytes. -/
def parseRecord (b : List Byte) : RowRecord :=
  let h := bytesAt b 2 2
  let l := h % 2 ^ 12 + 1
  { count := bytesAt b 0 2, l := l, psel := h / 2 ^ 12 % 8, applied := h.testBit 15, zero := bytesAt b 4 4
    p0 := bytesAt b 8 4, p1 := bytesAt b 12 4
    mapA := bytesAt b 16 (8 * mapWords l), mapB := bytesAt b (16 + 8 * mapWords l) (8 * mapWords l) }

/-- The header checks of R245 order 3. -/
def headerOk (h : RowRecord) : Bool :=
  1 ≤ h.psel && h.psel ≤ 6 && h.zero == 0 && (3 < h.psel || isPositive32 h.p1)
    && (h.count == 0xFFFF || h.applied || h.psel == 2 || h.psel == 3)
    && (1 ≤ h.count || !(h.psel == 1 || (h.psel == 2 && h.applied)))

/-- The record checks of R245 order 5. -/
def recordOk (h : RowRecord) : Bool :=
  let inside (x : Nat) : Bool := x < 2 ^ h.l
  if h.count = 0xFFFF then h.mapA == 0 && h.mapB == 0 && !h.applied
  else if h.psel = 3 then
    h.mapA == 0 && h.mapB == 0 && h.count == (if h.applied then 1 else 0) && (!h.applied || isPositive32 h.p0)
  else
    h.count == popcountN (64 * mapWords h.l) h.mapA && (if h.psel = 2 then Nat.lor h.mapB h.mapA == h.mapA else h.mapB == 0)
      && inside h.mapA && inside h.mapB && (!(h.psel == 5 || h.psel == 6) || h.mapA.testBit 0)

/-- An output that copies a gradient pattern; a NaN copies as canonical NaN (R246). -/
def copy32 (x : Nat) : Nat := if isNan32 x then nan32 else x

/-- The blocks of MONO from the start bits: start and length of each (R246). -/
def startBlocks (l mapA : Nat) : List (Nat × Nat) :=
  ((List.range l).foldl (fun (acc : List (Nat × Nat)) i =>
    if mapA.testBit i then (i, 1) :: acc
    else
      match acc with
      | [] => []
      | b :: bs => (b.1, b.2 + 1) :: bs) []).reverse

/-- The adjoint of R246 on the gradient g and the forward output x. -/
def adjoint (h : RowRecord) (g x : List Nat) : List Nat :=
  let finite (l : List Nat) : Bool := l.all isFinite32
  if h.count = 0xFFFF then g.map (fun _ => nan32)
  else if (h.psel = 1 || h.psel = 2) && h.applied then
    let ks := (List.range h.l).filter (fun i => h.mapA.testBit i)
    let neg (i : Nat) : Bool := h.mapB.testBit i
    let signed (i : Nat) (d : Dy) : Dy := if neg i then d.neg else d
    let ok := finite (ks.map (fun i => g.getD i 0))
    let m := rneQuot (Dy.sum (ks.map (fun i => signed i (dy32 (g.getD i 0))))) h.count
    (List.range h.l).map (fun i =>
      if !h.mapA.testBit i then 0
      else if !ok then nan32
      else rneDy .fp32 ((dy32 (g.getD i 0)).sub (signed i (dy32 m))))
  else if (h.psel = 2 || h.psel = 3) && !h.applied then g.map copy32
  else if h.psel = 3 then
    if !(finite g && finite x) then g.map (fun _ => nan32)
    else
      let n := dy32 h.p0
      let r := dy32 h.p1
      let dot := Dy.sum ((x.zip g).map (fun p => (dy32 p.1).mul (dy32 p.2)))
      (g.zip x).map (fun p =>
        rneRatio (((r.mul r).mul (dy32 p.1)).sub ((dy32 p.2).mul dot)) (n.mul r))
  else if h.psel = 4 then g.zipIdx.map (fun p => if h.mapA.testBit p.2 then copy32 p.1 else 0)
  else
    (startBlocks h.l h.mapA).flatMap (fun b =>
      let part := (g.drop b.1).take b.2
      List.replicate b.2 (if finite part then rneQuot (Dy.sum (part.map dy32)) b.2 else nan32))

/-- L FP32 values of a list of bytes. -/
def words32 (l : Nat) (b : List Byte) : List Nat := (List.range l).map (fun i => bytesAt b (4 * i) 4)

/-- PJ_RECORD (R248): the record address and the failing order. -/
def pjRecord (s : State) (r : Round) (m : Mask) (a : Word) (order : Word) : Res := takeTrap s r 0x45 a order 0 m

/-- SPAD_ALIGN unless an address is a multiple of n. -/
def withAlign (s : State) (r : Round) (m : Mask) (a : Word) (n : Nat) (k : Res) : Res :=
  if a.toNat % n != 0 then takeTrap s r 0x21 a 0 0 m else k

/-- PJADJ (R244 to R247): on the LS path; it reads and writes at one instant. DESIGN CHOICE: log entry 9. -/
def execPjadj (f : RForm) (s : State) : Res :=
  let fs : List Field := [(f.a, false), (f.b, false), (f.c, false), (f.d, false)]
  begin s f.g fs [] (fun s r m xs =>
    if m = 0 then finish s s fs (fun q => q)
    else
      let a := laneOf (arg xs 0) 0
      let b := laneOf (arg xs 1) 0
      let c := laneOf (arg xs 2) 0
      let d := laneOf (arg xs 3) 0
      withAlign s r m b 8 (withAlign s r m a 4 (withAlign s r m d 4
        (withArea s r m b 16
          (withSpad s (spadRange b 16) (fun s1 r1 head =>
            let hdr := parseRecord head
            let l := hdr.l
            if !headerOk hdr then pjRecord s1 r1 m b 3
            else
              withAreas s1 r1 m [(b, [(b, recordSize l)]), (a, [(a, 4 * l)]), (d, [(d, 4 * l)])]
                (withSpad s1 (spadRange b (recordSize l)) (fun s2 r2 rec_ =>
                  let h := parseRecord rec_
                  if !recordOk h then pjRecord s2 r2 m b 5
                  else
                    let go (x : Nat) : Res :=
                      withSpad s2 (spadRange a (4 * l) ++ spadRange c x) (fun s3 r3 y =>
                        let out := (adjoint h (words32 l y) (words32 l (y.drop (4 * l)))).flatMap (toBytes 4)
                        finish s (s3.storeSpad r3 (out.zipIdx.map (fun p => (d.toNat + p.2, p.1)))) fs (fun q => q))
                    if h.psel = 3 && h.applied && h.count != 0xFFFF then
                      withAlign s2 r2 m c 4 (withArea s2 r2 m c (4 * l) (go (4 * l)))
                    else go 0))))))))

end Sys2Proof.Machine
end

