-- ==== Sys2Proof/Machine/Drain.lean ====
section
/-! DEFINITION. The drain (R224 to R228), opcode 0x187, and the event that makes its writes visible. -/
namespace Sys2Proof.Machine

/-- A drain descriptor (R224). -/
structure DrainDesc where
  dst : Word
  dkind : Nat
  ofmt : Nat
  qsrch : Bool
  res : Word
  rkind : Nat
  rfmt : Nat
  ren : Bool
  sup : Nat
  psel : Nat
  sen : Bool
  den : Bool
  zeros : Nat
  stream : Nat
  stride : Nat
  g : Nat
  l : Nat
  cbase : Nat
  alpha : Nat
  ikeep : Nat
  k0 : Nat
  k1 : Nat
  thresh : Nat
  rbase : Nat
  par1 : Nat
  par2 : Nat
  deriving DecidableEq, Repr

/-- An address field: sign-extended from bit 56 for memory, team-relative for the scratchpad (R224). -/
def drainAddr (w : Nat) (kind : Nat) : Word :=
  if kind = 0 then (BitVec.ofNat 57 w).signExtend 64 else BitVec.ofNat 64 (bitsN w 56 0)

/-- Reads a descriptor from its 64 bytes (R224). -/
def readDrain (b : List Byte) : DrainDesc :=
  let w (i : Nat) : Nat := bytesAt b (8 * i) 8
  let dkind := bitsN (w 0) 57 57
  let rkind := bitsN (w 1) 57 57
  { dst := drainAddr (w 0) dkind, dkind := dkind, ofmt := bitsN (w 0) 62 58, qsrch := (w 0).testBit 63
    res := drainAddr (w 1) rkind, rkind := rkind, rfmt := bitsN (w 1) 62 58, ren := (w 1).testBit 63
    sup := bitsN (w 2) 20 0 + 2 ^ 21 * bitsN (w 2) 26 26, psel := bitsN (w 2) 23 21
    sen := (w 2).testBit 24, den := (w 2).testBit 25, zeros := bitsN (w 2) 31 27 + bitsN (w 3) 63 62 + bitsN (w 2) 2 0
    stream := bitsN (w 2) 63 32, stride := bitsN (w 3) 19 0, g := bitsN (w 3) 25 20 + 1, l := bitsN (w 3) 37 26 + 1
    cbase := bitsN (w 3) 61 38, alpha := bitsN (w 4) 31 0, ikeep := bitsN (w 4) 63 32, k0 := bitsN (w 5) 31 0
    k1 := bitsN (w 5) 63 32, thresh := bitsN (w 6) 31 0, rbase := bitsN (w 6) 63 32, par1 := bitsN (w 7) 31 0
    par2 := bitsN (w 7) 63 32 }

/-- Element formats and block formats of ofmt (R224). -/
def isElemFmt (c : Nat) : Bool := 1 ≤ c && c ≤ 5
def isBlockFmt (c : Nat) : Bool := c == 6 || c == 7 || c == 9 || (0x12 ≤ c && c ≤ 0x18)
def elemFmt (c : Nat) : Fmt := match c with | 1 => .fp32 | 2 => .fp16 | 3 => .bf16 | 4 => .e4m3 | _ => .e5m2
def fmtBytes (c : Nat) : Nat := match c with | 1 => 4 | 2 => 2 | 3 => 2 | _ => 1

/-- The field checks of R225 order 4. DEDUCED: log entry 40. -/
def DrainDesc.fieldsOk (d : DrainDesc) : Bool :=
  d.l ≤ 64 * d.g && 64 * d.g ≤ d.stride && (!isBlockFmt d.ofmt || d.stride % 32 == 0) && d.zeros == 0
    && projZerosOk d.psel d.par1 d.par2

/-- The byte runs that the rows of a group write: address and length (R226 stage 7). -/
def DrainDesc.dstRuns (d : DrainDesc) : List (Word × Nat) :=
  if isElemFmt d.ofmt then
    (List.range 64).map (fun m => (d.dst + BitVec.ofNat 64 (fmtBytes d.ofmt * (m * d.stride)), fmtBytes d.ofmt * (64 * d.g)))
  else
    let w := blockWidth d.ofmt
    (List.range 64).map (fun m => (d.dst + BitVec.ofNat 64 (w * m * d.stride / 8), 8 * w * d.g))
      ++ (List.range 64).map (fun m => (d.dst + BitVec.ofNat 64 (8 * w * d.stride + m * (d.stride / 32)), 2 * d.g))

/-- The byte runs of the residual (R226 stage 3). -/
def DrainDesc.resRuns (d : DrainDesc) : List (Word × Nat) :=
  if d.ren then
    (List.range 64).map (fun m => (d.res + BitVec.ofNat 64 (fmtBytes d.rfmt * (m * d.stride)), fmtBytes d.rfmt * d.l))
  else []

/-- The support area (R241). -/
def DrainDesc.supRuns (d : DrainDesc) : List (Word × Nat) :=
  if d.sen && d.psel != 0 then [(BitVec.ofNat 64 d.sup, 64 * recordSize d.l)] else []

/-- Translations of memory runs: physical addresses of every byte of each run (R225 order 8). -/
def State.runXlat (s : State) (r : Round) (write : Bool) (x : Word × Nat) : LaneXlat :=
  translateRange (s.xlat r write) x.1 x.2

/-- Translates every page before any stage writes (R225 order 8): refusals first, then service for all missing pages. -/
def withDrainPages (s : State) (r : Round) (m : Mask) (runs : List (Bool × Word × Nat)) (k : Res) : Res :=
  let xs := runs.map (fun x => (x.2.1, s.runXlat r x.1 x.2))
  match xs.findSome? (fun x => match x.2 with | .refused f => some (x.1, f) | _ => none) with
  | some (a, f) => takeTrap s r 0x61 a (BitVec.ofNat 64 f) 0 m
  | none =>
    match xs.filterMap (fun x => match x.2 with | .missing ps lv => some (x.1, ps, lv) | _ => none) with
    | x :: rest =>
      .next (parkService s r ((x :: rest).foldl (fun acc y => y.2.1.foldl (fun acc p => insertPage p acc) acc) []) m m x.1 x.2.2)
    | [] => if xs.any (fun x => x.2 == .held) then stall s r .engine else k

/-- Physical addresses of a translated run. -/
def runPas (x : LaneXlat) : List Nat := match x with | .ok pas => pas | _ => []

/-- MEMORY_LASTING where the residual reads a lasting sector (R289). -/
def withCleanRuns (s : State) (r : Round) (m : Mask) (d : DrainDesc) (k : Res) : Res :=
  if d.rkind = 1 then k
  else
    match (d.resRuns.flatMap (fun x => runPas (s.runXlat r false x))).find? s.isLasting with
    | some pa => takeTrap s r 0x63 (BitVec.ofNat 64 (pa / 32 * 32)) 0 0 m
    | none => k

/-- The checks of R225 at issue that follow those of the descriptor's place, in their order. -/
def withDrainChecks (s : State) (r : Round) (m : Mask) (h : Nat) (d : DrainDesc) (k : DrainDesc → List Nat → Res) : Res :=
     withSlots s r m h d.g (fun slots =>
       if !(isElemFmt d.ofmt || isBlockFmt d.ofmt) || !(1 ≤ d.rfmt && d.rfmt ≤ 3) then
         takeTrap s r 0x43 (BitVec.ofNat 64 d.ofmt) (BitVec.ofNat 64 d.rfmt) 0 m
       else if !d.fieldsOk then takeTrap s r 0x02 0x80 0 0 m
       else if d.psel = 7 then takeTrap s r 0x02 0x80 0 0 m
       else if !projParamsOk d.psel d.par1 d.par2 then
         takeTrap s r 0x44 (BitVec.ofNat 64 d.psel) (BitVec.ofNat 64 d.par1) (BitVec.ofNat 64 d.par2) m
       else
         withAreas s r m [(d.dst, if d.dkind = 1 then d.dstRuns else []), (d.res, if d.rkind = 1 then d.resRuns else []),
             (BitVec.ofNat 64 d.sup, d.supRuns)]
           (withDrainPages s r m
             ((if d.dkind = 0 then d.dstRuns.map (fun x => (true, x)) else [])
               ++ (if d.rkind = 0 then d.resRuns.map (fun x => (false, x)) else []))
             (withCleanRuns s r m d (k d slots))))

/-- The ten rounds of Philox4x32 (R227). -/
def philoxRounds : Nat → Nat × Nat × Nat × Nat → Nat → Nat → Nat
  | 0, c, _, _ => c.1
  | n + 1, (c0, c1, c2, c3), k0, k1 =>
    let p0 := c0 * 0xD2511F53
    let p1 := c2 * 0xCD9E8D57
    philoxRounds n
      (Nat.xor (Nat.xor (p1 / 2 ^ 32) c1) k0, p1 % 2 ^ 32, Nat.xor (Nat.xor (p0 / 2 ^ 32) c3) k1, p0 % 2 ^ 32)
      ((k0 + 0x9E3779B9) % 2 ^ 32) ((k1 + 0xBB67AE85) % 2 ^ 32)
def philox (c0 c1 c2 c3 k0 k1 : Nat) : Nat := philoxRounds 10 (c0, c1, c2, c3) k0 k1

/-- An exact FP32 result rounded once, an exact zero being +0 (R17, R226). -/
def rneZero : XVal → Nat
  | .zero _ => 0
  | x => Fmt.fp32.round .rne false x

/-- Stages 2 to 4 of R226 for row m and column c; `res` is the residual's pattern in rfmt. -/
def drainValue (d : DrainDesc) (m c tile : Nat) (res : Option Nat) : Nat :=
  let v := Fmt.fp32.value
  let x := rneZero ((v d.alpha).mul (v tile)).toX
  let x := match res with
    | some p => rneZero ((v x).add .rne ((elemFmt d.rfmt).value p))
    | none => x
  if d.den then
    if philox ((d.rbase + m) % 2 ^ 32) ((d.cbase + c) % 2 ^ 32) d.stream 0 d.k0 d.k1 < d.thresh then
      rneZero ((v x).mul (v d.ikeep)).toX
    else 0
  else x

/-- A row of L values before projection. -/
def drainRow (d : DrainDesc) (m : Nat) (tiles : List (List (BitVec 32))) (res : List Byte) : List Nat :=
  (List.range d.l).map (fun c =>
    drainValue d m c ((tiles.getD (c / 64) []).getD (64 * m + c % 64) 0).toNat
      (if d.ren then some (bytesAt res (fmtBytes d.rfmt * c) (fmtBytes d.rfmt)) else none))

/-- Stage 6 for a row: the bytes of its elements over 64g columns, and its scale bytes (R25, R226). -/
def drainBytes (d : DrainDesc) (x : List Nat) : List Byte × List Byte :=
  let cols := (List.range (64 * d.g)).map (fun c => x.getD c 0)
  if isElemFmt d.ofmt then
    (cols.zipIdx.flatMap (fun p =>
      toBytes (fmtBytes d.ofmt) (if p.2 < d.l then fpCvt .fp32 (elemFmt d.ofmt) .rne false p.1 else 0)), [])
  else
    let grid := Grid.ofCode d.ofmt
    let blocks := (List.range (2 * d.g)).map (fun b => quantize grid d.qsrch ((cols.drop (32 * b)).take 32))
    (blocks.flatMap (fun b => toBytes (4 * grid.k) (packStream grid.k (b.2.map grid.code))),
     blocks.map (fun b => BitVec.ofNat 8 b.1))

/-- Bytes gathered into the writes of naturally aligned 8-byte words, as they follow one another (R228). -/
def gatherWords : List (Nat × Byte) → List (List (Nat × Byte))
  | [] => []
  | x :: xs =>
    match gatherWords xs with
    | [] => [[x]]
    | y :: ys => if (y.headD (0, 0)).1 / 8 == x.1 / 8 then (x :: y) :: ys else [x] :: y :: ys

/-- The bytes of a run where they go: physical addresses for kind 0, scratchpad addresses for kind 1. -/
def runCells (s : State) (r : Round) (kind : Nat) (x : Word × Nat) (bytes : List Byte) : List (Nat × Byte) :=
  (if kind = 1 then (List.range x.2).map (fun i => x.1.toNat + i) else runPas (s.runXlat r true x)).zip bytes

/-- Residual bytes of row m, read on the MX path (R226, R229). -/
def residualBytes (s : State) (r : Round) (d : DrainDesc) (m : Nat) : List Byte :=
  match d.resRuns[m]? with
  | none => []
  | some x =>
    if d.rkind = 1 then Memory.readList (s.teamOf r).spad x.1.toNat x.2
    else (runPas (s.runXlat r false x)).map (Memory.read s.mem)

/-- The state as the residual is read on the MX path for the issuing round (R229). -/
def State.readyResidual (s : State) (r : Round) (d : DrainDesc) : State :=
  if d.rkind = 1 then s.readyReads s.cur 3 s.nextId true (d.resRuns.flatMap (fun x => spadRange x.1 x.2))
  else s.readyReads s.cur 3 s.nextId false (d.resRuns.flatMap (fun x => runPas (s.runXlat r false x)))

/-- What row m of a drain writes (R226 stages 2 to 7, R241), from the values of its slots: element bytes, scale bytes and its support
record. -/
def drainRowBytes (s : State) (r : Round) (d : DrainDesc) (tiles : List (List (BitVec 32))) (m : Nat) : List Byte × List Byte × List Byte :=
  let z := drainRow d m tiles (residualBytes s r d m)
  let p := project d.psel d.par1 d.par2 z
  let out := drainBytes d (if d.psel = 0 then z else p.out)
  (out.1, out.2, if d.sen && d.psel != 0 then rowRecord d.psel d.par1 d.l p else [])

/-- All writes of a drain (R226, R241), each of one 8-byte word whole, whichever rows share it (R228): the elements of all rows, their
scales, and their support records. -/
def drainWrites (s : State) (r : Round) (d : DrainDesc) (tiles : List (List (BitVec 32))) : List (Nat × List (Nat × Byte)) :=
  let runs := d.dstRuns
  let rows := (List.range 64).map (fun m => (m, drainRowBytes s r d tiles m))
  let elems := rows.flatMap (fun x => runCells s r d.dkind (runs.getD x.1 (0, 0)) x.2.1)
  let scales := if isBlockFmt d.ofmt then rows.flatMap (fun x => runCells s r d.dkind (runs.getD (64 + x.1) (0, 0)) x.2.2.1) else []
  let records := rows.flatMap (fun x =>
    runCells s r 1 (BitVec.ofNat 64 (d.sup + x.1 * recordSize d.l), recordSize d.l) x.2.2.2)
  (gatherWords (elems ++ scales)).map (fun w => (d.dkind, w)) ++ (gatherWords records).map (fun w => (1, w))

/-- The elements that a verified slot supplies. -/
def Verdict.vals : Verdict → List (BitVec 32)
  | .clean v => v
  | .reread v => v
  | .corrected v _ => v
  | .lasting v _ => v
  | .bad _ _ => []

/-- Stage 1 (R226): the slots in ascending handle order; the classifications made before a trap stand. -/
def drainReads (s : State) (r : Round) : List Nat → State × (Option (Nat × Mask × Mask)) × List (List (BitVec 32))
  | [] => (s, none, [])
  | slot :: rest =>
    match s.verdict r slot with
    | .bad rows cols => (s.classify r slot (.bad rows cols), some (slot, rows, cols), [])
    | v =>
      let (s1, bad, vals) := drainReads (s.classify r slot v) r rest
      (s1, bad, v.vals :: vals)

/-- The clear of a drained slot (R226); the stuck bits of its storage stay. -/
def State.clearTile (s : State) (r : Round) (slot : Nat) : State :=
  let tile := (s.teamOf r).tile (slotKey (s.teamOf r) r slot)
  s.setTile r slot { Tile.zero with stuck := tile.stuck }

/-- DRN (R224 to R228). It reads its descriptor as by a plain LDS; its slot event happens when it issues; the round then waits until its
writes are visible, which a fence from MX to every path then makes its own. -/
def execDrn (f : XForm) (s : State) : Res :=
  let fs : List Field := [(f.b, false)]
  begin s f.g fs [] (fun s r m xs =>
    if r.status == .waiting .drain then
      (if r.drain.isEmpty then finish s (s.shows s.cur [3] otherPaths) fs (fun q => q) else stall s r .drain)
    else if m = 0 then finish s s fs (fun q => q)
    else
      let a := laneOf (arg xs 0) 0
      withTileArea s r m a 64
        (withSpad s (spadRange a 64) (fun s1 r1 desc =>
          withDrainChecks s1 r1 m f.h.toNat (readDrain desc) (fun d slots =>
            match drainReads s1 r1 slots with
            | (s2, some (slot, rows, cols), _) => accLasting s2 r1 m slot rows cols
            | (s2, none, tiles) =>
              let s3 := (if f.imm.getLsbD 0 then s2 else slots.foldl (fun s x => s.clearTile r1 x) s2).readyResidual r1 d
              onRound s3 (fun q => stall s3 { q with drain := drainWrites s3 r1 d tiles } .drain)))))

/-- One write of a drain at its point of coherence (R228), after what a fence has shown to the MX path (R229). -/
def State.drainWrite (s0 : State) (n : Nat) (w : Nat × List (Nat × Byte)) : State :=
  let s := s0.settleFor n 3 (w.1 == 1) (w.2.map (fun b => b.1))
  match s.rounds[n]? with
  | none => s
  | some r => s.pointWrite r (w.1 == 1) w.2

/-- DRAIN_COMPLETE (R228): the listed writes become visible, or all that remain; the DRN ends when none remains. -/
def execDrainComplete (round : Nat) (writes : Option (List Nat)) (s : State) : Res :=
  match s.rounds[round]? with
  | none => .next s
  | some r =>
    let now (i : Nat) : Bool := match writes with | none => true | some l => l.contains i
    let go := r.drain.zipIdx.filter (fun p => now p.2)
    let stay := r.drain.zipIdx.filter (fun p => !now p.2)
    let s1 := go.foldl (fun s p => s.drainWrite round p.1) s
    .next ((s1.rounds[round]?).elim s1 (fun q => s1.setRoundAt round { q with drain := stay.map (fun p => p.1) }))

end Sys2Proof.Machine
end

