-- ==== Sys2Proof/Machine/Graph.lean ====
section
/-! DEFINITION. Nodes, the manifest and the semaphores (R304 to R307, R313 to R319), opcodes 0x227, 0x228 and 0x240 to 0x246. -/
namespace Sys2Proof.Machine

/-- NODE_RECORD (R329): reason, and a handle or address. -/
def nodeRecord (s : State) (r : Round) (m : Mask) (reason : Nat) (x : Word) : Res :=
  takeTrap s r 0x70 (BitVec.ofNat 64 reason) x 0 m

/-- What a core holds free, or a team needs of it (R148, R208, R209): teams, rounds, scratchpad, slots, partial slots, tag sets. -/
structure Room where
  teams : Nat
  rounds : Nat
  spad : Nat
  acc : Nat
  z : Nat
  tags : Nat
  deriving DecidableEq, Repr

/-- An empty core (R148, R208, R209, R158). -/
def Room.empty : Room := { teams := 8, rounds := 48, spad := 1572864, acc := 512, z := 32, tags := 512 }
def Room.holds (f n : Room) : Bool :=
  n.teams ≤ f.teams && n.rounds ≤ f.rounds && n.spad ≤ f.spad && n.acc ≤ f.acc && n.z ≤ f.z && n.tags ≤ f.tags
def Room.sub (f n : Room) : Room :=
  { teams := f.teams - n.teams, rounds := f.rounds - n.rounds, spad := f.spad - n.spad, acc := f.acc - n.acc, z := f.z - n.z
    tags := f.tags - n.tags }
def Room.add (f n : Room) : Room :=
  { teams := f.teams + n.teams, rounds := f.rounds + n.rounds, spad := f.spad + n.spad, acc := f.acc + n.acc, z := f.z + n.z
    tags := f.tags + n.tags }

/-- What one team needs on each core of its place (R148, R150, R255): acc and partial slots count whole against each core of a
pair; the tag share lies on the first. -/
def teamNeeds (k : Kernel) (pair : Bool) (tags : Nat) : List Room :=
  let z := k.rounds * k.zslots
  if pair then
    [{ teams := 1, rounds := (k.rounds + 1) / 2, spad := k.spad / 2, acc := k.acc, z := z, tags := tags },
     { teams := 1, rounds := k.rounds / 2, spad := k.spad - k.spad / 2, acc := k.acc, z := z, tags := 0 }]
  else [{ teams := 1, rounds := k.rounds, spad := k.spad, acc := k.acc, z := z, tags := tags }]

/-- Z of R319. -/
def contextBytes (k : Kernel) (pair : Bool) : Nat :=
  65536 + k.spad + k.acc * 16896 * (if pair then 2 else 1) + k.rounds * (12288 * k.width + 40960)

/-- A die's context pool in bytes (R319, R326). -/
def Die.pool (d : Die) : Nat := bits d.ctxsize 47 12 * 4096

/-- The position of the live node that a handle names, in a partition (R306, R316). -/
def State.liveNode (s : State) (part h : Nat) : Option Nat :=
  (s.nodes.zipIdx.find? (fun x => x.1.handle == h && x.1.part == part && x.1.state != .removed)).map (fun x => x.2)

/-- Changes node n. -/
def State.modNode (s : State) (n : Nat) (f : Node → Node) : State := { s with nodes := s.nodes.modify n f }

/-- A node record from its 256 bytes (R305). -/
def readNodeRecord (b : List Byte) : NodeRec :=
  let flags := bytesAt b 1 1
  { kind := bytesAt b 0 1, priority := flags % 8, standing := flags.testBit 3, pair := flags.testBit 4, gang := bytesAt b 2 1
    die := bytesAt b 3 1, teams := bytesAt b 4 4, kernel := BitVec.ofNat 64 (bytesAt b 8 8), text := BitVec.ofNat 64 (bytesAt b 16 8)
    data := BitVec.ofNat 64 (bytesAt b 24 8), tagsets := bytesAt b 32 2, reserve := bytesAt b 34 2, preds := bytesAt b 36 4
    manifest := BitVec.ofNat 64 (bytesAt b 40 8), params := (List.range 8).map (fun k => BitVec.ofNat 64 (bytesAt b (48 + 8 * k) 8))
    succ := (List.range (min 32 (bytesAt b 112 2))).map (fun k => bytesAt b (128 + 4 * k) 4) }

/-- Reasons 1 to 4 of R305. DEDUCED: log entry 43. -/
def shapeReason (p : Partition) (b : List Byte) : Option Nat :=
  let r := readNodeRecord b
  if 3 < r.kind then some 1
  else if 32 ≤ bytesAt b 1 1 || (r.standing && r.kind != 0) then some 2
  else if (if r.kind = 0 then
      !(1 ≤ r.gang && r.gang ≤ (if r.pair then 4 else 8) && 1 ≤ r.teams && r.teams ≤ 2 ^ 24 && r.teams % r.gang == 0)
    else !(r.gang == 1 && r.teams == 1)) then some 3
  else if 6 ≤ r.die || !p.dies.getLsbD r.die then some 4
  else none

/-- A point entry from its 64 bytes; a range of count 0 is unused (R76). -/
def readPoint (b : List Byte) : Point :=
  let range (k : Nat) : Nat := bytesAt b (8 + 4 * k) 4
  { addr := bytesAt b 0 7, p := BitVec.ofNat 7 (bytesAt b 7 1)
    vranges := ((List.range 6).map (fun k => (bitsN (range k) 10 0, bitsN (range k) 21 11))).filter (fun x => x.2 != 0)
    s := BitVec.ofNat 128 (bytesAt b 32 16), acc := BitVec.ofNat 32 (bytesAt b 48 4), lay := BitVec.ofNat 32 (bytesAt b 52 4)
    walk := BitVec.ofNat 8 (bytesAt b 56 1), z := BitVec.ofNat 2 (bytesAt b 57 1) }

/-- Whether an entry's zero bits are zero (R76). -/
def pointOk (b : List Byte) : Bool :=
  bytesAt b 7 1 < 128 && (List.range 6).all (fun k => bytesAt b (8 + 4 * k) 4 < 2 ^ 22) && bytesAt b 57 1 < 4 && bytesAt b 58 6 == 0

/-- The entries of a point table (R76): 64 bytes each, with their zero bits, in ascending order of header address; a table that is not
so has none. DESIGN CHOICE: log entry 19. -/
def pointTable (b : List Byte) : List Point :=
  let entries := (List.range (b.length / 64)).map (fun k => (b.drop (64 * k)).take 64)
  let points := entries.map readPoint
  if b.length % 64 == 0 && entries.all pointOk && (points.zip (points.drop 1)).all (fun x => decide (x.1.addr < x.2.addr)) then points
  else []

/-- A kernel record from its 64 bytes (R75), with what the loader placed for it (R76, R77). DESIGN CHOICE: log entry 19. -/
def readKernel (p : Partition) (addr : Word) (b : List Byte) : Kernel :=
  let img := p.images.find? (fun i => i.kernel == addr)
  let flags := bytesAt b 51 1
  { addr := addr, entry := bytesAt b 32 8, width := bytesAt b 40 2, rounds := bytesAt b 42 2, spad := bytesAt b 44 4
    acc := bytesAt b 48 2, zslots := bytesAt b 50 1, pair := flags.testBit 0, gang := flags / 2 % 16, teams := bytesAt b 56 4
    dreg := bytesAt b 60 1, pfirst := bytesAt b 52 2, pcount := bytesAt b 54 2
    points := (((img.map (fun i => pointTable i.table)).getD []).drop (bytesAt b 52 2)).take (bytesAt b 54 2), sdata := (img.map (fun i => i.sdata)).getD [] }

/-- Whether a kernel record holds what R75 allows. -/
def kernelOk (b : List Byte) : Bool :=
  let w := bytesAt b 40 2
  (w == 16 || w == 32 || w == 64) && 1 ≤ bytesAt b 42 2 && bytesAt b 42 2 ≤ 32 && bytesAt b 50 1 ≤ 2 && bytesAt b 51 1 < 32
    && (bytesAt b 60 1 < 128 || bytesAt b 60 1 == 255) && bytesAt b 61 3 == 0

/-- No core: where the rounds of a team stand while it takes its places, and what a node's own accesses use. -/
def noCore : Nat := 4096

/-- A kernel that stands for none. -/
def Kernel.none : Kernel := Team.blank.kernel

/-- The kinds that a copy node may name: memory and host, in a pair that a CK value names (R162, R305). DEDUCED: log entry 43. -/
def copyNodeKinds (x : Word) : Bool := x == 0 || x == 2 || x == 8

/-- Reasons 5 to 10 of R305, in their order; `kernel` is the kernel record's bytes and `owner` the manifest's owner field. -/
def recordReason (s : State) (p : Partition) (b kernel : List Byte) (owner : Nat) : Option Nat :=
  let r := readNodeRecord b
  let k := readKernel p r.kernel kernel
  let pow2 := (List.range 10).any (fun i => r.tagsets == 2 ^ i)
  if r.kind = 0 && (r.kernel.toNat % 64 != 0 || r.text.toNat % 8 != 0 || !kernelOk kernel) then some 5
  else if r.kind = 0 && r.tagsets != 0 && !pow2 then some 6
  else if 2 ^ 20 < r.preds || 32 < bytesAt b 112 2
      || r.succ.any (fun h => (s.liveNode p.num h).isNone)
      || (List.range 32).any (fun i => decide (bytesAt b 112 2 ≤ i) && bytesAt b (128 + 4 * i) 4 != 0) then some 7
  else if r.manifest != 0 && (r.manifest.toNat % 4096 != 0 || !r.standing || owner != 0) then some 8
  else if bytesAt b 114 14 != 0 || (r.kind != 0 && (r.kernel != 0 || r.text != 0 || r.data != 0 || r.tagsets != 0))
      || (r.kind == 1 && !copyNodeKinds (r.params.getD 3 0)) then some 9
  else if r.kind = 0 && (!(teamNeeds k r.pair r.tagsets).all (fun n => Room.empty.holds n) || k.spad % 4096 != 0
      || 2048 < k.rounds * k.width || (s.die r.die).pool < r.gang * contextBytes k r.pair) then some 10
  else none

/-- Whether a node is live and names a handle as a successor (R307). -/
def State.predecessors (s : State) (n : Node) : List Node :=
  s.nodes.filter (fun p => p.state != .removed && p.part == n.part && p.record.succ.contains n.handle)

/-- Whether a node has admitted teams of its current dispatch. -/
def Node.begun (n : Node) : Bool := 0 < n.nextTix

/-- Undispatched teams of a node's current dispatch. -/
def Node.undispatched (x : Node) : Nat := x.record.teams - x.nextTix

/-- A compute node in dispatch runs once no undispatched or resumable team remains (R307). -/
def Node.settle (x : Node) : Node :=
  if x.state == .dispatching && x.begun && x.undispatched == 0 && x.resumable.isEmpty then { x with state := .running } else x

/-- A team joins the resumable units of a node (R307, R312). -/
def Node.addResumable (x : Node) (team : Nat) : Node :=
  { x with resumable := x.resumable ++ [team], state := if x.state == .running then .dispatching else x.state }

/-- Teams leave the resumable units of every node. -/
def State.dropResumable (s : State) (p : Nat → Bool) : State :=
  { s with nodes := s.nodes.map (fun n => ({ n with resumable := n.resumable.filter (fun k => !p k) } : Node).settle) }

/-- Whether a standing node that has been told to go is still there and not dispatching (R313). -/
def Node.leaving (x : Node) : Bool :=
  x.record.standing && !x.standing && !x.begun && (x.state == .waiting || x.state == .earlyReady || x.state == .ready)

/-- The state of a node that waits, from its remaining count and its pending predecessors (R307); one that is ready after teams
were admitted early dispatches at once. -/
def State.refreshed (s : State) (n : Node) : Node :=
  let pend := s.predecessors n
  let become (x : NodeState) : Node := if n.state = x then n else { n with state := x, since := s.now }
  match n.state with
  | .waiting =>
    if n.remaining = 0 then become .ready
    else if n.record.kind = 0 && n.remaining ≤ pend.length && pend.all (fun p => p.grdy) then become .earlyReady
    else n
  | .earlyReady =>
    if n.remaining = 0 then
      (if n.begun then (become .dispatching).settle else become .ready)
    else n
  | _ => n

/-- Runs R307 over every node, a few times, since one change can lead to another only through a completion. -/
def State.refresh (s : State) : State := { s with nodes := s.nodes.map s.refreshed }

/-- Removal of a node (R307, R314). `owner` is the physical address of its manifest's owner field where it has one. -/
def State.removeNode (s : State) (n : Nat) (owner : List Nat) : State :=
  (State.writeBytes (s.modNode n (fun x => { x with state := .removed })) (owner.map (fun a => (a, 0)))).refresh

/-- The agent of a node's own accesses (R309, R313, R393): no core's translations, no round. -/
def nodeAgent (x : Node) : Agent := { core := noCore, part := x.part, user := true, round := none }

/-- An event about a node (R322). -/
def nodeEvent (s : State) (n : Node) (cause : Nat) (info0 info1 info2 : Word) : List Word :=
  queueEntry 2 cause 0 0 0 (BitVec.ofNat 32 n.handle) 0 0 info0 info1 0 info2 (s.die (n.handle / 2 ^ 12 % 8)).clock

/-- Bytes of a manifest at their home slices as the sorting office reaches them (R313): a refusal or a lasting sector is never serviced. -/
def State.manifestAccess (s : State) (x : Node) (off len : Nat) : Gathered Nat :=
  gather ((List.range len).map (fun i =>
    let va := x.record.manifest + BitVec.ofNat 64 (off + i)
    (s.engineXlat (nodeAgent x) true va).bind (fun pa => if s.isLasting pa then .fault va 0x63 else .ok pa)))

/-- A node's manifest counts as unreadable until a TLBI, and one event names the node (R313). -/
def State.manifestDead (s : State) (n : Nat) : State :=
  match s.nodes[n]? with
  | none => s
  | some x =>
    let p := s.part x.part
    if p.deadManifests.contains n then s
    else (s.setPart { p with deadManifests := n :: p.deadManifests }).enqueue x.part [nodeEvent s x 0x70 8 x.record.manifest 0]

/-- Whether an engine's access waits for service (R393). -/
def State.serviceWaits (s : State) (w : ServiceWork) : Bool := s.services.any (fun v => v.work == w)

/-- The sorting office reaches bytes of a node's manifest, if it has one, and goes on with their places, none where the manifest cannot be
read; while a page is missing it asks for service and waits (R313, R393). -/
def State.withManifest (s : State) (n : Nat) (x : Node) (off len : Nat) (k : State → List Nat → State) : State :=
  if x.record.manifest = 0 || (s.part x.part).deadManifests.contains n then k s []
  else
    match s.manifestAccess x off len with
    | .ok pas => k s pas
    | .fault _ _ => k (s.manifestDead n) []
    | .held => s
    | .missing ps va =>
      if s.serviceWaits (.manifest n) then s
      else (s.requestService (nodeAgent x) (.manifest n) ps va x.record.die (some n) 0).1

/-- A standing node that has been told to go is removed (R313, R314). -/
def State.tryRemove (s : State) (n : Nat) (x : Node) : State := s.withManifest n x 8 4 (fun s pas => s.removeNode n pas)

/-- The lowest free slot of a die's sorting office (R307). -/
def State.freeNodeSlot (s : State) (die : Nat) : Option Nat :=
  let used := (s.nodes.filter (fun n => n.state != .removed && n.handle / 2 ^ 12 % 8 == die)).map (fun n => n.handle % 2 ^ 12)
  (List.range 4096).find? (fun k => !used.contains k)

/-- Enters a node (R306, R307, R314, R316): the state, and the value that D receives. -/
def State.enterNode (s : State) (p : Partition) (rec_ : NodeRec) (k : Kernel) (owner : List Nat) : State × Word :=
  let d : Die := s.die rec_.die
  match s.freeNodeSlot rec_.die with
  | none => (s, BitVec.allOnes 64)
  | some slot =>
    let seq := (SMap.get d.slotSeq 0 slot + 1) % 2 ^ 16
    let handle := slot + 2 ^ 12 * rec_.die + 2 ^ 16 * seq
    let node : Node :=
      { handle := handle, part := p.num, record := rec_, kernel := k, state := .waiting, remaining := rec_.preds
        post := d.postCtr + 1, since := s.now, started := 0, firstSince := none, completions := 0, grdy := false, standing := rec_.standing
        nextTix := 0, resumable := [], snapshot := none, work := none, fault := none }
    let s1 := s.setDie rec_.die ({ d with postCtr := d.postCtr + 1, slotSeq := SMap.set d.slotSeq slot seq } : Die)
    let s2 := ({ s1 with nodes := s1.nodes ++ [node] }.writeBytes (owner.zip (toBytes 4 handle))).refresh
    (s2, BitVec.ofNat 64 handle)

/-- The lowest passing lane's value of a source. -/
def lowValue (m : Mask) (xs : List Lanes) (i : Nat) : Word := laneOf (arg xs i) ((lowestLane m).getD 0)

/-- GPOST (R305, R314, R316): the record, the kernel record that it names and the manifest's owner are read as loads of the round. -/
def execGpost (f : RForm) (s : State) : Res :=
  let fs := [rA f]
  begin s f.g fs (regNames f.d 1) (fun s r m xs =>
    if m = 0 then finish s s fs (fun q => q)
    else
      let l := (lowestLane m).getD 0
      let a := lowValue m xs 0
      let p := s.partOf r
      withLoad s r m a 256 (fun s1 r1 b =>
        let rec_ := readNodeRecord b
        match shapeReason p b with
        | some k => nodeRecord s1 r1 m k a
        | none =>
          let enter (s : State) (r : Round) (kernel : List Byte) (owner : List Nat) : Res :=
            match recordReason s p b kernel (ofBytes (owner.map (Memory.read s.mem))) with
            | some k => nodeRecord s r m k a
            | none =>
              let (s1, d) := s.enterNode p rec_ (if rec_.kind = 0 then readKernel p rec_.kernel kernel else Kernel.none) owner
              finish s s1 fs (writeOperand m f.d (tab (fun _ => d)))
          let manifest (s : State) (r : Round) (kernel : List Byte) : Res :=
            if rec_.manifest = 0 || rec_.manifest.toNat % 4096 != 0 || !rec_.standing then enter s r kernel []
            else
              withPages s r m true 4 [(l, rec_.manifest + 8)] (fun pas =>
                withClean s r pas
                  (let s1 := s.loadNow r (pasOf pas l)
                   onRound s1 (fun r1 => enter s1 r1 kernel (pasOf pas l))))
          if rec_.kind = 0 && rec_.kernel.toNat % 64 == 0 then
            withLoad s1 r1 m rec_.kernel 64 (fun s2 r2 kernel => manifest s2 r2 kernel)
          else manifest s1 r1 []))

/-- GARM (R307, R313, R316). -/
def execGarm (f : RForm) (s : State) : Res :=
  let fs := [rA f, rB f]
  begin s f.g fs [] (fun s r m xs =>
    if m = 0 then finish s s fs (fun q => q)
    else
      let h := lowValue m xs 0
      let b := lowValue m xs 1
      match s.liveNode (s.teamOf r).part h.toNat with
      | none => nodeRecord s r m 11 h
      | some n =>
        if b = 0 then finish s (s.modNode n (fun x => { x with remaining := x.remaining - 1 })).refresh fs (fun q => q)
        else if b = 1 then
          let s1 := s.modNode n (fun x => { x with standing := false })
          match s1.nodes[n]? with
          | none => finish s s1 fs (fun q => q)
          | some x =>
            finish s (if x.leaving then s1.tryRemove n x else s1) fs (fun q => q)
        else nodeRecord s r m 12 h)

/-- GWAIT (R316): a handle that is not live, or no longer, ends the wait with all ones. -/
def execGwait (f : RForm) (s : State) : Res :=
  let fs := [rA f, rB f]
  begin s f.g fs (regNames f.d 1) (fun s r m xs =>
    if m = 0 then finish s s fs (fun q => q)
    else
      let h := lowValue m xs 0
      let b := lowValue m xs 1
      match (s.liveNode (s.teamOf r).part h.toNat).bind (fun n => (s.nodes[n]?).map (fun x => (n, x))) with
      | none => finish s s fs (writeOperand m f.d (tab (fun _ => BitVec.allOnes 64)))
      | some (n, x) =>
        if b.toNat < x.completions then finish s s fs (writeOperand m f.d (tab (fun _ => BitVec.ofNat 64 x.completions)))
        else if (s.teamOf r).node == some n then nodeRecord s r m 13 h
        else stall s r (.node h.toNat))

/-- GRDY (R307, R316). -/
def execGrdy (f : RForm) (s : State) : Res :=
  begin s f.g [] [] (fun s r m _ =>
    match (if m = 0 then none else (s.teamOf r).node) with
    | none => finish s s [] (fun q => q)
    | some n => finish s (s.modNode n (fun x => { x with grdy := true })).refresh [] (fun q => q))

/-- Bytes of a manifest (R314) and of its slots. -/
def manifestSize : Nat := 67584
def manifestSlots : Nat := 4096

/-- The state of a manifest slot, from a reader of manifest bytes. -/
def slotState (read : Nat → Byte) (slot : Nat) : Nat := (read (64 + slot / 4)).toNat / 2 ^ (2 * (slot % 4)) % 4

/-- A state byte with one slot's state replaced. -/
def withSlotState (old : Byte) (slot x : Nat) : Byte :=
  BitVec.ofNat 8 (old.toNat - old.toNat / 2 ^ (2 * (slot % 4)) % 4 * 2 ^ (2 * (slot % 4)) + x * 2 ^ (2 * (slot % 4)))

/-- Runs a manifest instruction at the home slice of M (R317): translated with W, after a release at package scope. -/
def onManifest (s0 : State) (r : Round) (m : Mask) (a : Word) (k : State → List Nat → Res) : Res :=
  let l := (lowestLane m).getD 0
  withPages s0 r m true manifestSize [(l, a)] (fun pas =>
    withClean s0 r pas
      (withRelease s0 5 false m (fun s =>
        k (s.loadNow r (pasOf pas l)) (pasOf pas l))))

/-- MADMIT (R317). -/
def execMadmit (f : RForm) (s : State) : Res :=
  let fs := [rA f, rB f, rC f]
  begin s f.g fs (regNames f.d 1) (fun s0 r m xs =>
    if m = 0 then withRelease s0 5 false m (fun s => finish s s fs (fun q => q))
    else
      onManifest s0 r m (lowValue m xs 0) (fun s pas =>
        let at_ (i : Nat) : Nat := pas.getD i 0
        let read (i : Nat) : Byte := Memory.read s.mem (at_ i)
        match (List.range manifestSlots).find? (fun k => slotState read k == 0) with
        | none => finish s0 s fs (writeOperand m f.d (tab (fun _ => BitVec.allOnes 64)))
        | some k =>
          let data := toBytes 8 (lowValue m xs 1).toNat ++ toBytes 8 (lowValue m xs 2).toNat
          let count := toBytes 2 ((read 0).toNat + 256 * (read 1).toNat + 1)
          let cells := data.zipIdx.map (fun p => (at_ (2048 + 16 * k + p.2), p.1))
            ++ [(at_ (64 + k / 4), withSlotState (read (64 + k / 4)) k 1)] ++ count.zipIdx.map (fun p => (at_ p.2, p.1))
          finish s0 (s.writeBytes cells) fs (writeOperand m f.d (tab (fun _ => BitVec.ofNat 64 k)))))

/-- Whether the current dispatch of a manifest's owner holds a slot in its snapshot (R317). -/
def State.ownerHolds (s : State) (part owner slot : Nat) : Bool :=
  match (s.liveNode part owner).bind (fun n => s.nodes[n]?) with
  | none => false
  | some n => (n.snapshot.map (fun x => x.1.contains slot)).getD false

/-- MRETIRE (R317). -/
def execMretire (f : RForm) (s : State) : Res :=
  let fs := [rA f, rB f]
  begin s f.g fs [] (fun s0 r m xs =>
    if m = 0 then withRelease s0 5 false m (fun s => finish s s fs (fun q => q))
    else
      let k := (lowValue m xs 1).toNat
      if manifestSlots ≤ k then nodeRecord s0 r m 14 (lowValue m xs 0)
      else
        onManifest s0 r m (lowValue m xs 0) (fun s pas =>
          let at_ (i : Nat) : Nat := pas.getD i 0
          let read (i : Nat) : Byte := Memory.read s.mem (at_ i)
          if slotState read k != 1 then finish s0 s fs (fun q => q)
          else
            let owner := ofBytes ((List.range 4).map (fun i => read (8 + i)))
            let new := if s.ownerHolds (s.teamOf r).part owner k then 2 else 0
            let count := toBytes 2 ((read 0).toNat + 256 * (read 1).toNat + 2 ^ 16 - 1)
            finish s0 (s.writeBytes ((at_ (64 + k / 4), withSlotState (read (64 + k / 4)) k new)
              :: count.zipIdx.map (fun p => (at_ p.2, p.1)))) fs (fun q => q)))

/-- MREAD's value from a snapshot (R317). -/
def snapshotWord (x : List Nat × Nat) (w : Nat) : Word :=
  if w = 64 then BitVec.ofNat 64 x.1.length
  else if w = 65 then BitVec.ofNat 64 x.2
  else maskOf (fun i => x.1.contains (64 * w + i))

/-- MREAD (R317). -/
def execMread (f : RForm) (s : State) : Res :=
  let fs := [rA f]
  begin s f.g fs (regNames f.d 1) (fun s0 r m xs =>
    if m = 0 then withRelease s0 5 false m (fun s => finish s s fs (fun q => q))
    else
      match (s0.nodeOf r).bind (fun n => n.snapshot) with
      | none => nodeRecord s0 r m 15 (lowValue m xs 0)
      | some x =>
        let w := (lowValue m xs 0).toNat
        if 65 < w then nodeRecord s0 r m 14 (lowValue m xs 0)
        else
          withRelease s0 5 false m (fun s =>
            finish s0 s fs (writeOperand m f.d (tab (fun _ => snapshotWord x w)))))

/-- Whether a semaphore operand and its amount are those of R318. -/
def semOk (p : Partition) (a n : Word) : Bool :=
  a.toNat < 2 ^ 15 && bits a 14 12 < 6 && p.dies.getLsbD (bits a 14 12) && n.toNat < 2 ^ 32

/-- SEM_RANGE (R329). -/
def semRange (s : State) (r : Round) (m : Mask) (a n top : Word) : Res := takeTrap s r 0x71 a n top m

/-- A semaphore counter (R318). -/
def Die.sem (d : Die) (c : Nat) : Nat := SMap.get d.sems 0 c

/-- SEMP (R318). -/
def execSemp (f : RForm) (s : State) : Res :=
  let fs := [rA f, rB f]
  begin s f.g fs [] (fun s0 r m xs =>
    if m = 0 then withRelease s0 5 false m (fun s => finish s s fs (fun q => q))
    else
      let a := lowValue m xs 0
      let n := lowValue m xs 1
      let die := bits a 14 12
      let c := bits a 11 0
      if !semOk (s0.partOf r) a n then semRange s0 r m a n 0
      else if 2 ^ 32 ≤ (s0.die die).sem c + n.toNat then semRange s0 r m a n 1
      else
        withRelease s0 5 false m (fun s =>
          let d := s.die die
          finish s0 (s.setDie die { d with sems := SMap.set d.sems c (d.sem c + n.toNat) }) fs (fun q => q)))

/-- The first waiter of a counter (R318). -/
def Die.firstWaiter (d : Die) (c : Nat) : Option Nat := (d.semq.find? (fun w => w.counter == c)).map (fun w => w.round)

/-- SEMW (R318): waiters are served in arrival order; a round that waits stays in the queue. -/
def execSemw (f : RForm) (s : State) : Res :=
  let fs := [rA f, rB f]
  begin s f.g fs [] (fun s r m xs =>
    if m = 0 then finish s s fs (fun q => q)
    else
      let a := lowValue m xs 0
      let n := lowValue m xs 1
      let die := bits a 14 12
      let c := bits a 11 0
      if !semOk (s.partOf r) a n then semRange s r m a n 0
      else if n = 0 then finish s s fs (fun q => q)
      else
        let d := s.die die
        let mine (w : SemWait) : Bool := w.counter == c && w.round == s.cur
        let d1 : Die := if d.semq.any mine then d else { d with semq := d.semq ++ [{ counter := c, round := s.cur }] }
        if d1.firstWaiter c == some s.cur && n.toNat ≤ d1.sem c then
          finish s (s.setDie die { d1 with
            sems := SMap.set d1.sems c (d1.sem c - n.toNat)
            semq := d1.semq.filter (fun w => !mine w) }) fs (fun q => q)
        else stall (s.setDie die d1) r .semaphore)

end Sys2Proof.Machine
end

