-- ==== Sys2Proof/Machine/Courier.lean ====
section
/-! DEFINITION. The Courier re-sharding engine (R343 to R359), opcodes 0x289 to 0x28C, and the events of its jobs. -/
namespace Sys2Proof.Machine

/-- A job record (R346); `zeros` says that its zero bytes are zero. -/
structure JobRec where
  jobid : Nat
  kind : Nat
  job : Nat
  srclay : Word
  dstlay : Word
  srcbase : Word
  dstbase : Word
  cursor : Word
  list : Word
  nblk : Nat
  blkbytes : Nat
  zeros : Bool
  deriving DecidableEq, Repr

/-- A job record from its 128 bytes (R346). -/
def readJob (b : List Byte) : JobRec :=
  let w (o : Nat) : Word := BitVec.ofNat 64 (bytesAt b o 8)
  { jobid := bytesAt b 0 4, kind := bytesAt b 4 1, job := bytesAt b 5 1, srclay := w 8, dstlay := w 16, srcbase := w 24
    dstbase := w 32, cursor := w 40, list := w 48, nblk := bytesAt b 56 4, blkbytes := bytesAt b 60 4
    zeros := bytesAt b 6 2 == 0 && bytesAt b 64 64 == 0 }

/-- Reason 9 (R351): alignment and canonical addresses. -/
def JobRec.aligned (j : JobRec) : Bool :=
  let ok (a : Word) (n : Nat) : Bool := a.toNat % n == 0 && canonical a
  ok j.srcbase 256 && ok j.dstbase 256 && ok j.cursor 64
    && (j.kind != 0 || (ok j.srclay 64 && ok j.dstlay 64)) && (j.kind != 1 || ok j.list 16)

/-- Reason 1 (R351): the fields of a job record. -/
def JobRec.formOk (j : JobRec) : Bool :=
  j.jobid != 0 && j.zeros
    && (match j.kind with
      | 0 => j.list == 0 && j.nblk == 0 && j.blkbytes == 0
      | 1 => j.srclay == 0 && j.dstlay == 0 && decide (1 ≤ j.nblk) && decide (j.nblk ≤ 4096) && j.blkbytes % 256 == 0
          && decide (256 ≤ j.blkbytes) && decide (j.blkbytes ≤ 2 ^ 24)
      | _ => false)

/-- The shard stage (R180): axis sizes, map bytes and the rank base. -/
def axisSize (w : List Word) (a : Nat) : Nat := recBytes w (457 + 2 * a) (456 + 2 * a) % 2 ^ 12
def mapByte (w : List Word) (k : Nat) : Nat := recBytes w (464 + k) (464 + k)
def rankBase (w : List Word) : Nat := recBytes w 475 472

/-- The axes of a mesh: those before the first of size zero (R343). -/
def meshAxes (w : List Word) : List Nat := ((List.range 4).map (axisSize w)).takeWhile (fun a => a != 0)

/-- Ranks of a mesh (R343). -/
def product (l : List Nat) : Nat := l.foldl (· * ·) 1
def meshSize (w : List Word) : Nat := product (meshAxes w)

/-- The axis over which a dimension is split, if any (R343). DEDUCED: log entry 48. -/
def splitAxis (w : List Word) (k : Nat) : Option Nat :=
  if k < recRank w && 128 ≤ mapByte w k then some (mapByte w k % 4) else none

/-- The conditions of R343 on a shard stage. -/
def meshOk (w : List Word) : Bool :=
  let na := (meshAxes w).length
  let axes := (List.range 6).filterMap (splitAxis w)
  decide (1 ≤ na) && (List.range 4).all (fun a => decide (a < na) || axisSize w a == 0)
    && decide (rankBase w + meshSize w ≤ 6144)
    && (List.range 6).all (fun k => (splitAxis w k).isSome || mapByte w k == 0)
    && axes.all (fun a => decide (a < na) && axes.count a == 1)

/-- Local extents (R344). A dimension that names an absent axis, which reason 5 refuses, counts as not split. -/
def localExtent (w : List Word) (k : Nat) : Nat :=
  match splitAxis w k with
  | none => recExtent w k
  | some a => if axisSize w a = 0 then recExtent w k else (recExtent w k + axisSize w a - 1) / axisSize w a

/-- A record with its local extents in place of the global ones and without its progress field, which the Courier ignores
(R344, R346). -/
def localRecord (w : List Word) : List Word :=
  let pair (k : Nat) : Word := BitVec.ofNat 64 (localExtent w k + 2 ^ 32 * localExtent w (k + 1))
  (((w.set 2 (pair 0)).set 3 (pair 2)).set 4 (pair 4)).set 61 0

/-- The coordinate of a rank on an axis (R343): the last axis varies fastest. -/
def meshCoord (w : List Word) (rank a : Nat) : Nat :=
  (rank - rankBase w) / product ((meshAxes w).drop (a + 1)) % (meshAxes w).getD a 1

/-- The rows of a rank in each dimension (R345). -/
def rankBlock (w : List Word) (rank : Nat) : List (Nat × Nat) :=
  (List.range (recRank w)).map (fun k =>
    match splitAxis w k with
    | none => (0, recExtent w k)
    | some a => splitPart (recExtent w k) (axisSize w a) (meshCoord w rank a))

/-- Whether a source rank contributes: its coordinate is 0 on every axis over which nothing is split (R345). -/
def contributes (w : List Word) (rank : Nat) : Bool :=
  let axes := (List.range 6).filterMap (splitAxis w)
  (List.range (meshAxes w).length).all (fun a => axes.contains a || meshCoord w rank a == 0)

/-- An index from its dimension fields (R173). -/
def dimIndex (extents fields : List Nat) : Nat :=
  (extents.zip fields).foldl (fun acc p => acc * 2 ^ dimBits p.1 + p.2) 0

/-- Maximal runs of at most `cap` elements in which both locations rise by one (R348). -/
def cutRuns (cap : Nat) (l : List (Nat × Nat)) : List (Nat × Nat × Nat) :=
  (l.foldl (fun (acc : List (Nat × Nat × Nat)) p =>
    match acc with
    | [] => [(p.1, p.2, 1)]
    | (d, s, n) :: rest => if p.1 = d + n && p.2 = s + n && n < cap then (d, s, n + 1) :: rest else (p.1, p.2, 1) :: acc) []).reverse

/-- The points of a box, given the least and the first excluded coordinate of each dimension. -/
def boxPoints : List (Nat × Nat) → List (List Nat)
  | [] => [[]]
  | (lo, hi) :: rest => (List.range (hi - lo)).flatMap (fun i => (boxPoints rest).map (fun t => (lo + i) :: t))

/-- The slot of an element in a rank's local placement (R173, R344, R348). -/
def localSlot (w : List Word) (block : List (Nat × Nat)) (g : List Nat) : Nat :=
  locationOf (localRecord w) (dimIndex (recExtents (localRecord w)) ((g.zip block).map (fun p => p.1 - p.2.1)))

/-- Elements that a destination rank takes from a source rank, as pairs of destination and source slots in ascending order of the first,
elements that a singular matrix puts into one destination slot come in an order that is open (R348). DESIGN CHOICE: log entry 68. -/
def sharedSlots (ws wd : List Word) (rho sigma : Nat) : List (Nat × Nat) :=
  let bd := rankBlock wd rho
  let bs := rankBlock ws sigma
  let box := (bd.zip bs).map (fun p => (max p.1.1 p.2.1, min (p.1.1 + p.1.2) (p.2.1 + p.2.2)))
  ((boxPoints box).map (fun g => (localSlot wd bd g, localSlot ws bs g))).foldl (fun acc x =>
    insertBy (fun a b => decide (a.1 < b.1 ∨ (a.1 = b.1 ∧ Config.slotOrder a.2 < Config.slotOrder b.2))) x acc) []

/-- The plan of a tensor job (R348). -/
def tensorPlan (j : JobRec) (ws wd : List Word) (rho : Nat) : List Segment :=
  let es := recEs wd / 8
  (((List.range (meshSize ws)).map (fun i => rankBase ws + i)).filter (contributes ws)).flatMap (fun sigma =>
    (cutRuns (4096 / es) (sharedSlots ws wd rho sigma)).zipIdx.map (fun p =>
      { src := sigma, seg := p.2, srcRank := sigma, srcAddr := j.srcbase + BitVec.ofNat 64 (es * p.1.2.1)
        dstAddr := j.dstbase + BitVec.ofNat 64 (es * p.1.1), len := es * p.1.2.2 }))

/-- The block records of a list (R349): source rank, source block and destination block. -/
def readBlocks (n : Nat) (b : List Byte) : List (Nat × Nat × Nat) :=
  (List.range n).map (fun i => (bytesAt b (16 * i) 4, bytesAt b (16 * i + 4) 4, bytesAt b (16 * i + 8) 4))

/-- The plan of a key-value job (R349). -/
def blockPlan (j : JobRec) (blocks : List (Nat × Nat × Nat)) : List Segment :=
  blocks.zipIdx.flatMap (fun b =>
    (List.range ((j.blkbytes + 4095) / 4096)).map (fun k =>
      { src := b.2, seg := k, srcRank := b.1.1, srcAddr := j.srcbase + BitVec.ofNat 64 (b.1.2.1 * j.blkbytes + 4096 * k)
        dstAddr := j.dstbase + BitVec.ofNat 64 (b.1.2.2 * j.blkbytes + 4096 * k), len := min 4096 (j.blkbytes - 4096 * k) }))

/-- Reasons 2 to 7 of R351 for a job whose records have been read, in their order, or the plan. -/
def planOrReason (p : Partition) (pkg die : Nat) (j : JobRec) (ws wd : List Word) (blocks : List (Nat × Nat × Nat)) :
    Nat ⊕ List Segment :=
  let rho := p.rankOf j.job pkg die
  let ranksOf (w : List Word) : List Nat := (List.range (meshSize w)).map (fun i => rankBase w + i)
  let form (w : List Word) : Bool :=
    recKind w == 0 && (layoutReason { kinds := [], storage := false, alt := false } 64 (localRecord w)).isNone
  if j.kind = 0 then
    if !(form ws && form wd) then .inl 2
    else if !(recRank ws == recRank wd && recExtents ws == recExtents wd && recEtype ws == recEtype wd) then .inl 3
    else if !([8, 16, 32, 64].contains (recEs wd)) then .inl 4
    else if !(meshOk ws && meshOk wd) then .inl 5
    else
      match rho with
      | none => .inl 6
      | some x =>
        if x < rankBase wd || rankBase wd + meshSize wd ≤ x then .inl 6
        else if !((ranksOf ws ++ ranksOf wd).all (p.validRank j.job)) then .inl 7
        else .inr (tensorPlan j ws wd x)
  else
    match rho with
    | none => .inl 6
    | some _ => if blocks.all (fun b => p.validRank j.job b.1) then .inr (blockPlan j blocks) else .inl 7

/-- COURIER_PLAN (R359): reason and job-record address. -/
def courierPlan (s : State) (r : Round) (m : Mask) (reason : Nat) (a : Word) : Res :=
  takeTrap s r 0x83 (BitVec.ofNat 64 reason) a 0 m

/-- Reads a job's records as loads of the round and makes the checks of R351 but reason 8. -/
def withJob (s : State) (r : Round) (m : Mask) (a : Word) (k : State → Round → JobRec → List Segment → Res) : Res :=
  if a.toNat % 64 != 0 || !canonical a then courierPlan s r m 9 a
  else
    withLoad s r m a 128 (fun s r b =>
      let j := readJob b
      let go (s : State) (r : Round) (ws wd : List Word) (blocks : List (Nat × Nat × Nat)) : Res :=
        match planOrReason (s.partOf r) s.package.number (s.dieOf r) j ws wd blocks with
        | .inl n => courierPlan s r m n a
        | .inr plan => k s r j plan
      if !j.aligned then courierPlan s r m 9 a
      else if !j.formOk then courierPlan s r m 1 a
      else if j.kind = 0 then
        withLoad s r m j.srclay 512 (fun s r x => withLoad s r m j.dstlay 512 (fun s r y => go s r (recordOf x) (recordOf y) []))
      else withLoad s r m j.list (16 * j.nblk) (fun s r x => go s r [] [] (readBlocks j.nblk x)))

/-- What a cursor holds (R347). -/
structure Cursor where
  jobid : Nat
  state : Nat
  src : Nat
  seg : Nat
  bytes : Nat
  segs : Nat
  deriving DecidableEq, Repr

/-- A cursor from its bytes (R347). -/
def readCursor (b : List Byte) : Cursor :=
  { jobid := bytesAt b 0 4, state := bytesAt b 4 1, src := bytesAt b 8 4, seg := bytesAt b 12 4, bytes := bytesAt b 16 8
    segs := bytesAt b 24 8 }

/-- Reason 8 (R351). -/
def Cursor.ok (c : Cursor) (j : JobRec) (plan : List Segment) : Bool :=
  c.jobid == j.jobid && (c.state == 2 || ((c.state == 1 || c.state == 3) && plan.any (fun x => x.src == c.src && x.seg == c.seg)))

/-- The state byte of a job's cursor (R347). -/
def JobState.code : JobState → Nat
  | .complete => 2
  | .fault => 3
  | _ => 1

/-- The 64 bytes of a job's cursor (R347). -/
def CourierJob.cursorBytes (j : CourierJob) : List Byte :=
  let next := j.plan[j.committed]?
  toBytes 4 j.jobid ++ [BitVec.ofNat 8 j.state.code, BitVec.ofNat 8 (if j.state = .fault then j.cause else 0), 0, 0]
    ++ toBytes 4 ((next.map (fun x => x.src)).getD 0xFFFFFFFF) ++ toBytes 4 ((next.map (fun x => x.seg)).getD 0)
    ++ toBytes 8 j.bytes ++ toBytes 8 j.segs ++ toBytes 8 (if j.state = .fault then j.faddr.toNat else 0) ++ List.replicate 24 0

/-- The places of the 64 bytes of a job's cursor. -/
def State.cursorPlaces (s : State) (j : CourierJob) : Gathered Nat :=
  gather ((List.range 64).map (fun i => s.userDest j.part (j.cursor + BitVec.ofNat 64 i)))

/-- The state as a job's engine reads some bytes of memory: after what a fence has shown to its round's CR path, and after what the round
has read of them (R284, R357). -/
def State.readyJob (s : State) (j : CourierJob) (at_ : List Nat) : State :=
  match j.round with
  | none => s
  | some n => s.readyReads n 5 j.id false at_

/-- The state as a job's engine writes some bytes of memory: after what a fence has shown to its round's CR path (R357). -/
def State.settleDest (s : State) (j : CourierJob) (at_ : List Nat) : State :=
  match j.round with
  | none => s
  | some n => s.settleFor n 5 false at_

/-- A job's engine writes some bytes (R352). -/
def State.writeJob (s : State) (j : CourierJob) (cells : List (Nat × Byte)) : State :=
  (s.settleDest j (cells.map (fun c => c.1))).writeBytes cells

/-- Stores bytes lo to hi of a job's cursor, whose bytes stand at the places given (R351 to R353). -/
def State.storeCursor (s : State) (j : CourierJob) (pas : List Nat) (hi lo : Nat) : State :=
  s.writeJob j ((List.range (hi + 1 - lo)).map (fun i => (pas.getD (lo + i) 0, j.cursorBytes.getD (lo + i) 0)))

/-- Changes job i. -/
def State.setJob (s : State) (i : Nat) (j : CourierJob) : State := { s with jobs := s.jobs.set i j }

/-- Whether a die's Courier engine is ready (R338). -/
def State.courierReady (s : State) (die : Nat) : Bool := s.isReady 12 die

/-- A job has finished when it is complete or stopped on a fault (R354). -/
def JobState.finished : JobState → Bool
  | .complete => true
  | .fault => true
  | _ => false

/-- Whether a job still has work in its engine: it waits for it, runs, or stops (R89, R352, R358). -/
def JobState.busy : JobState → Bool
  | .waiting => true
  | .running => true
  | .stopping => true
  | _ => false

/-- Unfinished jobs of round n (R351). -/
def State.unfinishedJobs (s : State) (n : Nat) : Nat := (s.jobs.filter (fun j => j.round == some n && !j.state.finished)).length

/-- A job at the place where a cursor stands (R351). -/
def CourierJob.at_ (j : CourierJob) (c : Cursor) : CourierJob :=
  let n := if c.state = 2 then j.plan.length else (j.plan.findIdx? (fun x => x.src == c.src && x.seg == c.seg)).getD 0
  { j with committed := n, bytes := c.bytes, segs := c.segs, state := if j.plan.length ≤ n then .complete else .waiting }

/-- A job at its start (R351). -/
def newJob (j : JobRec) (plan : List Segment) : CourierJob :=
  { id := 0, round := none, node := none, num := 0, part := 0, die := 0, jobid := j.jobid, table := j.job, cursor := j.cursor, plan := plan
    done := [], read := [], wrote := [], committed := 0, bytes := 0, segs := 0, state := if plan.isEmpty then .complete else .waiting, cause := 0, faddr := 0
    failed := false, resume := false, reported := false }

/-- Writes the cursor of a job that begins, from its start or as .resume does from where a cursor stood (R351). -/
def State.beginCursor (s : State) (j : CourierJob) (pas : List Nat) (resume : Option Cursor) : State :=
  match resume with
  | none => s.storeCursor j pas 63 0
  | some c => if c.state = 2 then s else (s.storeCursor j pas 5 4).storeCursor j pas 39 32

/-- Goes on with the physical addresses of a cursor, which the engine reaches as a user (R352), to read or to write it. -/
def withCursor (s : State) (r : Round) (m : Mask) (write : Bool) (a : Word) (k : List Nat → Res) : Res :=
  match translateLanes (fun va => translate s r.core (s.partOf r) { write := write, fetch := false, user := true } va) 64
      [((lowestLane m).getD 0, a)] with
  | .refused mask addr flag => takeTrap s r 0x61 addr (BitVec.ofNat 64 flag) 0 mask
  | .missing pages mask addr level => .next (parkService s r pages m mask addr level)
  | .held => stall s r .engine
  | .ok l => k (l.flatMap (fun p => p.2))

/-- A job that starts: it takes the round's next number, and its cursor is written at the places given (R351). -/
def startJob (s0 s : State) (f : RForm) (fs : List Field) (m : Mask) (job : CourierJob) (pas : List Nat) (resume : Option Cursor) : Res :=
  let j : CourierJob := { job with id := s.nextId }
  finish s0 ({ s.beginCursor j pas resume with jobs := s.jobs ++ [j], nextId := s.nextId + 1 } : State) fs (fun q =>
    writeOperand m f.d (tab (fun _ => BitVec.ofNat 64 job.num)) { q with jlast := job.num })

/-- CRJOB (R351): .resume reads the cursor first, and a job that its cursor shows complete writes none. DEDUCED: log entry 47. -/
def execCrjob (f : RForm) (s : State) : Res :=
  let fs : List Field := [(f.a, false)]
  begin s f.g fs (regNames f.d 1) (fun s r m xs =>
    if m = 0 then finish s s fs (fun q => q)
    else if !s.courierReady (s.dieOf r) || 8 ≤ s.unfinishedJobs s.cur then stall s r .engine
    else
      let a := lowValue m xs 0
      withJob s r m a (fun s1 r1 j plan =>
        if (s1.partOf r1).frozen.contains j.job then stall s1 r1 .engine
        else
          let fresh : CourierJob := { newJob j plan with
            round := some s1.cur, num := (r1.jlast + 1) % 2 ^ 16, part := (s1.teamOf r1).part, die := s1.dieOf r1 }
          if f.cmp.getLsbD 0 then
            withCursor s1 r1 m false j.cursor (fun at_ =>
              withClean s1 r1 [((lowestLane m).getD 0, at_)]
                (let s2 := s1.loadNow r1 at_
                 let c := readCursor (at_.map (Memory.read s2.mem))
                 onRound s2 (fun r2 =>
                   if !c.ok j plan then courierPlan s2 r2 m 8 a
                   else if c.state = 2 then startJob s s2 f fs m (fresh.at_ c) [] (some c)
                   else withCursor s2 r2 m true j.cursor (fun pas => startJob s s2 f fs m (fresh.at_ c) pas (some c)))))
          else withCursor s1 r1 m true j.cursor (fun pas => startJob s s1 f fs m fresh pas none)))

/-- CRPLAN (R356). -/
def execCrplan (f : RForm) (s : State) : Res :=
  let fs : List Field := [(f.a, false)]
  begin s f.g fs (regNames f.d 1) (fun s r m xs =>
    if m = 0 then finish s s fs (fun q => q)
    else
      withJob s r m (lowValue m xs 0) (fun s1 _ _ plan =>
        finish s s1 fs (writeOperand m f.d (tab (fun _ => BitVec.ofNat 64 plan.length)))))

/-- How far back a job or collective number lies from the last one (R354). -/
def backFrom (last v : Nat) : Nat := (last + 2 ^ 16 - v % 2 ^ 16) % 2 ^ 16

/-- The latest job of a round under a number, with its position. -/
def State.jobOf (s : State) (n num : Nat) : Option (Nat × CourierJob) :=
  ((s.jobs.zipIdx.filter (fun x => x.1.round == some n && x.1.num == num)).getLast?).map (fun x => (x.2, x.1))

/-- CRWAIT (R354): it acts whether or not any lane passes. What the finished jobs wrote stands at its home slices already; it is a fence
from CR to every path. -/
def execCrwait (f : RForm) (s : State) : Res :=
  let fs : List Field := [(f.a, false)]
  begin s f.g fs [] (fun s r m xs =>
    let d := backFrom r.jlast (laneOf (arg xs 0) 0).toNat
    let s1 := s.shows s.cur [5] otherPaths
    let named := s.jobs.zipIdx.filter (fun x => x.1.round == some s.cur && decide (d ≤ backFrom r.jlast x.1.num))
    if d < 8 && named.any (fun x => !x.1.state.finished) then stall s r .courier
    else
      let bad := named.filter (fun x => x.1.state == .fault && !x.1.reported)
      match bad.foldl (fun (acc : Option (CourierJob × Nat)) x =>
          match acc with
          | none => some x
          | some y => if backFrom r.jlast y.1.num < backFrom r.jlast x.1.num then some x else some y) none with
      | none => finish s s1 fs (fun q => q)
      | some (j, i) =>
        let s2 := s1.setJob i { j with reported := true }
        onRound s2 (fun r1 => takeTrap s2 r1 j.cause (BitVec.ofNat 64 j.num) j.cursor j.faddr m))

/-- CRSTAT's value (R355). -/
def crstatValue (s : State) (n : Nat) (jlast v : Nat) : Word :=
  if 8 ≤ backFrom jlast v then 3
  else
    match s.jobOf n (v % 2 ^ 16) with
    | none => 3
    | some (_, j) =>
      BitVec.ofNat 64 (2 ^ 16 * (j.segs % 2 ^ 48) + 2 ^ 8 * (if j.state = .fault then j.cause else 0)
        + (match j.state with | .complete => 1 | .fault => 2 | _ => 0))

/-- CRSTAT (R355). -/
def execCrstat (f : RForm) (s : State) : Res :=
  let fs : List Field := [(f.a, false)]
  begin s f.g fs (regNames f.d 1) (fun s r m xs =>
    finish s s fs (writeOperand m f.d (tab (fun _ => crstatValue s s.cur r.jlast (laneOf (arg xs 0) 0).toNat))))

/-- Segments of the plan from position i that are all done, and their bytes (R353). -/
def donePrefix (done : List Nat) : Nat → List Segment → Nat × Nat
  | _, [] => (0, 0)
  | i, x :: xs =>
    if done.contains i then
      let (n, b) := donePrefix done (i + 1) xs
      (n + 1, b + x.len)
    else (0, 0)

/-- Commits a job over its longest prefix of complete segments (R353). -/
def CourierJob.commit (j : CourierJob) : CourierJob :=
  let (n, b) := donePrefix j.done j.committed (j.plan.drop j.committed)
  let c := j.committed + n
  { j with committed := c, bytes := (j.bytes + b) % 2 ^ 64, segs := (j.segs + n) % 2 ^ 64, done := j.done.filter (fun i => c ≤ i)
           state := if j.plan.length ≤ c then .complete else j.state }

/-- Stores what a commit changed (R353): bytes [31:8] at once, and the state when the job completes. -/
def State.commitJob (s : State) (i : Nat) (j : CourierJob) (pas : List Nat) : State :=
  let c := j.commit
  let s1 := s.setJob i c
  if c.committed = j.committed then s1
  else
    let s2 := s1.storeCursor c pas 31 8
    if c.state = .complete then s2.storeCursor c pas 5 4 else s2

/-- Whether segment k of a job has bytes written and is not complete. -/
def CourierJob.begun (j : CourierJob) (k : Nat) : Bool := j.wrote.any (fun x => x / 4096 == k)

/-- A job that gives up what it has read and written of segment k. -/
def CourierJob.without (j : CourierJob) (k : Nat) : CourierJob :=
  { j with read := j.read.filter (fun b => b.1 / 4096 != k), wrote := j.wrote.filter (fun x => x / 4096 != k) }

/-- Records a job's first fault, in segment k (R352): that segment goes no further and no other begins; those in flight finish. DEDUCED:
log entry 49. -/
def State.failJob (s : State) (i k cause : Nat) (va : Word) : State :=
  match s.jobs[i]? with
  | none => s
  | some j => s.setJob i (if j.failed then j.without k else { j.without k with failed := true, cause := cause, faddr := va })

/-- Whether a segment of job i, or all of its cursor, waits for service. -/
def State.segmentsWait (s : State) (i : Nat) : Bool :=
  s.services.any (fun v => match v.work with | .courier k _ => k == i | _ => false)

/-- Whether segments of job i are in flight: they wait for service, or part of them is written (R352, R358). -/
def State.inFlight (s : State) (i : Nat) : Bool := s.segmentsWait i || (s.jobs[i]?.map (fun j => !j.wrote.isEmpty)).getD false

/-- A job that is stopped: its cursor stands at the committed prefix, and later segments will be moved again (R358). -/
def CourierJob.halted (j : CourierJob) : CourierJob := { j with state := .stopped, done := [], read := [], wrote := [] }

/-- A job is to stop at a segment boundary (R358): at once where no segment is in flight. -/
def State.stopJob (s : State) (i : Nat) : State :=
  match s.jobs[i]? with
  | none => s
  | some j =>
    if !j.state.busy then s
    else if j.failed || s.inFlight i then s.setJob i { j with state := .stopping }
    else s.setJob i j.halted

/-- Stops every job of round n (R358). -/
def State.stopJobs (s : State) (n : Nat) : State :=
  (List.range s.jobs.length).foldl (fun s i => if (s.jobs[i]?.map (fun j => j.round == some n)).getD false then s.stopJob i else s) s

/-- A stopped job goes on from its cursor, on the engine of a die (R358). -/
def CourierJob.continued (j : CourierJob) (die : Nat) : CourierJob :=
  if j.state = .stopped then { j with state := .waiting, resume := true, die := die } else j

/-- On whose behalf a job's service request is made (R393): agent, node and team index. -/
def State.jobAgent (s : State) (j : CourierJob) : Agent × Option Nat × Nat :=
  let r := j.round.bind (fun n => s.rounds[n]?)
  ({ core := 0, part := j.part, user := true, round := j.round },
   (match j.round with | none => j.node | some _ => r.bind (fun q => (s.teamOf q).node)),
   (r.map (fun q => (s.teamOf q).tix)).getD 0)

/-- Asks for service for a segment of job i, or for its cursor, which counts as the segment after the last (R393). -/
def State.jobService (s : State) (i : Nat) (j : CourierJob) (segment : Nat) (pages : List Word) (va : Word) : State :=
  let (a, node, tix) := s.jobAgent j
  (s.requestService a (.courier i segment) pages va j.die node tix).1

/-- The end of a job that has recorded a fault or is to stop, once no segment is in flight (R352, R358): its cursor takes state 3, or stays
at state 1. A cursor that cannot be reached keeps its bytes. -/
def State.settleJob (s : State) (i : Nat) (j : CourierJob) : State :=
  if s.inFlight i then s
  else if !j.failed then (if j.state = .stopping then s.setJob i j.halted else s)
  else
    let c : CourierJob := { j with state := .fault, read := [] }
    match s.cursorPlaces j with
    | .ok pas => ((s.setJob i c).storeCursor c pas 5 4).storeCursor c pas 39 32
    | .missing ps va => if j.cause = 0x60 && j.faddr == va then s.setJob i c else s.jobService i j j.plan.length ps va
    | .fault _ _ => s.setJob i c
    | .held => s

/-- COURIER_JOB_START (R352, R358): a ready engine runs at most 64 jobs; a job that was stopped goes on from its cursor record, as .resume
does. A record that does not pass R351's check of it leaves the job at its own committed prefix. DEDUCED: log entry 72. -/
def execCourierJobStart (job : Nat) (s : State) : Res :=
  match s.jobs[job]? with
  | none => .next s
  | some j =>
    if !(j.state = .waiting && s.courierReady j.die
        && decide ((s.jobs.filter (fun x => x.die == j.die && (x.state == .running || x.state == .stopping))).length < 64)) || s.segmentsWait job then .next s
    else if !j.resume then .next (s.setJob job { j with state := .running })
    else
      let vas := (List.range 64).map (fun i => j.cursor + BitVec.ofNat 64 i)
      let s := s.readyJob j (vas.filterMap (s.userAt j.part))
      let failed (va : Word) (c : Nat) : Res := .next ((s.setJob job { j with state := .running }).failJob job j.plan.length c va)
      match gather (vas.map (s.userByte j.part)) with
      | .fault va c => failed va c
      | .missing ps va => .next (s.jobService job j j.plan.length ps va)
      | .held => .next s
      | .ok b =>
        let c := readCursor b
        let ok := c.jobid == j.jobid && (c.state == 2 || ((c.state == 1 || c.state == 3) && j.plan.any (fun x => x.src == c.src && x.seg == c.seg)))
        let j1 : CourierJob := { (if ok then j.at_ c else j) with resume := false }
        if j1.state = .complete then .next (s.setJob job j1)
        else
          match s.cursorPlaces j with
          | .ok pas => .next ((s.setJob job { j1 with state := .running }).beginCursor j1 pas (some c))
          | .fault va c => failed va c
          | .missing ps va => .next (s.jobService job j j.plan.length ps va)
          | .held => .next s

/-- Whether a segment needs what another package reads, and it is not at hand or cannot have come (R361, R364). -/
def State.awaitsOutside (s : State) (j : CourierJob) (x : Segment) (outside : ExtData) : Bool :=
  let e := (s.part j.part).entry j.table x.srcRank
  entryPkg e != s.package.number
    && (match outside with
      | .none => true
      | .bytes l => l.length != x.len || !(s.reaches (entryPorts e) (entryPkg e) && s.hears)
      | .fail c => c != 0x82 && !(s.reaches (entryPorts e) (entryPkg e) && s.hears))

/-- The first byte of a segment's destination in a lasting sector that the segment does not write whole (R289, R352). DEDUCED: log entry 49. -/
def State.lastingDest (s : State) (x : Segment) (cells : List (Nat × Byte)) : Option Word :=
  (cells.zipIdx.find? (fun p =>
    s.isLasting p.1.1 && !(List.range 32).all (fun i => cells.any (fun c => c.1 == p.1.1 / 32 * 32 + i)))).map (fun p =>
      x.dstAddr + BitVec.ofNat 64 p.2)

/-- Bytes of segment k of a job where they go, each as the job has read it, else as its source holds it now (R352). -/
def State.segmentCells (s : State) (j : CourierJob) (k : Nat) (x : Segment) (outside : ExtData) (offsets : List Nat) : Gathered (Nat × Byte) :=
  gather (offsets.map (fun i =>
    let src : Got Byte := match SMap.find j.read (segmentKey k i) with | some b => .ok b | none => s.segmentByte j x outside i
    (src.both (s.userDest j.part (x.dstAddr + BitVec.ofNat 64 i))).bind (fun p => .ok (p.2, p.1))))

/-- The addresses of device memory at which a job's segment finds some of its source, where this package holds it. -/
def State.segmentSource (s : State) (j : CourierJob) (x : Segment) (offsets : List Nat) : List Nat :=
  match s.sourcePart j x.srcRank with
  | none => []
  | some q => offsets.filterMap (fun i => s.userAt q (x.srcAddr + BitVec.ofNat 64 i))

/-- The addresses of device memory at which some of a segment goes. -/
def State.segmentDest (s : State) (j : CourierJob) (x : Segment) (offsets : List Nat) : List Nat :=
  offsets.filterMap (fun i => match s.userDest j.part (x.dstAddr + BitVec.ofNat 64 i) with | .ok pa => some pa | _ => none)

/-- The segment of a job that may move now (R352, R358, R367): it is not complete, and where the job has failed, is to stop, or its job number
migrates, it is in flight. -/
def State.movable (s : State) (job segment : Nat) : Option (CourierJob × Segment) :=
  match s.jobs[job]? with
  | none => none
  | some j =>
    match j.plan[segment]? with
    | none => none
    | some x =>
      let waits := s.services.any (fun v => v.work == .courier job segment)
      let late := j.failed || j.state == .stopping || (s.part j.part).frozen.contains j.table
      if (j.state == .running || j.state == .stopping) && j.committed ≤ segment && !j.done.contains segment && !waits
          && (!late || j.begun segment) then some (j, x) else none

/-- Some words of a segment move ahead of the rest (R352, R357): source words of this package are read, each at one instant, or destination
words whose bytes have been read are written, each at one instant. -/
def State.moveSegment (s : State) (job segment : Nat) (write : Bool) (offsets : List Nat) : State :=
  match s.movable job segment with
  | none => s
  | some (j, x) =>
    if !write then
      if (s.sourcePart j x.srcRank).isNone then s
      else
        let s1 := s.readyJob j (s.segmentSource j x offsets)
        (s1.jobs[job]?).elim s1 (fun j => s1.setJob job (s1.readSegment j segment .none offsets))
    else
      let all := (offsets.flatMap (wordOffsets x.dstAddr x.len)).filter (fun i => !j.wrote.contains (segmentKey segment i))
      if all.any (fun i => (SMap.find j.read (segmentKey segment i)).isNone) then s
      else
        match s.segmentCells j segment x .none all with
        | .ok l =>
          if l.any (fun c => s.isLasting c.1) then s
          else
            let s1 := s.writeJob j l
            (s1.jobs[job]?).elim s1 (fun j =>
              s1.setJob job { j with wrote := j.wrote ++ (all.map (segmentKey segment)).filter (fun k => !j.wrote.contains k) })
        | _ => s

/-- COURIER_SEGMENT_COMPLETE (R352, R353): what remains of a segment of a running job lands, or asks for service, or records a fault. The
number after the last segment stands for the end of a job that stops (R352, R358). While its job number migrates no segment begins (R367). -/
def execCourierSegmentComplete (job segment : Nat) (outside : ExtData) (s0 : State) : Res :=
  match s0.jobs[job]? with
  | none => .next s0
  | some j0 =>
    if (j0.plan[segment]?).isNone then
      if j0.state == .running || j0.state == .stopping then .next (s0.settleJob job j0) else .next s0
    else
      match s0.movable job segment with
      | none => .next s0
      | some (_, x) =>
        let todo := (List.range x.len).filter (fun i => !j0.wrote.contains (segmentKey segment i))
        let unread := todo.filter (fun i => (SMap.find j0.read (segmentKey segment i)).isNone)
        if !unread.isEmpty && s0.awaitsOutside j0 x outside then .next s0
        else
          let s := (s0.readyJob j0 (s0.segmentSource j0 x unread)).settleDest j0 (s0.segmentDest j0 x todo)
          match s.jobs[job]? with
          | none => .next s
          | some j =>
            match s.segmentCells j segment x outside todo, s.cursorPlaces j with
            | .fault va c, _ => .next (s.failJob job segment c va)
            | _, .fault va c => .next (s.failJob job segment c va)
            | .missing ps va, _ => .next (s.jobService job j segment ps va)
            | _, .missing ps va => .next (s.jobService job j segment ps va)
            | .ok l, .ok pas =>
              match s.lastingDest x l with
              | some va => .next (s.failJob job segment 0x63 va)
              | none => .next ((s.writeJob j l).commitJob job { j.without segment with done := segment :: j.done } pas)
            | _, _ => .next s

/-- A segment whose service failed (R352, R393): the side of the missing page decides what is recorded; only a source in the job's own
partition is ever serviced. -/
def State.failSegment (s : State) (job segment : Nat) (va : Word) : State :=
  match s.jobs[job]? with
  | none => s
  | some j =>
    let source := match j.plan[segment]? with
      | some x => s.sourcePart j x.srcRank == some j.part && decide ((va - x.srcAddr).toNat < x.len)
      | none => false
    let s1 := if j.state == .waiting then s.setJob job { j with state := .running } else s
    if j.state.busy then s1.failJob job segment (if source then 0x81 else 0x60) va else s

end Sys2Proof.Machine
end

