-- ==== Sys2Proof/Machine/Fabric.lean ====
section
/-! DEFINITION. The rotor fabric: ranks, remote accesses, counted release and the packets (R361 to R377, R391, R392), opcodes 0x280 to
0x286, and the events of packets and lines. -/
namespace Sys2Proof.Machine

/-- Whether a rank word whose entry is e resolves (R364). -/
def wordResolves (w e : Word) : Bool :=
  bits w 63 24 == 0 && bits w 15 13 == 0 && decide (bits w 12 0 < 6144) && e.getLsbD 63 && entryPorts e != 0

/-- Whether a rank word resolves (R364). -/
def Partition.resolves (p : Partition) (w : Word) : Bool := wordResolves w (p.named w)

/-- The job number that a rank word names (R364). -/
def jobOfWord (w : Word) : Nat := bits w 23 16

/-- Cycles in a number of microseconds at the arithmetic clock (R342). -/
def State.micros (s : State) (n : Nat) : Nat := n * s.package.clk * 100

/-- A remote access in one lane: lane, address, rank word, and the entry that the word named at issue (R364). -/
structure RLane where
  lane : Nat
  addr : Word
  word : Word
  entry : Word
  deriving DecidableEq, Repr

/-- The passing lanes of a remote access: addresses and rank words from the pair, with an offset (R368). An instruction that waits keeps the
entry that it read when it issued (R364). -/
def remoteLanes (s : State) (r : Round) (m : Mask) (a w : Lanes) (ofs : Word) : List RLane :=
  (lanesOf m).map (fun l =>
    { lane := l, addr := laneOf a l + ofs, word := laneOf w l
      entry := ((r.remote.find? (fun x => x.1 == l)).map (fun x => x.2.2)).getD ((s.partOf r).named (laneOf w l)) })

/-- The start of an instruction that accesses memory on the FB path: acquires of the round have taken effect (R374 rule 1). -/
def beginFabric (s : State) (g : Guard) (fs : List Field) (touched : List Nat) (k : State → Round → Mask → List Lanes → Res) : Res :=
  begin (s.settleAcquires s.cur) g fs touched k

/-- A fabric instruction that names a job under migration waits at issue (R367). -/
def withoutMigration (s : State) (r : Round) (words : List Word) (k : Res) : Res :=
  if words.any (fun w => (s.partOf r).frozen.contains (jobOfWord w)) then stall s r .engine else k

/-- What a fabric instruction that is under way keeps of its lanes (R364). -/
def latchOf (l : List RLane) : List (Nat × Word × Word) := l.map (fun x => (x.lane, x.word, x.entry))

/-- The three checks of R369 in their order. They are made once, when the instruction issues; from then on it is under way, and keeps the
entries of its lanes (R364, R367). -/
def withRanks (s : State) (r : Round) (align : Nat) (l : List RLane) (k : State → Round → Res) : Res :=
  if !r.remote.isEmpty then k s r
  else
    withoutMigration s r (l.map (fun x => x.word))
      (checkLanes s r 0x80 0 (l.map (fun x => (x.lane, x.word))) (fun p => (s.partOf r).resolves p.2)
        (checkLanes s r 0x61 2 (l.map (fun x => (x.lane, x.addr))) (fun p => canonical p.2)
          (checkLanes s r 0x62 0 (l.map (fun x => (x.lane, x.addr))) (fun p => p.2.toNat % align == 0)
            (let r1 := { r with remote := latchOf l }
             k (s.setRound r1) r1))))

/-- What the target of a fabric operation gives: the physical addresses of its bytes, the failure's cause, or a wait for an HBM channel. -/
inductive Reach where
  | ok (pas : List Nat)
  | fail (cause : Nat)
  | held
  deriving DecidableEq, Repr

/-- The bytes that a fabric operation reaches at its target (R365), by their addresses there. -/
def State.remoteBytes (s : State) (job srcPkg srcDie dstDie : Nat) (write : Bool) (vas : List Word) : Reach :=
  match (s.die dstDie).part with
  | none => .fail 0x80
  | some q =>
    if ((s.part q).rankOf job srcPkg srcDie).isNone then .fail 0x80
    else
      let xs := vas.map (userXlat s q write)
      match xs.findSome? (fun x => match x with | .missing _ => some 0x60 | .refused _ => some 0x61 | _ => none) with
      | some c => .fail c
      | none =>
        if xs.any (fun x => x == .held) then .held
        else
          let pas := xs.map (fun x => match x with | .ok pa => pa | _ => 0)
          if pas.any s.isLasting then .fail 0x63 else .ok pas

/-- Whether bytes on their way from a round of core c, to the rank of an entry, are bytes that a remote access reaches (R371). -/
def touchesLanes (s : State) (r : Round) (z : Nat) (l : List RLane) (round pkg die : Nat) (bytes : List (Nat × Byte)) : Bool :=
  (s.rounds[round]?.map (fun q => q.core == r.core)).getD false
    && l.any (fun x => entryPkg x.entry == pkg && entryDie x.entry == die
        && bytes.any (fun b => decide (x.addr.toNat ≤ b.1) && decide (b.1 < x.addr.toNat + z)))

/-- A store packet of this package that has not been answered and holds bytes that a remote access reaches (R369). -/
def Flight.blocks (s : State) (r : Round) (z : Nat) (l : List RLane) (f : Flight) : Bool :=
  f.counted && (match f.packet.body with
    | .store bytes _ _ => touchesLanes s r z l f.packet.srcRound f.packet.dstPkg f.packet.dstDie bytes
    | _ => false)

/-- Drains the core's lines whose bytes the access reaches, and waits until their packets are acknowledged (R369, R371). -/
def withQuiet (s : State) (z : Nat) (l : List RLane) (k : State → Res) : Res :=
  onRound s (fun r =>
    let s1 := s.drainLines (fun x => touchesLanes s r z l x.round (entryPkg x.entry) (entryDie x.entry) x.bytes)
    if s1.flights.any (Flight.blocks s1 r z l) then onRound s1 (fun r1 => stall s1 r1 .acks) else k s1)

/-- The reply that a lane has received. -/
def Round.reply (r : Round) (x : RLane) : Option Reply := r.replies.find? (fun q => q.lane == x.lane)

/-- A fabric instruction is over. -/
def Round.noRemote (r : Round) : Round := { r with replies := [], remote := [], wave := 0 }

/-- Sends the requests of a remote access, one per lane, for which the round waits (R369). -/
def State.ask (s : State) (l : List RLane) (wave : Nat) (counted : Bool) (body : RLane → PacketBody) : Res :=
  let s1 := l.foldl (fun s x => s.sendPacket s.cur x.word x.entry (fun _ => body x) (fun e => e) noRange x.lane counted .sent) s
  onRound s1 (fun r => stall s1 { r with replies := [], remote := latchOf l, wave := wave } .remote)

/-- REMOTE_FAULT and FABRIC_TIMEOUT (R384) for the failing lanes, with the values of the lowest. DEDUCED: log entry 53. -/
def remoteFault (s : State) (r : Round) (b : RLane × Reply) (mask : Mask) : Res :=
  let c := b.2.cause.getD 0
  let r1 := r.noRemote
  if c = 0x82 then takeTrap s r1 0x82 b.1.word b.1.addr (if b.2.apply then 1 else 0) mask
  else takeTrap s r1 0x81 b.1.word b.1.addr (BitVec.ofNat 64 c) mask

/-- Goes on once every lane of a remote access has its reply, unless some failed (R369). -/
def withReplies (s : State) (r : Round) (l : List RLane) (k : Res) : Res :=
  if l.any (fun x => (r.reply x).isNone) then stall s r .remote
  else
    match l.filterMap (fun x => (r.reply x).bind (fun q => q.cause.map (fun _ => (x, q)))) with
    | [] => k
    | b :: bs => remoteFault s r b (maskOf (fun i => (b :: bs).any (fun x => x.1.lane == i)))

/-- The data of a lane's reply. -/
def Round.replyData (r : Round) (l : Nat) : List Byte := ((r.replies.find? (fun q => q.lane == l)).map (fun q => q.data)).getD []

/-- RLD (R369). -/
def execRld (f : MForm) (s : State) : Res :=
  let z := szBytes f.sz
  let n := szRegs f.sz
  let fs : List Field := [(f.a, f.lra), (f.a + 1, false)]
  beginFabric s f.g fs (regNames f.d n) (fun s r m xs =>
    let l := remoteLanes s r m (arg xs 0) (arg xs 1) (f.ofs.signExtend 64)
    let done : Res := finish s s fs (fun q => (writeRun m f.d (loadedRegs n r.replyData) q).noRemote)
    if r.wave = 0 then
      withRanks s r (if ordSem f.ord = 0 then 1 else min z 8) l (fun s _ =>
        if l.isEmpty then done else withQuiet s z l (fun s1 => s1.ask l 1 false (fun x => .read x.addr z)))
    else withReplies s r l done)

/-- RATOM and RCAS (R369, R374): the pages of every lane are translated at their targets before any lane is applied. -/
def remoteAtomic (s : State) (g : Guard) (fs : List Field) (d : Code) (z : Nat) (rel : Bool)
    (body : List Lanes → RLane → PacketBody) : Res :=
  beginFabric s g fs (regNames d 1) (fun s r m xs =>
    let l := remoteLanes s r m (arg xs 0) (arg xs 1) 0
    if r.wave = 0 then
      withRanks s r z l (fun s _ =>
        withSemRelease s rel 6 m (fun s1 =>
          if l.isEmpty then finish s s1 fs (fun q => q)
          else withQuiet s1 z l (fun s2 => s2.ask l 1 false (fun x => .probe x.addr z))))
    else
      withReplies s r l
        (if r.wave = 1 then s.ask l 2 true (body xs)
         else finish s s fs (fun q =>
           (writeOperand m d (tab (fun i => BitVec.ofNat 64 (ofBytes (r.replyData i)))) q).noRemote)))

def execRatom (f : AForm) (s : State) : Res :=
  let z := aszBytes f.asz
  remoteAtomic s f.g [(f.a, f.lra), (f.a + 1, false), (f.b, f.lrb)] f.d z (2 ≤ ordSem f.ord) (fun xs x =>
    .atomic x.addr z f.op.toNat (laneOf (arg xs 2) x.lane) 0)

/-- The operation number of a compare and swap in a packet. -/
def compareOp : Nat := 8

def execRcas (f : RForm) (s : State) : Res :=
  remoteAtomic s f.g [(f.a, f.lra), (f.a + 1, false), (f.b, f.lrb), (f.d, false)] f.d 8 true (fun xs x =>
    .atomic x.addr 8 compareOp (laneOf (arg xs 2) x.lane) (laneOf (arg xs 3) x.lane))

/-- Bytes of a store for one 256-byte range of a rank (R370). -/
structure RPart where
  word : Word
  entry : Word
  base : Nat
  cells : List (Nat × Byte)
  deriving DecidableEq, Repr

/-- The bytes of a lane's store by 256-byte range, lowest range first (R370). -/
def storeRanges (x : RLane) (bytes : List Byte) : List RPart :=
  let cells := bytes.zipIdx.map (fun p => ((x.addr + BitVec.ofNat 64 p.2).toNat, p.1))
  (cells.foldl (fun (acc : List Nat) c => if acc.contains (c.1 / 256) then acc else acc ++ [c.1 / 256]) []).map (fun b =>
    { word := x.word, entry := x.entry, base := 256 * b, cells := cells.filter (fun c => c.1 / 256 == b) })

/-- Adds bytes to a byte map; a later byte replaces an earlier one. -/
def putCells (old new : List (Nat × Byte)) : List (Nat × Byte) := new.foldl (fun acc c => SMap.set acc c.1 c.2) old

/-- Lines of a core's write-combining buffer (R370). -/
def lineCount : Nat := 128

/-- The least recently written line of a core (R370). -/
def State.oldestLine (s : State) (core : Nat) : Option WcLine :=
  (s.lines.filter (fun x => x.core == core)).foldl (fun (acc : Option WcLine) x =>
    match acc with
    | none => some x
    | some y => if x.last < y.last then some x else some y) none

/-- Writes bytes of round n into its line of a range (R370): a full buffer drains its least recently written line first. A line of the range
that was begun under another entry drains first, so that the stores stay in program order (R374). -/
def State.writeLine (s : State) (n core : Nat) (p : RPart) : State :=
  let same (x : WcLine) : Bool := x.round == n && x.rankWord == p.word && x.base == p.base
  let mine (x : WcLine) : Bool := same x && x.entry == p.entry
  let s0 := s.drainLines (fun x => same x && !mine x)
  if s0.lines.any mine then
    { s0 with
      lines := s0.lines.map (fun x => if mine x then { x with bytes := putCells x.bytes p.cells, last := s0.nextId } else x)
      nextId := s0.nextId + 1 }
  else
    let s1 :=
      if (s0.lines.filter (fun x => x.core == core)).length < lineCount then s0
      else match s0.oldestLine core with | some x => s0.drainLine x | none => s0
    { s1 with
      lines := s1.lines ++ [{ id := s1.nextId, round := n, core := core, rankWord := p.word, entry := p.entry, base := p.base
                              bytes := putCells [] p.cells, first := s1.now, last := s1.nextId }]
      nextId := s1.nextId + 1 }

/-- The packets of a releasing RST (R391): one for each rank word and 256-byte range that the lanes touch. -/
def gatherRanges (l : List RPart) : List RPart :=
  l.foldl (fun (acc : List RPart) x =>
    let same (y : RPart) : Bool := y.word == x.word && y.base == x.base
    if acc.any same then acc.map (fun y => if same y then { y with cells := putCells y.cells x.cells } else y)
    else acc ++ [{ x with cells := putCells [] x.cells }]) []

/-- RST (R370, R391). -/
def execRst (f : MForm) (s : State) : Res :=
  let z := szBytes f.sz
  let n := szRegs f.sz
  let fs : List Field := (f.a, f.lra) :: (f.a + 1, false) :: runFields f.d n f.lrd
  let rel := ordSem f.ord == 2
  beginFabric s f.g fs [] (fun s r m xs =>
    let l := remoteLanes s r m (arg xs 0) (arg xs 1) (f.ofs.signExtend 64)
    withRanks s r (if rel then min z 8 else 1) l (fun s r =>
       let parts := l.flatMap (fun x => storeRanges x (storedBytes z (xs.drop 2) x.lane))
       if rel then
         withRelease s 6 false m (fun s1 =>
           finish s1 ((gatherRanges parts).foldl (fun s p => s.sendStore s.cur p.word p.entry p.cells p.base .sent) s1) fs Round.noRemote)
       else
         let s1 := parts.foldl (fun s p => s.writeLine s.cur r.core p) s
         finish s (s1.drainLines (fun x => x.round == s.cur && x.bytes.length == 256)) fs Round.noRemote))

/-- Flags that a round may have unacknowledged toward one rank (R375). -/
def flagLimit : Nat := 256

/-- RREL (R375). -/
def execRrel (f : RForm) (s : State) : Res :=
  let fs : List Field := [(f.a, f.lra), (f.a + 1, false), (f.d, false)]
  beginFabric s f.g fs [] (fun s r m xs =>
    let l := remoteLanes s r m (arg xs 0) (arg xs 1) 0
    withRanks s r 8 l (fun s r =>
       if l.any (fun x => decide (flagLimit < (r.epochOf x.word).unacked + (l.filter (fun y => y.word == x.word)).length)) then
         stall s r .acks
       else
         let s1 := l.foldl (fun s x =>
           let s1 := s.drainLines (fun y => y.round == s.cur && y.rankWord == x.word)
           s1.sendPacket s.cur x.word x.entry (fun e => .flag x.addr (laneOf (arg xs 2) x.lane) e.epoch e.sent)
             (fun e => { e with epoch := (e.epoch + 1) % 2 ^ 16, sent := 0, unacked := e.unacked + 1 }) noRange x.lane true .sent) s
         finish s s1 fs Round.noRemote))

/-- RFLUSH once its checks have passed (R376): the selected lines drain, and the round's system counter reaches zero. -/
def flushRanks (s : State) (fs : List Field) (m : Mask) (a : Word) : Res :=
  let s1 := s.drainLines (fun x => x.round == s.cur && (a == BitVec.allOnes 64 || x.rankWord == a))
  onRound s1 (fun q =>
    if q.sysCtr != 0 then stall s1 q .acks
    else
      match q.kept with
      | some x =>
        let q1 := { q with kept := none }
        takeTrap (s1.setRound q1) q1 (if x.timeout then 0x82 else 0x81) x.rankWord x.addr (BitVec.ofNat 64 x.cause) m
      | none => finish s1 s1 fs Round.noRemote)

/-- RFLUSH (R372, R376): its checks are made once, when it issues; then it waits for the round's system counter. DEDUCED: log entry 51. -/
def execRflush (f : RForm) (s : State) : Res :=
  let fs : List Field := [(f.a, false), (f.b, false)]
  begin s f.g fs [] (fun s r m xs =>
    if m = 0 then finish s s fs (fun q => q)
    else
      let a := lowValue m xs 0
      let b := (lowValue m xs 1).toNat
      let all := a == BitVec.allOnes 64
      if !r.remote.isEmpty then flushRanks s fs m a
      else
        withoutMigration s r (if all then [] else [a])
          (if 64 < b then takeTrap s r 0x02 0x100 0 0 m
           else if !all && !(s.partOf r).resolves a then takeTrap s r 0x80 a 0 0 m
           else flushRanks (s.setRound { r with remote := [(0, a, 0)], ageing := if b = 0 then r.ageing else b }) fs m a))

/-- RANKQ's value (R377). -/
def rankqValue (s : State) (r : Round) (w : Word) : Word :=
  if (s.partOf r).resolves w then
    let e := (s.partOf r).named w
    let here := entryPkg e == s.package.number
    BitVec.ofNat 64 (2 ^ 63 + 2 ^ 16 * Nat.xor s.package.number (entryPkg e) + (if here && entryDie e == s.dieOf r then 2 ^ 14 else 0)
      + (if here then 2 ^ 13 else 0) + 2 ^ 10 * entryDie e + entryPkg e)
  else 0

/-- RANKQ (R377). -/
def execRankq (f : RForm) (s : State) : Res :=
  let fs : List Field := [(f.a, f.lra)]
  begin s f.g fs (regNames f.d 1) (fun s r m xs =>
    withoutMigration s r ((lanesOf m).map (fun l => laneOf (arg xs 0) l))
      (finish s s fs (writeOperand m f.d (tab (fun l => rankqValue s r (laneOf (arg xs 0) l))))))

/-- ROTOR_PHASE (R361). -/
def execRotorPhase (s : State) : Res :=
  .next { s with package := { s.package with phase := (s.package.phase + 1) % 8 } }

/-- Whether a count or a record of a die belongs to a packet's round and rank word (R375). -/
def EpochCount.of (c : EpochCount) (p : Packet) : Bool := c.srcPkg == p.srcPkg && c.srcRound == p.srcRound && c.rankWord == p.rankWord
def keyOf (p : Packet) (x : Nat × Nat × Word × Nat) : Bool := x.1 == p.srcPkg && x.2.1 == p.srcRound && x.2.2.1 == p.rankWord

/-- Counts a settled store packet of an epoch, with its failure (R375). -/
def Package.settle (k : Package) (p : Packet) (epoch cause : Nat) : Package :=
  let mine (c : EpochCount) : Bool := c.of p && c.epoch == epoch
  let fail : Option Nat := if cause = 0 then none else some cause
  if k.counts.any mine then
    { k with counts := k.counts.map (fun c => if mine c then { c with settled := c.settled + 1, failure := c.failure.or fail } else c) }
  else
    { k with counts := k.counts ++ [{ srcPkg := p.srcPkg, srcRound := p.srcRound, rankWord := p.rankWord, epoch := epoch, settled := 1
                                      failure := fail }] }

/-- The count of a flag's epoch (R375). -/
def Package.countOf (k : Package) (p : Packet) (epoch : Nat) : Nat × Option Nat :=
  match k.counts.find? (fun c => c.of p && c.epoch == epoch) with
  | some c => (c.settled, c.failure)
  | none => (0, none)

/-- The next epoch whose flag may be written for another package's round and rank word (R375): of a sender that is new here the first one,
or where the rank has come here from another package an epoch that is open. DEDUCED: log entry 80. -/
def Package.nextEpoch (k : Package) (p : Packet) : Nat :=
  ((k.next.find? (keyOf p)).map (fun x => x.2.2.2)).getD
    (if k.adopted.contains p.rankWord then Config.firstEpoch p.srcPkg p.srcRound p.rankWord % 2 ^ 16 else 0)

/-- The first epoch from e on whose flag has neither been written nor failed. -/
def skipClosed (closed : Nat → Bool) : Nat → Nat → Nat
  | 0, e => e
  | n + 1, e => if closed e then skipClosed closed n ((e + 1) % 2 ^ 16) else e

/-- The count of an epoch is dropped (R375). -/
def Package.dropCount (k : Package) (p : Packet) (epoch : Nat) : Package :=
  { k with counts := k.counts.filter (fun c => !(c.of p && c.epoch == epoch)) }

/-- A flag of an epoch of another package has been written or has failed: its count is dropped, and once no flag of a lower epoch is
missing the next epoch's flag comes up (R375). Epochs more than half their range ahead lie behind. -/
def Package.closeEpoch (k : Package) (p : Packet) (epoch : Nat) : Package :=
  let next := k.nextEpoch p
  if 2 ^ 15 ≤ (epoch + 2 ^ 16 - next) % 2 ^ 16 then k
  else
    let closed := (p.srcPkg, p.srcRound, p.rankWord, epoch) :: k.closed.filter (fun x => !(keyOf p x && x.2.2.2 == epoch))
    let isClosed (e : Nat) : Bool := closed.any (fun x => keyOf p x && x.2.2.2 == e)
    let up := skipClosed isClosed closed.length next
    { k.dropCount p epoch with
      closed := closed.filter (fun x => !(keyOf p x && decide ((x.2.2.2 + 2 ^ 16 - up) % 2 ^ 16 ≥ 2 ^ 15)))
      next := k.next.filter (fun x => !keyOf p x) ++ [(p.srcPkg, p.srcRound, p.rankWord, up)] }

/-- A rank of a job that a table newly maps to this package, from another one, keeps its senders' epochs (R367, R375). -/
def Package.adopt (k : Package) (job rank : Nat) (old new : Word) : Package :=
  let w : Word := BitVec.ofNat 64 (2 ^ 16 * job + rank)
  if old.getLsbD 63 && new.getLsbD 63 && entryPkg old != k.number && entryPkg new == k.number && !k.adopted.contains w then
    { k with adopted := k.adopted ++ [w] }
  else k

/-- Replaces a packet that this package holds, or forgets it. -/
def State.setFlight (s : State) (f : Flight) : State := { s with flights := s.flights.map (fun x => if x.key == f.key then f else x) }
def State.dropFlight (s : State) (key : Nat) : State := { s with flights := s.flights.filter (fun x => x.key != key) }

/-- Whether a packet is this package's own. -/
def State.own (s : State) (p : Packet) : Bool := p.srcPkg == s.package.number

/-- Whether a packet may still be applied: its sender has not given it up, 1 ms after its first sending (R362). -/
def State.fresh (s : State) (p : Packet) : Bool := s.now < p.sent + s.micros 1000

/-- Records that another package's packet has been applied, for 4 ms (R362). -/
def State.noteApplied (s : State) (p : Packet) : State :=
  let d := s.die p.dstDie
  s.setDie p.dstDie { d with
    applied := d.applied.filter (fun a => decide (s.now < a.2.2 + s.micros 4000)) ++ [(p.srcPkg, p.id, s.now)] }

/-- A packet has taken effect at its target, or has failed there (R362): this package's own waits to be answered. -/
def State.settleFlight (s : State) (key cause : Nat) : State :=
  match s.flights.find? (fun f => f.key == key) with
  | none => s
  | some f =>
    if s.own f.packet then s.setFlight { f with state := .settled cause, todo := [] } else (s.dropFlight key).noteApplied f.packet

/-- A flag's address, value, epoch and count; none for other packets. -/
def flagOf (p : Packet) : Option (Word × Word × Nat × Nat) :=
  match p.body with
  | .flag a v e n => some (a, v, e, n)
  | _ => none

/-- The addresses of the bytes that a packet reaches at its target, and whether it writes them (R365). -/
def packetBytes (b : PacketBody) : List Word × Bool :=
  let run (a : Word) (n : Nat) : List Word := (List.range n).map (fun i => a + BitVec.ofNat 64 i)
  match b with
  | .store bytes _ _ => (bytes.map (fun x => BitVec.ofNat 64 x.1), true)
  | .flag a _ _ _ => (run a 8, true)
  | .read a n => (run a n, false)
  | .probe a n => (run a n, true)
  | .atomic a n _ _ _ => (run a n, true)
  | .ack _ _ => ([], false)
  | .reply _ _ => ([], false)

/-- What a packet's target gives (R365). -/
def State.reach (s : State) (p : Packet) : Reach :=
  s.remoteBytes p.job p.srcPkg p.srcDie p.dstDie (packetBytes p.body).2 (packetBytes p.body).1

/-- The state with the package changed. -/
def State.setPackage (s : State) (k : Package) : State := { s with package := k }

/-- Whether every flag of the same round and rank word with a lower epoch has been written or has failed (R375): this package knows those of
its own rounds. -/
def State.flagsBefore (s : State) (p : Packet) (epoch : Nat) : Bool :=
  if s.own p then
    !s.flights.any (fun g => s.own g.packet && (flagOf g.packet).isSome && g.packet.srcRound == p.srcRound && g.packet.rankWord == p.rankWord
      && decide (g.packet.id < p.id) && (match g.state with | .settled _ => false | _ => true))
  else s.package.nextEpoch p == epoch

/-- Whether a held flag's turn has come (R375). -/
def State.flagDue (s : State) (h : HeldFlag) : Bool :=
  match flagOf h.packet with
  | none => false
  | some (_, _, epoch, count) =>
    s.flagsBefore h.packet epoch && decide (count ≤ (s.package.countOf h.packet epoch).1) && s.fresh h.packet
      && s.reach h.packet != .held

/-- The epoch of a packet's flag is closed (R375). -/
def State.closeEpoch (s : State) (p : Packet) (epoch : Nat) : State :=
  s.setPackage (if s.own p then s.package.dropCount p epoch else s.package.closeEpoch p epoch)

/-- A held flag leaves the release table of its die, and its epoch is closed (R375). -/
def State.closeFlag (s : State) (die : Nat) (h : HeldFlag) : State :=
  let d := s.die die
  let s1 := s.setDie die { d with held := d.held.filter (fun x => x != h) }
  match flagOf h.packet with
  | none => s1
  | some (_, _, epoch, _) => s1.closeEpoch h.packet epoch

/-- What takes effect before a packet reads or writes some bytes: the accesses behind a release, which its sender may have acquired, and the
buffered entries behind one (R374, R386). -/
def State.settlePacket (s : State) (at_ : List Nat) : State :=
  ((s.performAll (fun _ _ a => a.released && a.isRead)).performOn (fun _ _ a => a.released) false at_).drainStores (fun e =>
    e.released && at_.any (fun a => (SMap.find e.bytes a).isSome))

/-- Writes or fails one held flag of a die whose turn has come (R375). -/
def State.writeFlag (s : State) (die : Nat) (h : HeldFlag) : State :=
  match flagOf h.packet with
  | none => s
  | some (_, value, epoch, _) =>
    let s1 := s.closeFlag die h
    match (s.package.countOf h.packet epoch).2, s.reach h.packet with
    | some c, _ => s1.settleFlight h.key c
    | none, .fail c => s1.settleFlight h.key c
    | none, .ok pas => ((s1.settlePacket pas).writeBytes (placeBytes pas (toBytes 8 value.toNat))).settleFlight h.key 0
    | none, .held => s

/-- Writes every held flag of a die whose turn has come. -/
def State.writeFlags : Nat → Nat → State → State
  | 0, _, s => s
  | n + 1, die, s =>
    match (s.die die).held.find? s.flagDue with
    | none => s
    | some h => State.writeFlags n die (s.writeFlag die h)

/-- Writes what is due among the flags of a die. -/
def State.flushFlags (s : State) (die : Nat) : State := State.writeFlags (s.die die).held.length die s

/-- The entries of a die's release table (R375). -/
def releaseTable : Nat := 8192

/-- The units in which a packet takes effect, as positions among its bytes (R291, R294, R371). -/
def packetUnits (b : PacketBody) : List (List Nat) :=
  match b with
  | .store bytes _ _ =>
    (bytes.foldl (fun (acc : List Nat) x => if acc.contains (x.1 / 8) then acc else acc ++ [x.1 / 8]) []).map (fun w =>
      (List.range bytes.length).filter (fun i => (bytes.getD i (0, 0)).1 / 8 == w))
  | .read a n => unitsOf n a.toNat
  | .atomic _ n _ _ _ => [List.range n]
  | _ => []

/-- What an atomic packet does to a value (R294, R369). -/
def packetAtomic (op size : Nat) (b c : Word) (old : Nat) : Nat :=
  (if op = compareOp then AccessOp.compare else .atomic op false).value size b.toNat c.toNat old

/-- The state as a unit of a packet takes effect on some bytes (R365): after what stands behind a release, and for a read of this package's
own after what its round has read of them (R284). -/
def State.readyPacket (s : State) (f : Flight) (at_ : List Nat) : State :=
  let s1 := s.settlePacket at_
  match f.packet.body with
  | .store _ _ _ => s1
  | _ => if s.own f.packet then (s1.serveReads f.packet.srcRound f.key false at_).sendServed f.packet.srcRound at_ else s1

/-- One unit of a packet takes effect at its target (R365). -/
def State.landUnit (s : State) (f : Flight) (u : List (Nat × Nat)) : State × Flight :=
  let pas := u.map (fun x => x.2)
  let s0 := s.readyPacket f pas
  match f.packet.body with
  | .store bytes _ _ => (s0.writeBytes (u.map (fun x => (x.2, (bytes.getD x.1 (0, 0)).2))), f)
  | .atomic _ n op b c =>
    let old := pas.map (Memory.read s0.mem)
    (s0.writeBytes (pas.zip (toBytes n (packetAtomic op n b c (ofBytes old)))), { f with got := (u.map (fun x => x.1)).zip old })
  | _ => (s0, { f with got := f.got ++ u.map (fun x => (x.1, Memory.read s0.mem x.2)) })

/-- Units of a packet take effect in order. -/
def State.landUnits : State → Flight → List (List (Nat × Nat)) → State × Flight
  | s, f, [] => (s, f)
  | s, f, u :: us =>
    let (s1, f1) := s.landUnit f u
    State.landUnits s1 f1 us

/-- The packet has settled at its target with a result: a counted store counts there, and flags that waited for it are written (R372, R375). -/
def State.settled_ (s : State) (f : Flight) (cause : Nat) : State :=
  let s1 := s.settleFlight f.key cause
  match f.packet.body with
  | .store _ epoch counted =>
    (if counted then s1.setPackage (s1.package.settle f.packet epoch cause) else s1).flushFlags f.packet.dstDie
  | _ => s1

/-- Whether a packet stores bytes. -/
def isStore (b : PacketBody) : Bool :=
  match b with
  | .store _ _ _ => true
  | _ => false

/-- The chosen units of a packet take effect, all that remain where none are named; with the last one the packet has settled. One that reads a
lasting sector fails (R289, R365). -/
def State.advanceFlight (s : State) (f : Flight) (units : Option (List Nat)) : State :=
  let chosen (i : Nat) : Bool := (units.map (fun l => l.contains i)).getD true
  let xs := f.todo.zipIdx
  let go := (xs.filter (fun x => chosen x.2)).map (fun x => x.1)
  let stay := (xs.filter (fun x => !chosen x.2)).map (fun x => x.1)
  if go.isEmpty && !f.todo.isEmpty then s
  else if !isStore f.packet.body && go.any (fun u => u.any (fun x => s.isLasting x.2)) then s.settled_ { f with todo := [] } 0x63
  else
    let (s1, f1) := State.landUnits s f go
    let f2 : Flight := { f1 with state := .landing, todo := stay }
    if stay.isEmpty then (s1.setFlight f2).settled_ f2 0 else s1.setFlight f2

/-- Whether a lower lane of the same instruction has its atomic step at the same address still to take (R369). -/
def State.behindLane (s : State) (f : Flight) : Bool :=
  match f.packet.body with
  | .atomic a _ _ _ _ =>
    s.flights.any (fun g =>
      g.packet.srcPkg == f.packet.srcPkg && g.packet.srcRound == f.packet.srcRound && g.packet.dstDie == f.packet.dstDie
        && decide (g.packet.id < f.packet.id) && (g.state == .sent || g.state == .landing)
        && (match g.packet.body with | .atomic b _ _ _ _ => a == b | _ => false))
  | _ => false

/-- A packet whose target is here is taken up (R365, R372, R375): a flag goes into the release table, unless that is full; other packets
settle with a failure, or their units take effect. -/
def State.takeUp (s : State) (f : Flight) (units : Option (List Nat)) : State :=
  let die := f.packet.dstDie
  if !s.fresh f.packet || s.behindLane f then s
  else if (flagOf f.packet).isSome then
    if releaseTable ≤ (s.die die).held.length then s
    else
      let d := s.die die
      ((s.setDie die { d with held := d.held ++ [{ key := f.key, packet := f.packet }] }).setFlight { f with state := .landing }).flushFlags die
  else
    match s.reach f.packet with
    | .held => s
    | .fail c => s.settled_ f c
    | .ok pas => s.advanceFlight { f with todo := (packetUnits f.packet.body).map (fun u => u.map (fun i => (i, pas.getD i 0))) } units

/-- A packet at its target here, which its sender has not given up (R362): it is taken up, more of its units take effect, or the flags of its
die are looked at again. -/
def State.landFlight (s : State) (f : Flight) (units : Option (List Nat)) : State :=
  if f.packet.dstPkg != s.package.number then s
  else
    match f.state with
    | .held => s
    | .sent => s.takeUp f units
    | .landing =>
      if !s.fresh f.packet then s
      else if (flagOf f.packet).isSome then s.flushFlags f.packet.dstDie else s.advanceFlight f units
    | .settled _ => s

/-- All units of the packets of `p` that have begun to take effect do so. -/
def State.completeLanding (s : State) (p : Flight → Bool) : State :=
  (s.flights.filter (fun f => f.state == .landing && p f)).foldl (fun s f => s.landFlight f none) s

/-- Before time reaches an instant, every packet that has begun to take effect, and that its sender will have given up then, does so whole:
it is applied once or not at all (R362). DEDUCED: log entry 52. -/
def State.landBefore (s : State) (now : Nat) : State :=
  s.completeLanding (fun f => (flagOf f.packet).isNone && decide (f.packet.sent + s.micros 1000 ≤ now))

/-- Bytes that a packet takes in relay space (R362, R363), in flits of 64. -/
def packetSize (p : Packet) : Nat :=
  match p.body with
  | .store bytes _ _ => 64 + (bytes.length + 63) / 64 * 64
  | .reply _ lanes => 64 + ((lanes.foldl (fun acc x => acc + x.data.length) 0) + 63) / 64 * 64
  | _ => 128

/-- The relay space of each destination package (R363). -/
def relaySpace : Nat := 2 ^ 22

/-- Whether a packet asks for a reply to a lane of a remote access (R369). -/
def isRequest (b : PacketBody) : Bool :=
  match b with
  | .read _ _ => true
  | .probe _ _ => true
  | .atomic _ _ _ _ _ => true
  | _ => false

/-- Whether a packet is an atomic step. -/
def isAtomic (b : PacketBody) : Bool :=
  match b with
  | .atomic _ _ _ _ _ => true
  | _ => false

/-- The first address that a packet writes, for a failure (R372). -/
def packetAddr (p : Packet) : Word := (packetBytes p.body).1.headD 0

/-- A line's packet that waited behind another of its round, rank word and range leaves (R371). -/
def State.sendBehind (s : State) (f : Flight) : State :=
  match s.flights.find? (fun x =>
      x.state == .held && x.packet.srcRound == f.packet.srcRound && x.packet.rankWord == f.packet.rankWord && x.range == f.range) with
  | none => s
  | some x => s.setFlight { x with state := .sent, lastSent := s.now, packet := { x.packet with sent := s.now } }

/-- The counts of what another package answers (R375): a rank that comes here from it keeps the epochs of this package's rounds. -/
def State.countAway (s : State) (p : Packet) (cause : Nat) : State :=
  if p.dstPkg == s.package.number then s
  else
    match p.body with
    | .store _ epoch true => if cause = 0x82 then s else s.setPackage (s.package.settle p epoch cause)
    | .flag _ _ epoch _ => s.setPackage (s.package.dropCount p epoch)
    | _ => s

/-- The sender's side of an acknowledgement, a failure reply or a timeout (R362, R369, R372, R375), with cause 0 for success and 0x82 for
a timeout: the counter falls; a remote access has a lane's reply; the first failure of another packet is kept; and a line that waited
behind it leaves. -/
def State.answered (s : State) (f : Flight) (cause : Nat) (data : List Byte) : State :=
  let s1 := (s.dropFlight f.key).sendBehind f
  match s1.rounds[f.packet.srcRound]? with
  | none => s1
  | some r =>
    let r1 := if (flagOf f.packet).isSome then r.modEpoch f.packet.rankWord (fun e => { e with unacked := e.unacked - 1 }) else r
    let r2 : Round := if f.counted then { r1 with sysCtr := r1.sysCtr - 1 } else r1
    (s1.countAway f.packet cause).setRoundAt f.packet.srcRound
      (if isRequest f.packet.body then
        { r2 with replies := r2.replies ++ [{ lane := f.lane, cause := if cause = 0 then none else some cause
                                              apply := cause == 0x82 && isAtomic f.packet.body
                                              data := data.take (packetBytes f.packet.body).1.length }] }
       else if cause = 0 then r2
       else { r2 with kept := r2.kept.or (some (KeptFailure.mk f.packet.rankWord (packetAddr f.packet) (if cause = 0x82 then 0 else cause) (cause == 0x82))) })

/-- The bytes that a settled packet has obtained, in order. -/
def Flight.data (f : Flight) : List Byte := (List.range f.got.length).map (fun i => ((f.got.find? (fun x => x.1 == i)).map (fun x => x.2)).getD 0)

/-- An answer to one of this package's packets: what it came to here, or what another package answers over ready ports (R361, R392). A
timeout is no answer. -/
def State.answerOf (s : State) (f : Flight) (outside : ExtData) : Option (Nat × List Byte) :=
  match f.state with
  | .settled c => some (c, f.data)
  | .sent =>
    if f.packet.dstPkg == s.package.number || !(s.reaches f.ports f.packet.dstPkg && s.hears) then none
    else
      match outside with
      | .none => none
      | .bytes l => some (0, l)
      | .fail c => if c = 0x82 then none else some (c, [])
  | _ => none

/-- FABRIC_ACK_ARRIVE (R369, R372, R392): the answer to a packet that has settled on this package, or another package's answer. -/
def execFabricAckArrive (packet : Nat) (outside : ExtData) (s : State) : Res :=
  match s.flights.find? (fun f => f.key == packet && s.own f.packet) with
  | none => .next s
  | some f =>
    match s.answerOf f outside with
    | none => .next s
    | some (c, data) => .next (s.answered f c data)

/-- What one lane's reply from another package says. -/
def Reply.answer (x : Reply) : ExtData :=
  match x.cause with
  | some c => .fail c
  | none => .bytes x.data

/-- Lanes of the remote access of a round receive replies (R369): those that another package gives, and those settled here. -/
def State.deliverReplies (s : State) (round : Nat) (ok : Flight → Bool) (outside : List Reply) : State :=
  (s.flights.filter (fun f => s.own f.packet && f.packet.srcRound == round && isRequest f.packet.body && ok f)).foldl (fun s f =>
    match s.answerOf f (((outside.find? (fun x => x.lane == f.lane)).map Reply.answer).getD .none) with
    | none => s
    | some (c, data) => s.answered f c data) s

/-- REMOTE_REPLY_ARRIVE (R369): replies for lanes of the remote access at which a round waits; the instruction then issues again. -/
def execRemoteReplyArrive (round : Nat) (outside : List Reply) (s : State) : Res := .next (s.deliverReplies round (fun _ => true) outside)

/-- A packet that comes in over the fibre of package `via`, its sender or a relay (R361 to R363, R392): one for this package is kept until it
takes effect, unless it is a duplicate or late; an answer reaches the packet that it answers; one for a third package, straight from its
sender, is kept for its phase where its space allows. DEDUCED: log entry 56. -/
def State.receive (s : State) (p : Packet) (via : Nat) : State :=
  if s.own p || !s.package.domain.contains p.srcPkg || !s.linked via || !s.fresh p then s
  else if p.dstPkg == s.package.number then
    match p.body with
    | .ack packet c =>
      match s.flights.find? (fun f => f.key == packet && s.own f.packet && f.packet.dstPkg == p.srcPkg && f.state == .sent) with
      | none => s
      | some f => if c = 0x82 || !(s.reaches f.ports f.packet.dstPkg && s.hears) then s else s.answered f c []
    | .reply round lanes => s.deliverReplies round (fun f => f.packet.dstPkg == p.srcPkg) lanes
    | _ =>
      if (s.die p.dstDie).applied.any (fun a => a.1 == p.srcPkg && a.2.1 == p.id)
          || s.flights.any (fun f => f.packet.srcPkg == p.srcPkg && f.packet.id == p.id) then s
      else
        { s with
          flights := s.flights ++ [{ key := s.nextId, packet := p, state := .sent, counted := false, range := noRange, lastSent := s.now
                                     ports := 0, lane := 0, todo := [], got := [] }]
          nextId := s.nextId + 1 }
  else if via == p.srcPkg && s.package.domain.contains p.dstPkg
      && (s.package.relay.filter (fun q => q.dstPkg == p.dstPkg)).foldl (fun acc q => acc + packetSize q) (packetSize p) ≤ relaySpace then
    { s with package := { s.package with relay := s.package.relay ++ [p] } }
  else s

/-- PACKET_ARRIVE (R362): a packet that comes in from another package, or one held here that takes effect at its target. -/
def execPacketArrive (packet : PacketIn) (s : State) : Res :=
  match packet with
  | .outside p via => .next (s.receive p via)
  | .queued key units =>
    match s.flights.find? (fun f => f.key == key) with
    | none => .next s
    | some f => .next (s.landFlight f units)

/-- PACKET_RETRANSMIT (R362): 36 µs after it was sent, the sender sends an unacknowledged packet again. -/
def execPacketRetransmit (packet : Nat) (s : State) : Res :=
  .next { s with flights := s.flights.map (fun f =>
    if f.key == packet && s.own f.packet && f.state != .held && decide (f.lastSent + s.micros 36 ≤ s.now) then { f with lastSent := s.now }
    else f) }

/-- FABRIC_TIMEOUT (R362, R375): 1 ms after its first sending an unacknowledged packet fails at its sender. What of it had not taken effect
never does; a flag that has not been written has failed. A packet of another package is then discarded. DEDUCED: log entry 52. -/
def execFabricTimeout (packet : Nat) (s : State) : Res :=
  match s.flights.find? (fun f => f.key == packet) with
  | none => .next s
  | some f =>
    if f.state == .held || s.fresh f.packet then .next s
    else
      let s1 :=
        match flagOf f.packet with
        | none => s
        | some (_, _, epoch, _) =>
          if f.packet.dstPkg != s.package.number then s
          else
            match f.state with
            | .settled _ => s
            | _ => s.closeEpoch f.packet epoch
      let s2 := if s.own f.packet then s1.answered f 0x82 [] else s1.dropFlight f.key
      .next (if f.packet.dstPkg == s.package.number then s2.flushFlags f.packet.dstDie else s2)

/-- HELD_FLAG_DISCARD (R362, R375): 2 ms after its first sending a flag that has not been written is discarded; it has failed. One of
another package may never have come here. DEDUCED: log entry 52. -/
def execHeldFlagDiscard (flag : PacketIn) (s : State) : Res :=
  let late (p : Packet) : Bool := decide (p.sent + s.micros 2000 ≤ s.now)
  match flag with
  | .queued key _ =>
    match (List.range 6).findSome? (fun d => ((s.die d).held.find? (fun h => h.key == key && late h.packet)).map (fun h => (d, h))) with
    | none => .next s
    | some (d, h) =>
      let s1 := s.closeFlag d h
      .next ((if s.own h.packet then s1 else s1.dropFlight key).flushFlags d)
  | .outside p _ =>
    match flagOf p with
    | none => .next s
    | some (_, _, epoch, _) =>
      let d := s.die p.dstDie
      if s.own p || p.dstPkg != s.package.number || !late p || d.applied.any (fun a => a.1 == p.srcPkg && a.2.1 == p.id)
          || d.held.any (fun h => h.packet.srcPkg == p.srcPkg && h.packet.id == p.id) then .next s
      else .next ((s.closeEpoch p epoch).flushFlags p.dstDie)

/-- RELAY_FORWARD (R361, R363): in its own phase toward the destination a relayed packet leaves. Packets of different senders may have one
number. -/
def execRelayForward (packet : Nat) (s : State) : Res :=
  match s.package.relay.find? (fun p =>
      p.id == packet && Nat.xor s.package.number p.dstPkg % 8 == s.package.phase && s.linked p.dstPkg) with
  | none => .next s
  | some p => .next (s.setPackage { s.package with relay := s.package.relay.erase p })

/-- WC_LINE_AGEING (R371): the round's ageing time has passed since the first write into the line. -/
def execWcLineAgeing (line : Nat) (s : State) : Res :=
  match s.lines.find? (fun x => x.id == line) with
  | none => .next s
  | some x =>
    if x.first + s.micros ((s.rounds[x.round]?.map (fun r => r.ageing)).getD 4) ≤ s.now then .next (s.drainLine x) else .next s

/-- Whether a round belongs to a team of a partition. -/
def State.roundIn (s : State) (n part : Nat) : Bool := (s.rounds[n]?.map (fun r => (s.teamOf r).part == part)).getD false

/-- Whether an operation of a partition's job is in flight (R367): a fabric instruction under way, a packet of its rounds or for its dies, a
collective, or a Courier segment. -/
def State.jobBusy (s : State) (part job : Nat) : Bool :=
  s.rounds.any (fun r => (s.teamOf r).part == part && r.remote.any (fun x => bits x.2.1 63 24 == 0 && jobOfWord x.2.1 == job))
    || s.flights.any (fun f => f.packet.job == job
      && (if s.own f.packet then s.roundIn f.packet.srcRound part else (s.die f.packet.dstDie).part == some part))
    || s.colls.any (fun c => c.part == part && c.table == job && (c.state == .waiting || c.state == .running))
    || s.jobs.zipIdx.any (fun j => j.1.part == part && j.1.table == job && j.1.state.busy && s.inFlight j.2)

/-- Copies physical bytes: from, to and length (R367 step 3). -/
def State.movePhysical (s : State) (x : Nat × Nat × Nat) : State :=
  s.writeBytes ((List.range x.2.2).map (fun i => (x.2.1 + i, Memory.read s.mem (x.1 + i))))

/-- Whether the HBM channels of a move are ready (R338). -/
def State.moveReady (s : State) (x : Nat × Nat × Nat) : Bool :=
  (List.range x.2.2).all (fun i => s.channelReady (x.1 + i) && s.channelReady (x.2.1 + i))

/-- What the rounds of a partition have outstanding in memory takes effect. -/
def State.settlePart (s : State) (part : Nat) : State :=
  (s.performAll (fun _ r a => !a.spad && (s.teamOf r).part == part)).drainStores (fun e => s.roundIn e.round part)

/-- Writes an entry of a job table, if it is one that RTABW accepts (R327, R367). -/
def State.writeEntry (s : State) (part job : Nat) (e : Nat × Word) : State :=
  if decide (e.1 < 6144) && entryOk e.2 then
    let p := s.part part
    (s.setPart { p with jobs := SMap.set p.jobs (6144 * job + e.1) e.2 }).setPackage (s.package.adopt job e.1 (p.entry job e.1) e.2)
  else s

/-- RANK_MIGRATION (R367): the job's fabric instructions wait from now on and its lines drain; once nothing of the job is in flight, memory
moves, as soon as its channels are ready (R338), the tables take the entries that RTABW would accept, and issue goes on. DEDUCED: log entry
55. -/
def execRankMigration (partition job : Nat) (entries : Migration) (s : State) : Res :=
  let p := s.part partition
  if 256 ≤ job || p.num != partition then .next s
  else
    let s1 := (s.setPart { p with frozen := if p.frozen.contains job then p.frozen else p.frozen ++ [job] }).drainLines (fun x =>
      jobOfWord x.rankWord == job && s.roundIn x.round partition)
    if s1.jobBusy partition job || !entries.moves.all s1.moveReady then .next s1
    else
      let s2 := entries.moves.foldl State.movePhysical (if entries.moves.isEmpty then s1 else s1.settlePart partition)
      let s3 := entries.entries.foldl (fun s e => s.writeEntry partition job e) s2
      let q := s3.part partition
      .next (s3.setPart { q with frozen := q.frozen.filter (fun j => j != job) })

end Sys2Proof.Machine
end

