-- ==== Sys2Proof/Machine/Collective.lean ====
section
/-! DEFINITION. Collectives (R378 to R383), opcodes 0x287 and 0x288, and the events of the collective engine. -/
namespace Sys2Proof.Machine

/-- A collective descriptor (R378); `zeros` says that its zero bytes are zero. -/
structure CollDesc where
  collid : Nat
  etype : Nat
  job : Nat
  n : Nat
  list : Word
  src : Word
  dst : Word
  count : Nat
  root : Nat
  zeros : Bool
  deriving DecidableEq, Repr

/-- A descriptor from its 64 bytes (R378). -/
def readColl (b : List Byte) : CollDesc :=
  let w (o : Nat) : Word := BitVec.ofNat 64 (bytesAt b o 8)
  { collid := bytesAt b 0 4, etype := bytesAt b 4 1, job := bytesAt b 5 1, n := bytesAt b 6 2, list := w 8, src := w 16, dst := w 24
    count := bytesAt b 32 8, root := bytesAt b 40 2, zeros := bytesAt b 42 22 == 0 }

/-- Reason 1 (R380). Kinds are 0 .rs, 1 .ag, 2 .ar and 3 .bc (R379). -/
def CollDesc.formOk (d : CollDesc) (kind : Nat) : Bool :=
  let e := collBytes d.etype
  (collType d.etype).isSome && d.collid != 0 && decide (1 ≤ d.n) && decide (d.n ≤ 6144) && d.list.toNat % 8 == 0
    && d.src.toNat % e == 0 && d.dst.toNat % e == 0 && decide (1 ≤ d.count) && decide (d.count ≤ 2 ^ 32) && d.zeros
    && (if kind = 3 then decide (d.root < d.n) else d.root == 0)

/-- Whether a list rises strictly. -/
def ascending : List Nat → Bool
  | a :: b :: rest => decide (a < b) && ascending (b :: rest)
  | _ => true

/-- Whether a die's collective engine is ready (R338). -/
def State.collReady (s : State) (die : Nat) : Bool := s.isReady 12 (8 + die)

/-- Unfinished collectives of round n (R380). -/
def State.unfinishedColls (s : State) (n : Nat) : Nat := (s.colls.filter (fun c => c.round == n && !c.state.finished)).length

/-- COLL (R380). DEDUCED: log entry 47. -/
def execColl (f : RForm) (s : State) : Res :=
  let fs : List Field := [(f.a, false)]
  let kind := f.cmp.toNat % 4
  let bfp4 := f.cmp.getLsbD 2
  begin s f.g fs (regNames f.d 1) (fun s r m xs =>
    if m = 0 then finish s s fs (fun q => q)
    else if !s.collReady (s.dieOf r) || 8 ≤ s.unfinishedColls s.cur then stall s r .engine
    else
      let a := lowValue m xs 0
      let mismatch (s : State) (r : Round) (reason : Nat) : Res := takeTrap s r 0x84 (BitVec.ofNat 64 reason) a 0 m
      if a.toNat % 64 != 0 then mismatch s r 1
      else
        withLoad s r m a 64 (fun s1 r1 b1 =>
          let d := readColl b1
          let word (x : Nat) : Word := BitVec.ofNat 64 (2 ^ 16 * d.job + x)
          if !d.formOk kind then mismatch s1 r1 1
          else
            withoutMigration s1 r1 [word 0]
              (withLoad s1 r1 m d.list (2 * d.n) (fun s2 r2 b2 =>
                let p := s2.partOf r2
                let ranks := (List.range d.n).map (fun i => bytesAt b2 (2 * i) 2)
                let own := p.rankOf d.job s2.package.number (s2.dieOf r2)
                match ranks.find? (fun x => !(decide (x < 6144) && p.resolves (word x))) with
                | some x => takeTrap s2 r2 0x80 (word x) 0 0 m
                | none =>
                  if !ascending ranks || !ranks.any (fun x => some x == own) then mismatch s2 r2 3
                  else if bfp4 && !(d.etype == 1 && d.count % 32 == 0) then mismatch s2 r2 4
                  else
                    let n := (r2.clast + 1) % 2 ^ 16
                    let c : Coll :=
                      { id := s2.nextId, round := s2.cur, num := n, part := (s2.teamOf r2).part, die := s2.dieOf r2, rank := own.getD 0, kind := kind
                        bfp4 := bfp4, collid := d.collid, etype := d.etype, table := d.job, ranks := ranks
                        entries := ranks.map (fun x => p.named (word x)), owed := [], src := d.src, dst := d.dst, count := d.count
                        root := d.root, state := .waiting, desc := a, cause := 0, addr := 0, remote := 0, tcause := 0, read := []
                        out := none, reported := false }
                    finish s ({ s2 with colls := s2.colls ++ [c], nextId := s2.nextId + 1 } : State) fs (fun q =>
                      writeOperand m f.d (tab (fun _ => BitVec.ofNat 64 n)) { q with clast := n })))))

/-- COLLW (R383), which works as CRWAIT does (R354); it is a fence from FB to every path. -/
def execCollw (f : RForm) (s : State) : Res :=
  let fs : List Field := [(f.a, false)]
  begin s f.g fs [] (fun s r m xs =>
    let d := backFrom r.clast (laneOf (arg xs 0) 0).toNat
    let e := s.shows s.cur [4] otherPaths
    let named := s.colls.zipIdx.filter (fun x => x.1.round == s.cur && decide (d ≤ backFrom r.clast x.1.num))
    if d < 8 && named.any (fun x => !x.1.state.finished) then stall s r .collective
    else
      let bad := named.filter (fun x => x.1.state == .fault && !x.1.reported)
      match bad.foldl (fun (acc : Option (Coll × Nat)) x =>
          match acc with
          | none => some x
          | some y => if backFrom r.clast y.1.num < backFrom r.clast x.1.num then some x else some y) none with
      | none => finish s e fs (fun q => q)
      | some (c, i) =>
        let s1 : State := { e with colls := e.colls.set i { c with reported := true } }
        onRound s1 (fun r =>
        if c.cause = 0x84 then takeTrap s1 r 0x84 Config.mismatchReason c.desc 0 m
        else if c.cause = 0x81 || c.cause = 0x82 then takeTrap s1 r c.cause c.remote c.addr (BitVec.ofNat 64 c.tcause) m
        else takeTrap s1 r c.cause (BitVec.ofNat 64 c.num) c.addr 0 m))

/-- COLLECTIVE_START (R380): a ready engine runs 16 collectives at once. -/
def execCollectiveStart (coll : Nat) (s : State) : Res :=
  match s.colls[coll]? with
  | none => .next s
  | some c =>
    if c.state = .waiting && s.collReady c.die
        && decide ((s.colls.filter (fun x => x.die == c.die && x.state == .running)).length < 16) then
      .next { s with colls := s.colls.set coll { c with state := .running } }
    else .next s

/-- What takes part at a position of the list: a collective of this package, another package's participant, a die that refuses (R365), or
nobody yet. -/
inductive Peer where
  | here (i : Nat) (c : Coll)
  | there (x : CollIn)
  | refused
  | absent
  deriving DecidableEq, Repr

/-- Whether a collective is another one's under the same job and collid (R380). -/
def Coll.matched (c d : Coll) : Bool := c.table == d.table && c.collid == d.collid

/-- Whether the collectives of two dies of this package may take part in one: their dies belong to one partition, or the table of each
maps some rank of the job to the other (R336, R365). -/
def State.joined (s : State) (c d : Coll) : Bool :=
  c.part == d.part || (((s.part d.part).rankOf c.table s.package.number c.die).isSome && ((s.part c.part).rankOf d.table s.package.number d.die).isSome)

/-- Whether the die of this package that an entry names refuses a collective: it is in no partition, or in another one whose table of that
job does not map some rank to the collective's die (R336, R365). -/
def State.refusesColl (s : State) (c : Coll) (e : Word) : Bool :=
  match (s.die (entryDie e)).part with
  | none => true
  | some q => q != c.part && ((s.part q).rankOf c.table s.package.number c.die).isNone

/-- What another package's participant brings can come in over ready ports, unless it is that the participant cannot be reached (R361,
R364, R383). -/
def State.collHeard (s : State) (e : Word) (x : CollIn) : Bool :=
  x.cause == some 0x82 || (s.reaches (entryPorts e) (entryPkg e) && s.hears)

/-- The participant of a rank whose entry is e (R364, R380): participants match by job and collid. -/
def State.peer (s : State) (c : Coll) (outside : List CollIn) (rank : Nat) (e : Word) : Peer :=
  if entryPkg e == s.package.number then
    match s.colls.zipIdx.find? (fun x => x.1.die == entryDie e && x.1.matched c && s.joined c x.1 && x.1.state == .running) with
    | some (x, i) => .here i x
    | none => if s.refusesColl c e then .refused else .absent
  else
    match outside.find? (fun x => x.rank == rank && s.collHeard e x) with
    | some x => .there x
    | none => .absent

/-- The participants of a collective, each with its position in the list. -/
def State.peers (s : State) (c : Coll) (outside : List CollIn) : List (Peer × Nat) :=
  ((c.ranks.zip c.entries).map (fun x => s.peer c outside x.1 x.2)).zipIdx

/-- Whether two participants' collectives agree (R380). -/
def Coll.agrees (c d : Coll) : Bool :=
  c.kind == d.kind && c.bfp4 == d.bfp4 && c.etype == d.etype && c.ranks == d.ranks && c.count == d.count && c.root == d.root

/-- The bytes of a participant on this package (R381, R383): as the collective has read them, else as they stand now, from its own
partition as a user. -/
def State.collSource (s : State) (c : Coll) (i : Nat) : Gathered Byte :=
  gather ((List.range (c.sourceLength i)).map (fun k =>
    match SMap.find c.read k with
    | some b => .ok b
    | none => s.userByte c.part (c.src + BitVec.ofNat 64 k)))

/-- The state as a collective reads bytes of its own source, by offset: after what a fence has shown to its round's FB path, and after what
the round has read of them (R284, R383). -/
def State.readyColl (s : State) (c : Coll) (offsets : List Nat) : State :=
  s.readyReads c.round 4 c.id false (offsets.filterMap (fun k => s.userAt c.part (c.src + BitVec.ofNat 64 k)))

/-- The offsets in a participant's source that it has not read. -/
def Coll.unread (c : Coll) (i : Nat) : List Nat := (List.range (c.sourceLength i)).filter (fun k => (SMap.find c.read k).isNone)

/-- A collective writes bytes, after what a fence has shown to its round's FB path (R383). -/
def State.writeColl (s : State) (c : Coll) (cells : List (Nat × Byte)) : State :=
  (s.settleFor c.round 4 false (cells.map (fun x => x.1))).writeBytes cells

/-- The destination of participant i (R381): first byte and length. -/
def Coll.destRange (c : Coll) (i : Nat) : Nat :=
  if c.kind = 0 then (c.part_ i).2 * collBytes c.etype else c.count * collBytes c.etype

/-- The places of a participant's destination bytes. -/
def State.collDest (s : State) (c : Coll) (i : Nat) : Gathered Nat :=
  gather ((List.range (c.destRange i)).map (fun k => s.userDest c.part (c.dst + BitVec.ofNat 64 k)))

/-- The elements of a source as numbers (R381): BF16 widened and packed elements decoded to FP32, a NaN canonical. -/
def Coll.elements (c : Coll) (b : List Byte) : List Nat :=
  let e := collBytes c.etype
  if c.bfp4 then
    (List.range c.count).map (fun k =>
      Fmt.fp32.round .rne false (blockValue 0x14 (bytesAt b (c.count / 2 + k / 32) 1) (bytesAt b (k / 2) 1 / 16 ^ (k % 2) % 16)).toX)
  else
    (List.range c.count).map (fun k =>
      let x := bytesAt b (e * k) e
      match (collType c.etype).bind (fun t => t.2) with
      | none => x
      | some f => if f = .fp64 then fpCvt .fp64 .fp64 .rne false x else fpCvt f .fp32 .rne false x)

/-- The addition of R381. -/
def Coll.add (c : Coll) (u v : Nat) : Nat :=
  match collType c.etype with
  | some (8, none) => (u + v) % 2 ^ 64
  | some (_, none) => (u + v) % 2 ^ 32
  | some (8, some _) => fpAdd .fp64 .rne false u v
  | _ => fpAdd .fp32 .rne false u v

/-- The sum in ascending rank order (R381). -/
def Coll.sum (c : Coll) (sources : List (List Byte)) : List Nat :=
  match sources.map c.elements with
  | [] => []
  | x :: xs =>
    let y := xs.foldl (fun acc x => (acc.zip x).map (fun p => c.add p.1 p.2)) x
    if c.etype = 3 && !c.bfp4 then y.map (fpCvt .fp32 .bf16 .rne false) else y

/-- What participant i receives (R381). -/
def Coll.result (c : Coll) (sources : List (List Byte)) (i : Nat) : List Byte :=
  let e := collBytes c.etype
  match c.kind with
  | 0 => (((c.sum sources).drop (c.part_ i).1).take (c.part_ i).2).flatMap (toBytes e)
  | 1 => sources.flatten
  | 2 => (c.sum sources).flatMap (toBytes e)
  | _ => sources.getD c.root []

/-- A failure of a collective: the participant's position, its cause and its address. -/
structure CollFail where
  pos : Nat
  cause : Nat
  addr : Word
  deriving DecidableEq, Repr

/-- Ends every collective of this package that takes part with a failure: its own cause, REMOTE_FAULT or FABRIC_TIMEOUT (R383). -/
def State.stopColls (s : State) (peers : List (Peer × Nat)) (c : Coll) (f : CollFail) : State :=
  { s with colls := peers.foldl (fun (l : List Coll) p =>
      match p.1 with
      | .here i x =>
        if p.2 = f.pos then l.set i { x with state := .fault, cause := f.cause, addr := f.addr }
        else
          l.set i { x with
            state := .fault, cause := if f.cause = 0x82 then 0x82 else 0x81, addr := f.addr
            remote := BitVec.ofNat 64 (2 ^ 16 * c.table + c.ranks.getD f.pos 0), tcause := if f.cause = 0x82 then 0 else f.cause }
      | _ => l) s.colls }

/-- Writes the listed bytes of which the words are chosen (R383): in a stopped collective each word holds its old value or its
result. -/
def State.writeChosen (s : State) (cells : List (Nat × Byte)) : State :=
  { s.writeBytes (cells.filter (fun x => Config.wordWritten (s.free + x.1 / 8 % 2 ^ 34))) with free := s.free + 2 ^ 34 }

/-- Whether one collective lists the die of another (R380). -/
def Coll.lists (c : Coll) (pkg : Nat) (d : Coll) : Bool := c.entries.any (fun e => entryPkg e == pkg && entryDie e == d.die)

/-- The unfinished collectives of this package that belong together (R380): those under one job and collid that list each other's dies,
directly or through others, by their positions. -/
def State.related (s : State) : Nat → List Nat → List Nat
  | 0, is => is
  | n + 1, is =>
    let joins (j : Nat) : Bool :=
      match s.colls[j]? with
      | none => false
      | some d =>
        !d.state.finished && !is.contains j && is.any (fun i =>
          match s.colls[i]? with
          | none => false
          | some c => c.matched d && s.joined c d && (c.lists s.package.number d || d.lists s.package.number c))
    match (List.range s.colls.length).filter joins with
    | [] => is
    | js => State.related s n (is ++ js)

/-- The collectives that belong together with the one at position i. -/
def State.together (s : State) (i : Nat) : List Nat := s.related s.colls.length [i]

/-- Whether participants of a collective differ (R380): here, elsewhere, or in one that has ended so before this die issued its own. -/
def State.mismatched (s : State) (i : Nat) (c : Coll) (peers : List (Peer × Nat)) : Bool :=
  (s.together i).any (fun j => (s.colls[j]?.map (fun d => !d.agrees c)).getD false)
    || peers.any (fun p => match p.1 with | .there x => !x.agrees | _ => false)
    || s.colls.any (fun d => d.state == .fault && d.matched c && s.joined d c && d.owed.contains c.die)

/-- Ends every collective that belongs together with the one at position i with COLL_MISMATCH (R380). -/
def State.mismatchColls (s : State) (i : Nat) (c : Coll) : State :=
  let is := s.together i
  let mine := is.filterMap (fun j => s.colls[j]?)
  let dies := mine.map (fun d => d.die)
  let listed := mine.flatMap (fun d => (d.entries.filter (fun e => entryPkg e == s.package.number)).map entryDie)
  { s with colls := s.colls.zipIdx.map (fun x =>
      if is.contains x.2 then { x.1 with state := .fault, cause := 0x84, owed := listed.filter (fun d => !dies.contains d) }
      else if x.1.matched c && s.joined x.1 c then { x.1 with owed := x.1.owed.filter (fun d => !dies.contains d) }
      else x.1) }

/-- What a participant's accesses come to: its source bytes and the places of its destination; another package's has no place here. -/
structure CollPart where
  pos : Nat
  here : Option (Nat × Coll)
  source : Gathered Byte
  dest : Gathered Nat

/-- The accesses of a participant. -/
def State.collPart (s : State) (p : Peer × Nat) : CollPart :=
  match p.1 with
  | .here i x => { pos := p.2, here := some (i, x), source := s.collSource x p.2, dest := s.collDest x p.2 }
  | .there x => { pos := p.2, here := none, source := .ok x.data, dest := .ok [] }
  | _ => { pos := p.2, here := none, source := .ok [], dest := .ok [] }

/-- Asks for service of pages for the collective at position i (R383, R393). -/
def State.collService (s : State) (i : Nat) (x : Coll) (pages : List Word) (va : Word) : State :=
  let r := s.rounds[x.round]?
  (s.requestService { core := 0, part := x.part, user := true, round := some x.round } (.collective i) pages va x.die
    (r.bind (fun q => (s.teamOf q).node)) ((r.map (fun q => (s.teamOf q).tix)).getD 0)).1

/-- What each participant of this package receives, where every source and every destination can be reached: its position, the collective,
and its bytes where they go (R381). -/
def collCells (parts : List CollPart) : List (Nat × Coll × List (Nat × Byte)) :=
  let sources := parts.map (fun g => match g.source with | .ok b => b | _ => [])
  parts.filterMap (fun g =>
    match g.here, g.dest with
    | some (i, x), .ok pas => some (i, x, pas.zip (x.result sources g.pos))
    | _, _ => none)

/-- The results of a collective whose participants are all there (R381, R383): a source that cannot be read stops it; missing pages are
asked for, one participant at a time; a destination that cannot be written stops it among its writes. -/
def State.runColl (s : State) (c : Coll) (peers : List (Peer × Nat)) : State :=
  let parts := peers.map s.collPart
  let fail (g : CollPart) (x : Option (Word × Nat)) : Option CollFail := x.map (fun y => { pos := g.pos, cause := y.2, addr := y.1 })
  match parts.findSome? (fun g => fail g (match g.source with | .fault va k => some (va, k) | _ => none)) with
  | some f => s.stopColls peers c f
  | none =>
    match parts.findSome? (fun g =>
        match g.here, g.source, g.dest with
        | some (i, x), .missing ps va, _ => some (i, x, ps, va)
        | some (i, x), _, .missing ps va => some (i, x, ps, va)
        | _, _, _ => none) with
    | some (i, x, pages, va) => s.collService i x pages va
    | none =>
      if parts.any (fun g => match g.source, g.dest with | .held, _ => true | _, .held => true | _, _ => false) then s
      else
        let cells := collCells parts
        match parts.findSome? (fun g => fail g (match g.dest with | .fault va k => some (va, k) | _ => none)) with
        | some f => (s.writeChosen (cells.flatMap (fun x => x.2.2))).stopColls peers c f
        | none =>
          let s1 := cells.foldl (fun s x => s.writeColl x.2.1 x.2.2) s
          { s1 with colls := cells.foldl (fun (l : List Coll) x => l.set x.1 { x.2.1 with state := .complete, read := [] }) s1.colls }

/-- The participants of a running collective where it can go on: it has not computed its results, none of them waits for service, they
agree, and all are there and well. -/
def State.ready? (s : State) (coll : Nat) (c : Coll) (outside : List CollIn) : Option (List (Peer × Nat)) :=
  let peers := s.peers c outside
  let waits := s.services.any (fun v => match v.work with
    | .collective k => peers.any (fun p => match p.1 with | .here i _ => i == k | _ => false)
    | _ => false)
  if c.state != .running || c.out.isSome || waits || s.mismatched coll c peers then none
  else if peers.all (fun p => match p.1 with | .here _ _ => true | .there x => x.cause.isNone | _ => false) then some peers
  else none

/-- A collective reads words of its own source, each at one instant (R383). -/
def State.readCollWords (s : State) (coll : Nat) (offsets : List Nat) : State :=
  match s.colls[coll]? with
  | none => s
  | some c =>
    if c.state != .running || c.out.isSome then s
    else
      let s1 := s.readyColl c offsets
      (s1.colls[coll]?).elim s1 (fun c => { s1 with colls := s1.colls.set coll (s1.readColl c offsets) })

/-- Once every source word of every participant has been read, every participant of this package has its results, which it has still to
write (R381, R383). -/
def State.computeColl (s : State) (coll : Nat) (outside : List CollIn) : State :=
  match s.colls[coll]? with
  | none => s
  | some c =>
    match s.ready? coll c outside with
    | none => s
    | some peers =>
      let parts := peers.map s.collPart
      if peers.any (fun p => match p.1 with | .here _ x => !(x.unread p.2).isEmpty | _ => false)
          || parts.any (fun g => match g.dest with | .ok _ => false | _ => true) then s
      else
        { s with colls := (collCells parts).foldl (fun (l : List Coll) x => l.set x.1 { x.2.1 with read := [], out := some x.2.2 }) s.colls }

/-- A collective writes the words of its results that hold some bytes, each at one instant (R383). -/
def State.writeCollWords (s : State) (coll : Nat) (addrs : List Nat) : State :=
  match s.colls[coll]?, s.colls[coll]?.bind (fun c => c.out) with
  | some c, some out =>
    let goes (x : Nat × Byte) : Bool := addrs.any (fun a => a / 8 == x.1 / 8)
    let s1 := s.writeColl c (out.filter goes)
    (s1.colls[coll]?).elim s1 (fun c => { s1 with colls := s1.colls.set coll { c with out := some (out.filter (fun x => !goes x)) } })
  | _, _ => s

/-- COLLECTIVE_COMPLETE (R380, R381, R383): a collective that has its results writes what remains of them. Else, once every participant takes
part, all that is left to read is read, and all results are written, or the collective stops with a failure, at all of them in one step; a
mismatch ends it as soon as it is seen. -/
def execCollectiveComplete (coll : Nat) (outside : List CollIn) (s : State) : Res :=
  match s.colls[coll]? with
  | none => .next s
  | some c =>
    match c.out with
    | some out =>
      if c.state != .running then .next s
      else
        let s1 := s.writeColl c out
        .next { s1 with colls := s1.colls.set coll { c with state := .complete, out := none } }
    | none =>
      let peers := s.peers c outside
      let waits := s.services.any (fun v => match v.work with
        | .collective k => peers.any (fun p => match p.1 with | .here i _ => i == k | _ => false)
        | _ => false)
      if c.state != .running || waits then .next s
      else if s.mismatched coll c peers then .next (s.mismatchColls coll c)
      else
        -- a die that refuses
        match peers.find? (fun p => p.1 == .refused) with
        | some p => .next (s.stopColls peers c { pos := p.2, cause := 0x80, addr := 0 })
        | none =>
        if peers.any (fun p => p.1 == .absent) then .next s
        else
          -- what another package reports first: unreachable, or a failure of its own
          match peers.findSome? (fun p => match p.1 with | .there x => x.cause.map (fun k => CollFail.mk p.2 k x.addr) | _ => none) with
          | some f => .next (s.stopColls peers c f)
          | none =>
            let s1 := peers.foldl (fun s p => match p.1 with | .here _ x => s.readyColl x (x.unread p.2) | _ => s) s
            .next (s1.runColl c (s1.peers c outside))

/-- A participant's access whose service failed (R383, R393). -/
def State.failColl (s : State) (coll : Nat) (va : Word) : State :=
  match s.colls[coll]? with
  | none => s
  | some c =>
    if c.state == .running && c.out.isNone then s.stopColls (s.peers c []) c { pos := c.ranks.idxOf c.rank, cause := 0x60, addr := va } else s

end Sys2Proof.Machine
end

