-- ==== Sys2Proof/Machine/Cluster.lean ====
section
/-! DEFINITION. Gangs, exchange windows and the cluster barrier (R268 to R281), opcodes 0x223 to 0x226, and the events of the
exchange. -/
namespace Sys2Proof.Machine

def Window.reset : Window := { declared := false, base := 0, size := 0, bank := false }
def Gang.blank : Gang := { copyOf := none, node := 0, size := 1, parity := false, count := 0, swap := false, arrived := [], waiters := [] }
def Team.win (t : Team) (w : Nat) : Window := t.windows.getD w Window.reset
def State.gang (s : State) (g : Nat) : Gang := s.gangs.getD g Gang.blank
def State.setGang (s : State) (g : Nat) (x : Gang) : State := { s with gangs := s.gangs.set g x }

/-- The position of member j of a gang. -/
def State.memberTeam (s : State) (g j : Nat) : Option Nat :=
  (s.teams.zipIdx.find? (fun t => t.1.gang == g && t.1.member == j)).map (fun t => t.2)

/-- XWIN (R271): the change reaches the gang's window table as one event. DEDUCED: log entry 42. -/
def execXwin (f : RForm) (s : State) : Res :=
  let fs : List Field := [(f.a, false), (f.b, false), (f.c, false)]
  begin s f.g fs [] (fun s r m xs =>
    if m = 0 then finish s s fs (fun q => q)
    else if s.updates.any (fun u => u.team == r.team) then stall s r .exchange
    else
      let base := laneOf (arg xs 0) 0
      let size := laneOf (arg xs 1) 0
      let w := laneOf (arg xs 2) 0
      let t := s.teamOf r
      let n := size.toNat
      let b := base.toNat
      let meets (x : Window) : Bool := x.declared && decide (b < x.base + 2 * x.size) && decide (x.base < b + 2 * n)
      if 3 < w.toNat then xwinRange s r m (BitVec.ofNat 64 t.member) w base
      else if n != 0 && (n % 4096 != 0 || 262144 < n) then xwinRange s r m (BitVec.ofNat 64 t.member) w base
      else if n != 0 && b % 4096 != 0 then takeTrap s r 0x21 base 0 0 m
      else if n != 0 && t.spadSize < b + 2 * n then takeTrap s r 0x20 base 0 0 m
      else if n != 0 && ((t.win w.toNat).declared || t.windows.any meets) then xwinRange s r m (BitVec.ofNat 64 t.member) w base
      else
        finish s { s with
          updates := s.updates ++ [{ id := s.nextId, team := r.team, window := w.toNat, base := b, size := n }]
          nextId := s.nextId + 1 } fs (fun q => q))

/-- Whether an access, a copy, a pass or a drain of a team that was issued before may still write bytes lo to hi - 1 of its scratchpad. -/
def State.writesIn (s : State) (team lo hi : Nat) : Bool :=
  let meets (a n : Nat) : Bool := decide (a < hi) && decide (lo < a + n)
  s.rounds.any (fun q => q.team == team
    && (q.members.any (fun m => (m.work.targets (s.teamOf q)).any (fun x => x.kind == 1 && meets x.base.toNat x.len))
      || q.drain.any (fun d => d.1 == 1 && d.2.any (fun b => meets b.1 1))))

/-- Whether an access has a unit in bytes lo to hi - 1. -/
def Access.within (a : Access) (lo hi : Nat) : Bool := a.pieces.any (fun p => p.addrs.any (fun x => decide (lo ≤ x) && decide (x < hi)))

/-- WINDOW_TABLE_UPDATE (R271): after every exchange item in flight to the window has landed, the window is declared with a back
bank of zeros, or released. What the team has issued to the bytes that become shadow addresses comes before, so that only exchange stores
write the back bank (R270). DEDUCED: log entry 42. -/
def execWindowTableUpdate (update : Nat) (s : State) : Res :=
  match s.updates.find? (fun u => u.id == update) with
  | none => .next s
  | some u =>
    if s.items.any (fun i => i.team == u.team && i.window == u.window) then .next s
    else if s.updates.any (fun x => x.team == u.team && decide (x.id < u.id)) then .next s
    else if s.writesIn u.team (u.base + u.size) (u.base + 2 * u.size) then .next s
    else
      let s := s.performAll (fun _ q a => a.spad && q.team == u.team && a.within (u.base + u.size) (u.base + 2 * u.size))
      let t := s.teams.getD u.team Team.blank
      let t1 :=
        if u.size = 0 then { t with windows := t.windows.set u.window Window.reset }
        else
          { t with
            windows := t.windows.set u.window { declared := true, base := u.base, size := u.size, bank := false }
            spad := Memory.writeList t.spad (u.base + u.size) (List.replicate u.size 0) }
      .next ({ s with updates := s.updates.filter (fun x => x.id != u.id) }.setTeam u.team t1)

/-- The swap of one window (R270, R273): the banks exchange their places. -/
def swapWindow (t : Team) (w : Nat) : Team :=
  let x := t.win w
  if !x.declared then t
  else
    let front := Memory.readList t.spad x.base x.size
    let back := Memory.readList t.spad (x.base + x.size) x.size
    { t with
      spad := Memory.writeList (Memory.writeList t.spad x.base back) (x.base + x.size) front
      windows := t.windows.set w { x with bank := !x.bank } }

/-- The swap of every declared window of every team of a gang (R273), after the accesses behind the arrivals (R274). -/
def State.swapBanks (s0 : State) (g : Nat) : State :=
  let s := s0.performAll (fun _ q a => a.spad && a.released && (s0.teamOf q).gang == g
    && (s0.teamOf q).windows.any (fun w => w.declared && a.within w.base (w.base + 2 * w.size)))
  { s with teams := s.teams.map (fun t => if t.gang == g then (List.range 4).foldl swapWindow t else t) }

/-- u of R273. -/
def State.gangUnarrived (s : State) (g : Nat) (x : Gang) : Nat :=
  (s.rounds.zipIdx.filter (fun q => (s.teamOf q.1).gang == g && q.1.live != 0 && !x.arrived.contains q.2)).length

def Gang.cleared (x : Gang) : Gang := { x with count := 0, swap := false, arrived := [], waiters := [] }

/-- unsat of the cluster barrier (R252, R273). -/
def State.gangUnsat (s : State) (g : Nat) (x : Gang) : Bool := decide (x.arrived.length + s.gangUnarrived g x < x.count)

/-- The failure of a phase for its waiters (R252, R273). -/
def State.failGang (s : State) (g : Nat) : State :=
  let x := s.gang g
  let u := s.gangUnarrived g x
  x.waiters.foldl (fun s n =>
    s.parkAt n 0x51 (BitVec.ofNat 64 x.count) (BitVec.ofNat 64 x.arrived.length) (BitVec.ofNat 64 u)) (s.setGang g x.cleared)

/-- The test that R273 makes when a round of a gang loses its last live lane or is killed. -/
def State.testGang (s : State) (g : Nat) : State := if s.gangUnsat g (s.gang g) then s.failGang g else s

/-- BARRIER_COUNT of CBAR (R281): count given, phase count, swap flags. -/
def gangCount (s : State) (r : Round) (f : SForm) (c : Nat) (x : Gang) : Res :=
  takeTrap s r 0x50 (BitVec.ofNat 64 c) (BitVec.ofNat 64 x.count)
    (BitVec.ofNat 64 (f.bar.toNat % 2 + (if x.swap then 2 else 0))) (r.passing f.g)

/-- The arrival itself (R251, R273). -/
def arriveGang (s : State) (f : SForm) (c : Nat) : Res :=
  withRelease s 3 false 0 (fun s =>
    onRound s (fun r =>
      let g := (s.teamOf r).gang
      let x := s.gang g
      let y := { x with count := c, swap := f.bar.getLsbD 0, arrived := x.arrived ++ [s.cur] }
      if y.arrived.length = c then
        let s1 := if y.swap then s.swapBanks g else s
        finish s (s1.setGang g { y.cleared with parity := !y.parity }) [] (fun q => q)
      else
        let s1 := s.setGang g y
        if s1.gangUnsat g y then
          takeTrap (s1.failGang g) r 0x51 (BitVec.ofNat 64 y.count) (BitVec.ofNat 64 y.arrived.length)
            (BitVec.ofNat 64 (s1.gangUnarrived g y)) (r.passing f.g)
        else stall (s.setGang g { y with waiters := y.waiters ++ [s.cur] }) r .cluster))

/-- CBAR (R272 to R274): it always waits; its arrival waits until the round's exchange items have landed and its team's window
changes have taken effect. -/
def execCbar (f : SForm) (s : State) : Res :=
  onRound s (fun r =>
    let g := (s.teamOf r).gang
    let x := s.gang g
    let c := barCount s r f
    let held := x.waiters.contains s.cur
    if r.status == .waiting .cluster then
      if held then stall s r .cluster else finish s s [] (fun q => q)
    else if r.status == .waiting .clusterSecond && held then stall s r .clusterSecond
    else if s.countPending r f then stall s r .scoreboard
    else if c = 0 || 256 < c then gangCount s r f c x
    else if x.arrived.contains s.cur then
      stall (s.setGang g { x with waiters := x.waiters ++ [s.cur] }) r .clusterSecond
    else if x.count != 0 && (c != x.count || f.bar.getLsbD 0 != x.swap) then gangCount s r f c x
    else if s.items.any (fun i => i.round == s.cur) || s.updates.any (fun u => u.team == r.team) then stall s r .exchange
    else arriveGang s f c)

/-- An exchange target: lane, peer, window, offset. -/
structure Target where
  lane : Nat
  peer : Word
  win : Word
  off : Word
  deriving DecidableEq, Repr

/-- The failing lanes of a check over targets, with the trap of the lowest (R277, R394). -/
def checkTargets (s : State) (r : Round) (cause : Nat) (l : List Target) (ok : Target → Bool)
    (info : Target → Word × Word × Word) (k : Res) : Res :=
  match l.filter (fun t => !ok t) with
  | [] => k
  | b :: bs => takeTrap s r cause (info b).1 (info b).2.1 (info b).2.2 (maskOf (fun l => (b :: bs).any (fun x => x.lane == l)))

/-- Whether z bytes at an offset lie in a declared window of a peer (R277). -/
def windowHolds (s : State) (g z : Nat) (t : Target) : Bool :=
  match s.memberTeam g t.peer.toNat with
  | none => false
  | some n =>
    let w := (s.teams.getD n Team.blank).win t.win.toNat
    t.win.toNat ≤ 3 && w.declared && t.off.toNat + z ≤ w.size

/-- The three checks of R277 in their order. -/
def withTargets (s : State) (r : Round) (z : Nat) (l : List Target) (k : Res) : Res :=
  let g := (s.teamOf r).gang
  checkTargets s r 0x53 l (fun t => t.peer.toNat < (s.gang g).size) (fun t => (t.peer, 0, 0))
    (checkTargets s r 0x52 l (windowHolds s g z) (fun t => (t.peer, t.win, t.off))
      (checkTargets s r 0x21 l (fun t => t.off.toNat % z == 0) (fun t => (t.off, 0, 0)) k))

/-- Sends the items of an instruction in ascending lane order (R277, R278). -/
def State.sendItems (s : State) (r : Round) (op : Nat) (l : List Target) (data : Nat → Word) : State :=
  { s with
    items := s.items ++ l.zipIdx.map (fun p =>
      { id := s.nextId + p.2, round := s.cur, team := (s.memberTeam (s.teamOf r).gang p.1.peer.toNat).getD 0
        window := p.1.win.toNat, offset := p.1.off.toNat, op := op, data := data p.1.lane })
    nextId := s.nextId + l.length }

/-- XST (R275, R277). -/
def execXst (f : RForm) (s : State) : Res :=
  let fs : List Field := [rA f, rB f, (f.c, false), (f.d, false)]
  begin s f.g fs [] (fun s r m xs =>
    let l := (lanesOf m).map (fun i =>
      { lane := i, peer := laneOf (arg xs 1) i, win := laneOf (arg xs 2) i, off := laneOf (arg xs 0) i })
    withTargets s r 8 l (finish s (s.sendItems r 0 l (laneOf (arg xs 3))) fs (fun q => q)))

/-- The item operation of XADD (R276): 1 I32 add, 2 F32 add, 3 BF16 add. -/
def xaddOp (f : AForm) : Nat := if f.op = 0 then 1 else if f.asz = 2 then 3 else 2

/-- XADD (R276, R277). -/
def execXadd (f : AForm) (s : State) : Res :=
  let fs : List Field := [(f.a, false), (f.a + 1, false), (f.b, false)]
  let z := if f.asz = 2 then 2 else 4
  begin s f.g fs [] (fun s r m xs =>
    let l := (lanesOf m).map (fun i =>
      { lane := i, peer := BitVec.ofNat 64 (bits (laneOf (arg xs 1) i) 2 0), win := BitVec.ofNat 64 (bits (laneOf (arg xs 1) i) 9 8)
        off := laneOf (arg xs 0) i })
    withTargets s r z l (finish s (s.sendItems r (xaddOp f) l (laneOf (arg xs 2))) fs (fun q => q)))

/-- Where an item lands and how many bytes it has (R277): an XST in the back bank, an XADD in the front bank. -/
def itemPlace (t : Team) (x : XItem) : Nat × Nat :=
  let w := t.win x.window
  (w.base + x.offset + (if x.op = 0 then w.size else 0), if x.op = 0 then 8 else if x.op = 3 then 2 else 4)

/-- The bytes of an item that lands (R277): an XST writes, an XADD adds. -/
def landItem (t : Team) (x : XItem) : Team :=
  let (a, z) := itemPlace t x
  let old := ofBytes (Memory.readList t.spad a z)
  let b := x.data.toNat % 2 ^ (8 * z)
  let new :=
    match x.op with
    | 0 => b
    | 1 => (old + b) % 2 ^ 32
    | 2 => fpAdd .fp32 .rne false old b
    | _ => fpAdd .bf16 .rne false old b
  t.writeSpad ((toBytes z new).zipIdx.map (fun p => (a + p.2, p.1)))

/-- EXCHANGE_ITEM_LAND (R277, R278): items of one round to one peer land in the order sent, after the accesses to those bytes that stand
behind a release (R157, R274). -/
def execExchangeItemLand (item : Nat) (s : State) : Res :=
  match s.items.find? (fun i => i.id == item) with
  | none => .next s
  | some x =>
    if s.items.any (fun i => i.round == x.round && i.team == x.team && decide (i.id < x.id)) then .next s
    else
      let p := itemPlace (s.teams.getD x.team Team.blank) x
      let s1 := s.performOn (fun _ q a => a.released && q.team == x.team) true ((List.range p.2).map (fun i => p.1 + i))
      .next ({ s1 with items := s1.items.filter (fun i => i.id != item) }.setTeam x.team
        (landItem (s1.teams.getD x.team Team.blank) x))

end Sys2Proof.Machine
end

