-- ==== Sys2Proof/Machine/Flow.lean ====
section
/-! DEFINITION. Control flow, walkers and the other SYN instructions of the round (R88 to R104), opcodes 0x200 to 0x212. -/
namespace Sys2Proof.Machine

/-- What a word address names (R39, R43, R92): a word; no canonical address; a missing page, a refusal, or a lasting sector. -/
inductive CodeAt where
  | word (w : Word)
  | wild
  | missing (level : Nat)
  | refused (flag : Nat)
  | lasting (pa : Nat)
  | held
  deriving DecidableEq, Repr

/-- The byte address of a word address. -/
def byteAddr (t : Word) : Word := t <<< 3

/-- The bytes of a code word as a fetch reads it (R44): a store of which some has left counts whole, so that the word is never part old and
part new. -/
def State.codeBytes (s : State) (pa : Nat) : List Byte :=
  let at_ := (List.range 8).map (fun i => pa + i)
  let out := (s.stores.filter (fun e => e.left.any at_.contains)).flatMap (fun e => e.bytes)
  let begun := s.rounds.flatMap (fun q => (q.pending.filter (fun a => !a.spad && a.op == .store && !a.got.isEmpty)).flatMap (fun a =>
    a.pieces.flatMap (fun p => p.addrs.zip (p.stored (p.addrs.map (Memory.read s.mem))))))
  at_.map (fun x => (((out ++ begun).reverse.find? (fun c => c.1 == x)).map (fun c => c.2)).getD (Memory.read s.mem x))

/-- Reads a code word at its home slice for a round (R44, R286): the new word also between a FENCE at die scope and the next control transfer,
where either may come. DESIGN CHOICE: log entry 81. -/
def State.codeAt (s : State) (r : Round) (t : Word) : CodeAt :=
  if 2 ^ 61 ≤ t.toNat || !canonical (byteAddr t) then .wild
  else
    match translate s r.core (s.partOf r) { write := false, fetch := true, user := !r.priv } (byteAddr t) with
    | .missing level => .missing level
    | .refused flag => .refused flag
    | .held => .held
    | .ok pa =>
      if s.isLasting pa then .lasting pa else .word (BitVec.ofNat 64 (ofBytes (s.codeBytes pa)))

/-- Whether a target is no header (R43). -/
def CodeAt.bad : CodeAt → Bool
  | .word w => !isHeader w
  | .wild => true
  | _ => false

/-- The lanes of some targets. -/
def lanesMask (l : List Nat) : Mask := maskOf (fun i => l.contains i)

/-- Checks that the targets of some groups of lanes are headers (R43, R92, R394): the fetch's refusals and missing pages come first, since
only a word that has arrived is a header or none. DEDUCED: log entry 45. -/
def withHeaders (s : State) (r : Round) (l : List (Word × Mask)) (k : Res) : Res :=
  let xs := l.map (fun p => (p.1, p.2, s.codeAt r p.1))
  let masks (ys : List Mask) : Mask := ys.foldl (fun acc m => acc ||| m) 0
  match xs.filterMap (fun x => match x.2.2 with | .refused f => some (x.1, x.2.1, f) | _ => none) with
  | b :: bs => takeTrap s r 0x61 (byteAddr b.1) (BitVec.ofNat 64 b.2.2) 0 (masks ((b :: bs).map (fun x => x.2.1)))
  | [] =>
    match xs.filterMap (fun x => match x.2.2 with | .missing lv => some (x.1, x.2.1, lv) | _ => none) with
    | b :: bs =>
      .next (parkService s r ((b :: bs).foldl (fun acc x => insertPage (pageOf (byteAddr x.1)) acc) []) (masks (l.map (fun x => x.2)))
        (masks ((b :: bs).map (fun x => x.2.1))) (byteAddr b.1) b.2.2)
    | [] =>
      if xs.any (fun x => x.2.2 == .held) then stall s r .engine
      else
      match xs.filterMap (fun x => match x.2.2 with | .lasting pa => some (x.2.1, pa) | _ => none) with
      | b :: bs => takeTrap s r 0x63 (BitVec.ofNat 64 (b.2 / 32 * 32)) 0 0 (masks ((b :: bs).map (fun x => x.1)))
      | [] =>
        match xs.filter (fun x => x.2.2.bad) with
        | b :: bs =>
          takeTrap s r 0x05 b.1 (BitVec.ofNat 64 ((lowestLane b.2.1).getD 0)) 0 (masks ((b :: bs).map (fun x => x.2.1)))
        | [] => k

/-- Ends the clause as a control transfer with the round changed as `write` says and the program counter where it says. -/
def transfer (s : State) (fs : List Field) (write : Round → Round × Word) : Res :=
  onRound s (fun r =>
    let (r1, pc) := write (settle fs r)
    .next (s.stand (endClause s.now pc r1)))

/-- The deepest a join stack may be (R88). -/
def joinDepth : Nat := 32

/-- JOIN_STACK (R106). -/
def joinStack (s : State) (r : Round) (m : Mask) : Res := takeTrap s r 0x06 (BitVec.ofNat 64 r.stack.length) 0 0 m

/-- The target of a J-format instruction (R53, R90): word addresses have 61 bits (R39). DEDUCED: log entry 33. -/
def jTarget (r : Round) (f : JForm) : Word := BitVec.ofNat 64 ((r.h + f.off.signExtend 64).toNat % 2 ^ 61)

/-- The first entry with a live lane, and the stack below it (R89). -/
def popLive (live : Mask) : List JoinEntry → Option (JoinEntry × List JoinEntry)
  | [] => none
  | e :: es => if e.mask &&& live = 0 then popLive live es else some (e, es)

/-- What happens when lanes have left the current mask: the round goes on by fall-through, or the implicit pop chooses the next
path, or the round ends (R89, R93 to R95). -/
def afterLanes (now : Nat) (r : Round) : Round :=
  if r.cur = 0 then
    match popLive r.live r.stack with
    | some (e, es) => endClause now e.addr { r with cur := e.mask &&& r.live, stack := es }
    | none =>
      { endClause now r.fallThrough { r with live := 0, stack := [], sleep := 0 } with status := .ending }
  else endClause now r.fallThrough r

/-- The transfer of R91 once its lanes and its target are known. -/
def branchTo (s : State) (r : Round) (taken : Mask) (t : Word) : Res :=
  if taken = 0 then transfer s [] (fun q => (q, q.fallThrough))
  else
    withHeaders s r [(t, taken)]
      (if taken = r.cur then transfer s [] (fun q => (q, t))
       else if joinDepth ≤ r.stack.length then joinStack s r taken
       else
         transfer s [] (fun q =>
           ({ q with stack := { kind := .path, addr := t, mask := taken } :: q.stack, cur := q.cur &&& ~~~taken }, q.fallThrough)))

/-- BRA (R91). -/
def execBra (f : JForm) (s : State) : Res := onRound s (fun r => branchTo s r (r.guarded f.g) (jTarget r f))

/-- BRW (R91): walker AUX[9:7], dimension AUX[6:5]. -/
def execBrw (f : JForm) (s : State) : Res :=
  onRound s (fun r =>
    let k := f.aux.toNat / 2 ^ 7
    let w := r.walker k
    if !w.bound then takeTrap s r 0x11 (BitVec.ofNat 64 k) 0 0 (r.guarded f.g)
    else branchTo s r (if w.wrap.getLsbD (f.aux.toNat / 2 ^ 5 % 4) then r.guarded f.g else 0) (jTarget r f))

/-- Distinct targets in the order of their lowest lanes. -/
def targetGroups (l : List (Nat × Word)) : List (Word × Mask) :=
  (l.foldl (fun (acc : List Word) p => if acc.contains p.2 then acc else acc ++ [p.2]) []).map (fun t =>
    (t, lanesMask ((l.filter (fun p => p.2 == t)).map (fun p => p.1))))

/-- BRX (R92). -/
def execBrx (f : RForm) (s : State) : Res :=
  let fs := [rA f]
  begin s f.g fs [] (fun s r taken xs =>
    if taken = 0 then transfer s fs (fun q => (q, q.fallThrough))
    else
      let groups := targetGroups (laneValues taken (arg xs 0))
      withHeaders s r groups
        (match groups with
         | [] => transfer s fs (fun q => (q, q.fallThrough))
         | g0 :: others =>
           let rest := r.cur &&& ~~~taken
           if joinDepth < r.stack.length + (if rest = 0 then 0 else 1) + others.length then joinStack s r taken
           else
             transfer s fs (fun q =>
               let st := if rest = 0 then q.stack else { kind := .path, addr := q.fallThrough, mask := rest } :: q.stack
               ({ q with stack := others.map (fun g => { kind := .path, addr := g.1, mask := g.2 }) ++ st, cur := g0.2 }, g0.1))))

/-- CALL and CALLX (R93). -/
def callTo (s : State) (r : Round) (taken : Mask) (t : Word) : Res :=
  if taken = 0 then transfer s [] (fun q => (q, q.fallThrough))
  else
    withHeaders s r [(t, taken)]
      (if joinDepth ≤ r.stack.length then joinStack s r taken
       else
         transfer s [] (fun q =>
           ({ q with stack := { kind := .call, addr := q.fallThrough, mask := q.cur } :: q.stack, cur := taken }, t)))

def execCall (f : JForm) (s : State) : Res := onRound s (fun r => callTo s r (r.guarded f.g) (jTarget r f))
def execCallx (f : RForm) (s : State) : Res :=
  begin s f.g [(f.a, false)] [] (fun s r taken xs => callTo s r taken (laneOf (arg xs 0) 0))

/-- Removes lanes from the entries above the topmost call entry (R93). -/
def leaveCall (m : Mask) : List JoinEntry → List JoinEntry
  | [] => []
  | e :: es => if e.kind = .call then e :: es else { e with mask := e.mask &&& ~~~m } :: leaveCall m es

/-- RET (R93). -/
def execRet (f : RForm) (s : State) : Res :=
  onRound s (fun r =>
    let taken := r.guarded f.g
    if taken = 0 then transfer s [] (fun q => (q, q.fallThrough))
    else if !r.stack.any (fun e => e.kind == .call) then joinStack s r taken
    else
      .next (s.stand (afterLanes s.now { r with cur := r.cur &&& ~~~taken, stack := leaveCall taken r.stack })))

/-- MJOIN (R94). -/
def execMjoin (f : JForm) (s : State) : Res :=
  onRound s (fun r =>
    let taken := r.guarded f.g
    let t := jTarget r f
    if taken = 0 then finish s s [] (fun q => q)
    else
      withHeaders s r [(t, taken)]
        (if joinDepth ≤ r.stack.length then joinStack s r taken
         else finish s s [] (fun q => { q with stack := { kind := .join, addr := t, mask := q.cur } :: q.stack })))

/-- Whether a join entry lies in the stack above the next call entry (R94). -/
def hasJoin : List JoinEntry → Bool
  | [] => false
  | e :: es =>
    match e.kind with
    | .call => false
    | .join => true
    | .path => hasJoin es

/-- JOIN (R94). -/
def execJoin (f : RForm) (s : State) : Res :=
  onRound s (fun r =>
    let taken := r.guarded f.g
    if taken = 0 then transfer s [] (fun q => (q, q.fallThrough))
    else if !hasJoin r.stack then joinStack s r taken
    else
      match r.stack with
      | [] => joinStack s r taken
      | e :: es =>
        if e.mask &&& r.live = 0 then .next (s.stand (afterLanes s.now { r with stack := es, cur := 0 }))
        else transfer s [] (fun q => ({ q with stack := es, cur := e.mask &&& q.live }, e.addr)))

/-- The tests that follow the loss of a round's last live lane (R252, R273). -/
def State.lanesGone (s : State) (r : Round) : State := (s.testBarriers r.team).testGang (s.teamOf r).gang

/-- The effect of EXIT on lanes (R95). -/
def exitLanes (s : State) (r : Round) (taken : Mask) : Res :=
  let live := r.live &&& ~~~taken
  let r1 := afterLanes s.now { r with
    live := live, cur := r.cur &&& ~~~taken
    stack := r.stack.map (fun e => { e with mask := e.mask &&& ~~~taken }) }
  let s1 := s.stand r1
  .next (if live = 0 then s1.lanesGone r1 else s1)

/-- EXIT (R95): one that would end the round first makes the check of R218, waits until the round's lines and packets are answered, and
raises the failure that it has kept (R89, R372). DEDUCED: log entry 67. -/
def execExit (f : RForm) (s : State) : Res :=
  onRound s (fun r =>
    let taken := r.guarded f.g
    if taken = 0 then transfer s [] (fun q => (q, q.fallThrough))
    else if r.live &&& ~~~taken ≠ 0 then exitLanes s r taken
    else if r.desync then scaleDesync s r taken 0
    else
      let s1 := s.drainLines (fun x => x.round == s.cur)
      onRound s1 (fun q =>
        if q.sysCtr != 0 then stall s1 q .engine
        else
          match q.kept with
          | some x =>
            takeTrap s1 { q with kept := none } (if x.timeout then 0x82 else 0x81) x.rankWord x.addr (BitVec.ofNat 64 x.cause) taken
          | none => exitLanes s1 q taken))

/-- NOP (R96). -/
def execNop (f : RForm) (s : State) : Res := begin s f.g [] [] (fun s _ _ _ => finish s s [] (fun q => q))

/-- The effect of YIELD (R96): once its clause has ended, the round gives way and is the last issuer. DEDUCED: log entry 31. -/
def yieldNow (s : State) : Res := finish s s [] (fun q => { q with yields := true })

/-- YIELD (R96). -/
def execYield (f : RForm) (s : State) : Res :=
  begin s f.g [] [] (fun s _ m _ => if m = 0 then finish s s [] (fun q => q) else yieldNow s)

/-- SLEEP (R96): the cycles count from the end of the clause, for the longest of its sleeps; none of them acts as YIELD. -/
def execSleep (f : IForm) (s : State) : Res :=
  begin s f.g [] [] (fun s _ m _ =>
    if m = 0 then finish s s [] (fun q => q)
    else if f.imm = 0 then yieldNow s
    else finish s s [] (fun q => { q with sleep := max q.sleep f.imm.toNat }))

/-- Names that the operand window holds at most, and rows of a quadrant's operand buffer (R86). -/
def windowNames : Nat := 64
def bufferRows : Nat := 1024

/-- The order number from which on the names of a quadrant's windows fit in its operand buffer, latest first (R86). -/
def State.bufferFrom (s : State) (core quadrant : Nat) : Nat :=
  let names := s.rounds.flatMap (fun r =>
    if r.core == core && r.quadrant == quadrant then r.window.map (fun x => (x.2, r.width / 16)) else [])
  ((names.foldr (insertBy (fun a b => decide (b.1 < a.1))) []).foldl (fun (acc : Nat × Nat) x =>
    if acc.2 + x.2 ≤ bufferRows then (x.1, acc.2 + x.2) else (acc.1, bufferRows + 1)) (s.nextId, 0)).1

/-- The windows of a quadrant once the least recently entered names have left its full buffer (R86). DEDUCED: log entry 70. -/
def State.trimWindows (s : State) (core quadrant : Nat) : State :=
  { s with rounds := s.rounds.map (fun r =>
      if r.core == core && r.quadrant == quadrant then
        { r with window := r.window.filter (fun x => decide (s.bufferFrom core quadrant ≤ x.2)) }
      else r) }

/-- RPF (R86, R97): the names enter in ascending order. -/
def execRpf (f : IForm) (s : State) : Res :=
  begin s f.g [] [] (fun s r _ _ =>
    let new := (List.range (f.imm.toNat % 128)).map (fun i => f.a.toNat + i)
    let all := r.window.filter (fun x => !new.contains x.1) ++ new.zipIdx.map (fun x => (x.1, s.nextId + x.2))
    let s1 := ({ s with nextId := s.nextId + new.length } : State).setRound { r with window := all.drop (all.length - windowNames) }
    finish s (s1.trimWindows r.core r.quadrant) [] (fun q => q))

/-- RDROP (R86, R97). -/
def execRdrop (f : IForm) (s : State) : Res :=
  begin s f.g [] [] (fun s _ _ _ =>
    finish s s [] (fun q =>
      { q with window := q.window.filter (fun x => !(decide (f.a.toNat ≤ x.1) && decide (x.1 < f.a.toNat + f.imm.toNat % 128))) }))

/-- A walker from the 64 bytes of a descriptor; none where they break R98. -/
def readWalker (b : List Byte) : Option Walker :=
  let ndim := bytesAt b 13 1
  let extent (d : Nat) : Nat := bytesAt b (16 + 12 * d) 4
  let stride (d : Nat) : Nat := bytesAt b (20 + 12 * d) 8
  let dims := List.range 4
  if bytesAt b 12 1 ≤ 5 && 1 ≤ ndim && ndim ≤ 4 && bytesAt b 14 2 == 0
      && dims.all (fun d => if d < ndim then 1 ≤ extent d else extent d == 0 && stride d == 0) then
    some { bound := true, base := BitVec.ofNat 64 (bytesAt b 0 8), lstride := BitVec.ofNat 32 (bytesAt b 8 4)
           esz := bytesAt b 12 1, ndim := ndim, extent := (List.range ndim).map extent
           stride := (List.range ndim).map (fun d => BitVec.ofNat 64 (stride d)), c := List.replicate ndim 0, wrap := 0, count := 0 }
  else none

/-- WBIND (R99): it reads the descriptor as a plain LDS does, and applies even when no lane passes; the operand `zero` unbinds. DEDUCED: log entry 35. -/
def execWbind (f : IForm) (s : State) : Res :=
  let k := f.imm.toNat % 8
  begin s f.g [(f.a, false)] [] (fun s r m xs =>
    if operand f.a = .zero then finish s s [] (fun q => { q with walkers := q.walkers.set k Walker.unbound })
    else
      let a := laneOf (arg xs 0) 0
      withTileArea s r m a 64
        (withSpad s (spadRange a 64) (fun s1 r1 desc =>
          match readWalker desc with
          | none => takeTrap s1 r1 0x02 0x80 0 0 m
          | some w => finish s s1 [] (fun q => { q with walkers := q.walkers.set k w }))))

/-- WSTAT's value (R101). -/
def wstatValue (w : Walker) : Word :=
  if w.bound then BitVec.ofNat 64 (w.wrap.toNat + 2 ^ 4 + 2 ^ 8 * w.ndim + 2 ^ 16 * (w.count % 2 ^ 48)) else 0

/-- WSTAT (R101). -/
def execWstat (f : IForm) (s : State) : Res :=
  begin s f.g [] (regNames f.d 1) (fun s r m _ =>
    finish s s [] (writeOperand m f.d (tab (fun _ => wstatValue (r.walker (f.imm.toNat % 8))))))

/-- TRAP and BKPT (R102): the effect is the trap; it resumes at the following instruction. -/
def softTrap (f : IForm) (cause : Nat) (s : State) : Res :=
  begin s f.g [] [] (fun s r m _ =>
    if m = 0 then finish s s [] (fun q => q)
    else
      .next (parkTrap s r { cause := cause, index := r.ix, h := r.h, info0 := 0, info1 := 0, info2 := f.imm.setWidth 64, mask := m }
        true (r.ix + 1)))

def execTrap (f : IForm) (s : State) : Res := softTrap f 0x08 s
def execBkpt (f : IForm) (s : State) : Res := softTrap f 0x09 s

/-- `PSTAT` (R326). -/
def pstat (s : State) (r : Round) : Word :=
  let p := s.partOf r
  BitVec.ofNat 64 (2 ^ 16 * p.dies.toNat + (if r.priv then 2 else 0) + (if p.diag then 1 else 0))

/-- `ACCERR` (R223). -/
def accerr (c : Core) : Word :=
  BitVec.ofNat 64 (2 ^ 40 * (c.spare % 2 ^ 8) + 2 ^ 32 * (c.retired % 2 ^ 8) + 2 ^ 16 * (c.corr % 2 ^ 16) + c.trans % 2 ^ 16)

/-- `MEMERR` (R289). DEDUCED: log entry 28. -/
def memerr (d : Die) : Word :=
  BitVec.ofNat 64 (2 ^ 32 * (d.lasting % 2 ^ 16) + 2 ^ 16 * (d.corr % 2 ^ 16) + d.trans % 2 ^ 16)

/-- The contents of a status register (R103, R104, R223, R289, R326). -/
def readStatus (s : State) (r : Round) (n : Nat) : Word :=
  let p := s.partOf r
  let d := s.die (s.dieOf r)
  match n with
  | 0x000 => r.rstat
  | 0x001 => BitVec.ofNat 64 r.stack.length
  | 0x002 => r.cur
  | 0x003 => r.live
  | 0x004 => BitVec.ofNat 64 (r.rows % 2 ^ 14)
  | 0x100 => pstat s r
  | 0x101 => p.ptroot
  | 0x102 => p.trapq
  | 0x103 => BitVec.ofNat 64 (2 ^ 16 * (p.tail % 2 ^ 16) + p.head % 2 ^ 16)
  | 0x104 => d.ctxpool
  | 0x105 => d.ctxsize
  | 0x106 => (s.nodeHandle (s.teamOf r).node).setWidth 64
  | 0x107 => r.handle.setWidth 64
  | 0x130 => accerr (s.core r.core)
  | 0x131 => memerr d
  | _ => 0

/-- Registers that only privileged rounds reach (R326). -/
def isPrivileged (n : Nat) : Bool := 0x101 ≤ n && n ≤ 0x105

/-- RDSR (R103, R326). DEDUCED: log entry 38. -/
def execRdsr (f : IForm) (s : State) : Res :=
  let n := f.imm.toNat % 2 ^ 12
  begin s f.g [] (regNames f.d 1) (fun s r m _ =>
    if isPrivileged n && !r.priv then takeTrap s r 0x07 (BitVec.ofNat 64 n) 0 0 m
    else
      finish s s [] (fun q =>
        writeOperand m f.d (tab (fun _ => readStatus s r n)) (if n = 0 then q.clearRstat else q)))

end Sys2Proof.Machine
end

