-- ==== Sys2Proof/Machine/Copies.lean ====
section
/-! DEFINITION. Copies and batches (R162 to R171), opcodes 0x140 to 0x145, and the events of their members. -/
namespace Sys2Proof.Machine

/-- Adds a member to the open batch (R163 to R166). -/
def Round.enlist (r : Round) (id : Nat) (w : Work) : Round :=
  { r with openBatch := { r.openBatch with members := r.openBatch.members ++ [{ id := id, work := w, moved := [], service := none, read := [] }] } }

/-- The areas of those sides of a copy whose kind is scratchpad (R163, R165). -/
def sides (l : List (Nat × Word × Nat)) : List (Word × List (Word × Nat)) :=
  (l.filter (fun x => x.1 == 1)).map (fun x => (x.2.1, [(x.2.1, x.2.2)]))

/-- CPY (R163). A length above 2^30 traps with 1 in info1 (DEDUCED, log entry 7). Where both sides leave the allocation, the destination's
address is reported. DESIGN CHOICE: log entry 69. -/
def execCpy (f : PForm) (s : State) : Res :=
  let fs := [(f.a, f.lra), (f.b, f.lrb), (f.c, f.lrc)]
  begin s f.g fs [] (fun s r m xs =>
    if m = 0 then finish s s fs (fun q => q)
    else
      let dst := laneOf (arg xs 0) 0
      let src := laneOf (arg xs 1) 0
      let n := (laneOf (arg xs 2) 0).toNat
      let sk := f.cmp.toNat / 4
      let dk := f.cmp.toNat % 4
      if 2 ^ 30 < n then takeTrap s r 0x23 (BitVec.ofNat 64 n) 1 0 m
      else
        withAreas s r m (sides [(dk, dst, n), (sk, src, n)])
          (finish s { s with nextId := s.nextId + 1 } fs (fun q => q.enlist s.nextId (.copy sk src dk dst n))))

/-- Rows for the destination names of a copy into registers, zero where the name held none (R84, R164). -/
def allocate (reg count : Nat) (r : Round) : Round :=
  { r with v := (List.range count).foldl (fun v k => if (SMap.find v (reg + k)).isSome then v else SMap.set v (reg + k) (tab (fun _ => 0))) r.v }

/-- Names of a round that loads, atomics and special functions issued earlier have yet to write: a copy into them is later in program
order and lands after them (R81, R258). -/
def Round.landing (r : Round) : List Nat := r.tokens.map (fun t => t.dst) ++ r.pending.flatMap (fun a => regNames a.dst a.regs)

/-- The position in State of round t of a team. -/
def State.roundOf (s : State) (team rix : Nat) : Option Nat :=
  ((s.rounds.zipIdx.find? (fun q => q.1.team == team && q.1.rix == rix))).map (fun q => q.2)

/-- CPYR (R164). A round index outside the team traps with 2 in info1 (DEDUCED, log entry 7). -/
def execCpyr (f : PForm) (s : State) : Res :=
  let fs := [(f.b, f.lrb), (f.c, f.lrc)]
  let count := f.cmp.toNat + 1
  begin s f.g fs [] (fun s r m xs =>
    if m = 0 then finish s s fs (fun q => q)
    else
      let t := laneOf (arg xs 1) 0
      let sk := f.ls.toNat
      if (s.teamOf r).kernel.rounds ≤ t.toNat then takeTrap s r 0x23 t 2 0 m
      else
        checkShadow s r (8 * count) (if sk = 1 then laneValues m (arg xs 0) else [])
         (checkLanes s r 0x20 0 (laneValues m (arg xs 0)) (fun p => sk != 1 || (s.teamOf r).holds p.2.toNat (8 * count))
          (let w : Work := .regs sk (arg xs 0) m f.a.toNat count t.toNat
           let s1 := { s with nextId := s.nextId + 1 }
           let names := (List.range count).map (fun k => f.a.toNat + k)
           match s.roundOf r.team t.toNat with
           | none => finish s s1 fs (fun q => q.enlist s.nextId w)
           | some n =>
             if names.any (fun k => ((s.rounds[n]?.map Round.landing).getD []).contains k) then stall s r .scoreboard
             else if n = s.cur then finish s s1 fs (fun q => (allocate f.a.toNat count q).enlist s.nextId w)
             else
               match s.rounds[n]? with
               | none => finish s s1 fs (fun q => q.enlist s.nextId w)
               | some q =>
                 if q.status == .ended then finish s s1 fs (fun q => q.enlist s.nextId w)
                 else if s.rowsFit n (allocate f.a.toNat count q) then
                   finish s (s1.setRoundAt n (allocate f.a.toNat count q)) fs (fun q => q.enlist s.nextId w)
                 else stall s r (.rows n (allocate f.a.toNat count q).rows))))

/-- A 64-byte descriptor of CPYI from its bytes (R165). -/
def readInterleave (l : List Byte) : InterleaveDesc :=
  let w (hi lo : Nat) : Nat := ofBytes ((l.drop lo).take (hi + 1 - lo))
  { dst := BitVec.ofNat 64 (w 7 0), src := BitVec.ofNat 64 (w 15 8), nch := w 19 16, npos := w 23 20, f := w 24 24
    esz := w 25 25 % 4, srcKind := w 26 26 / 4 % 4, dstKind := w 26 26 % 4, pad := BitVec.ofNat 64 (w 39 32) }

/-- The field limits of R165; bits [7:4] of the kinds byte, which it gives no meaning, must be 0. DESIGN CHOICE: log entry 69. -/
def interleaveOk (l : List Byte) : Bool :=
  let w (hi lo : Nat) : Nat := ofBytes ((l.drop lo).take (hi + 1 - lo))
  1 ≤ w 19 16 && w 19 16 ≤ 2 ^ 24 && 1 ≤ w 23 20 && w 23 20 ≤ 2 ^ 24 && 1 ≤ w 24 24 && w 24 24 ≤ 64 && w 25 25 < 4
    && w 26 26 / 16 == 0 && w 26 26 / 4 % 4 < 2 && w 26 26 % 4 < 2 && w 31 27 == 0 && w 63 40 == 0

/-- The source of a destination byte of CPYI: an offset, or a byte of the pad element (R165). -/
def InterleaveDesc.source (d : InterleaveDesc) (unpack : Bool) (i : Nat) : Nat ⊕ Byte :=
  let e := i / d.eb
  let b := i % d.eb
  if unpack then
    let c := e / d.npos
    let n := e % d.npos
    .inl (((c / d.f * d.npos + n) * d.f + c % d.f) * d.eb + b)
  else
    let g := e / (d.npos * d.f)
    let n := e / d.f % d.npos
    let c := g * d.f + e % d.f
    if c < d.nch then .inl ((c * d.npos + n) * d.eb + b) else .inr (BitVec.ofNat 8 (d.pad.toNat / 2 ^ (8 * b)))

/-- The information word that marks a bad descriptor (R99, R165). -/
def descriptorFlag : Word := 0x80

/-- CPYI (R165); its descriptor is read as by a plain LDS. Where both sides leave the allocation, the destination's address is reported. DESIGN CHOICE: log entry 69. -/
def execCpyi (f : PForm) (s : State) : Res :=
  let fs := [(f.a, f.lra)]
  let unpack := f.cmp.getLsbD 0
  begin s f.g fs [] (fun s r m xs =>
    if m = 0 then finish s s fs (fun q => q)
    else
      let a := laneOf (arg xs 0) 0
      if a.toNat % 64 != 0 then takeTrap s r 0x21 a 0 0 m
      else
       withArea s r m a 64
        (let at_ := (List.range 64).map (fun i => a.toNat + i)
        let s1 := s.readSpadNow at_
        let l := s1.pointRead r true at_
        let d := readInterleave l
        let srcLen := if unpack then d.woven else d.plain
        let dstLen := if unpack then d.plain else d.woven
        if !interleaveOk l then takeTrap s r 0x02 descriptorFlag 0 0 m
        else
          withAreas s r m (sides [(d.dstKind, d.dst, dstLen), (d.srcKind, d.src, srcLen)])
            (finish s { s1 with nextId := s1.nextId + 1 } fs (fun q => q.enlist s1.nextId (.interleave unpack d)))))

/-- Unfinished sealed batches (R166). -/
def Round.unfinished (r : Round) : Nat := (r.sealed.filter (fun b => !b.members.isEmpty)).length

/-- Batches that no wait needs any more: complete, with nothing to report. -/
def Round.prune (r : Round) : Round :=
  { r with sealed := r.sealed.filter (fun b => !b.members.isEmpty || (b.fault.isSome && !b.reported)) }

/-- CSEAL (R166). -/
def execCseal (f : RForm) (s : State) : Res :=
  begin s f.g [] (regNames f.d 1) (fun s r m _ =>
    if m = 0 then finish s s [] (fun q => q)
    else if r.unfinished = 64 then takeTrap s r 0x24 (BitVec.ofNat 64 r.last) 0 0 m
    else
      finish s s [] (fun q =>
        let n := (q.last + 1) % 2 ^ 16
        writeOperand m f.d (tab (fun _ => BitVec.ofNat 64 n))
          (Round.prune { q with last := n, sealed := q.sealed ++ [{ q.openBatch with num := n }]
                                openBatch := { num := 0, members := [], fault := none, reported := false } })))

/-- How far back a batch lies (R167). -/
def Round.back (r : Round) (n : Nat) : Nat := (r.last + 2 ^ 16 - n) % 2 ^ 16

/-- The oldest of a list of batches with an unreported record (R167). -/
def Round.oldestFault (r : Round) (bs : List Batch) : Option Batch :=
  (bs.filter (fun b => b.members.isEmpty && b.fault.isSome && !b.reported)).foldl
    (fun (acc : Option Batch) b =>
      match acc with
      | none => some b
      | some a => if r.back a.num < r.back b.num then some b else some a) none

/-- The end of a wait for batches: a fence from the CP and TX paths to every path, and then it reports the oldest record of the batches
that it names, which it marks, or completes (R167, R302). -/
def reportOr (s : State) (fs : List Field) (m : Mask) (named : Round → List Batch) : Res :=
  let s1 := (s.pushTx s.cur).shows s.cur [1, 2] otherPaths
  onRound s1 (fun r =>
    match r.oldestFault (named r) with
    | none => finish s s1 fs Round.prune
    | some b =>
      let r1 := { r with sealed := r.sealed.map (fun x => if x.num == b.num then { x with reported := true } else x) }
      let f := b.fault.getD { kind := 0, addr := 0, cause := 0 }
      takeTrap (s1.setRound r1) r1 0x23 (BitVec.ofNat 64 (b.num + 2 ^ 16 * f.kind)) f.addr (BitVec.ofNat 64 f.cause) m)

/-- CWAIT (R167). -/
def execCwait (f : IForm) (s : State) : Res :=
  let fs := [iA f]
  begin s f.g fs [] (fun s r m xs =>
    let v := ((laneOf (arg xs 0) 0).toNat + f.imm.toNat) % 2 ^ 16
    let d := r.back v
    let named (q : Round) : List Batch := q.sealed.filter (fun b => d ≤ q.back b.num)
    if d < 64 && (named r).any (fun b => !b.members.isEmpty) then stall s r .batches else reportOr s fs m named)

/-- CWAITK (R167). -/
def execCwaitk (f : IForm) (s : State) : Res :=
  let fs := [iA f]
  begin s f.g fs [] (fun s r m xs =>
    let v := ((laneOf (arg xs 0) 0).toNat + f.imm.toNat) % 2 ^ 16
    if v < r.unfinished then stall s r .batches
    else reportOr s fs m (fun q => q.sealed.filter (fun b => b.members.isEmpty)))

/-- Source, destination and byte map of a copy or interleave. -/
def Work.move : Work → Option (Move × (Nat → Nat ⊕ Byte))
  | .copy sk src dk dst n => some ({ srcKind := sk, src := src, dstKind := dk, dst := dst, len := n }, fun i => .inl i)
  | .interleave unpack d =>
    some ({ srcKind := d.srcKind, src := d.src, dstKind := d.dstKind, dst := d.dst
            len := if unpack then d.plain else d.woven }, d.source unpack)
  | .regs _ _ _ _ _ _ => none
  | .place _ _ => none

/-- Words of a destination. -/
def Move.words (mv : Move) : Nat := if mv.len = 0 then 0 else (mv.dst.toNat + mv.len - 1) / 8 - mv.dst.toNat / 8 + 1

/-- What follows moved words: the member goes on, or finishes when every destination word is written (R168). -/
def advanceMember (n : Nat) (m : Member) (mv : Move) (words : Option (List Nat)) (s : State) : State :=
  match s.rounds[n]? with
  | none => s
  | some r =>
    let moved := match words with
      | none => List.range mv.words
      | some ws => m.moved ++ ws.filter (fun w => !m.moved.contains w)
    if (List.range mv.words).all (fun w => moved.contains w) then s.setRoundAt n (r.finishMember m.id none).prune
    else s.setRoundAt n (r.setMember { m with moved := moved })

/-- Moves the listed destination words of a member, or all that remain; source words that others need are read whole (R169). -/
def moveMember (round : Nat) (m : Member) (mv : Move) (src : Nat → Nat ⊕ Byte) (words : Option (List Nat)) (s : State) : State :=
  let a := s.agentOf round
  let is := wordBytes mv words m.moved
  let m1 := if words.isNone then m else s.readWords a [{ kind := mv.srcKind, base := mv.src, len := 2 ^ 64 - 1 }] (mv.reads src is) m
  memberOutcome s round m1 (advanceMember round m1 mv words) (s.moveBytes a m1 mv src is)

/-- COPY_MEMBER_COMPLETE (R168 to R170): the listed destination words are copied, or all that remain. It does nothing while the
member waits for service or for a host link (R338), and nothing for a member that is no copy or interleave. -/
def execCopyMemberComplete (round member : Nat) (words : Option (List Nat)) (s : State) : Res :=
  match s.rounds[round]?.bind (fun r => r.member? member) with
  | none => .next s
  | some m =>
    match m.service, m.work.move with
    | none, some (mv, src) =>
      if mv.usesHost && !s.linkReady (linkOf (s.agentOf round).part) then .next s
      else
        let is := wordBytes mv words m.moved
        let s1 := (s.readyMember round m mv.srcKind (mv.reads src is)).readyWrite round m mv.dstKind
          (is.map (fun i => mv.dst + BitVec.ofNat 64 i))
        .next (moveMember round (((s1.rounds[round]?.bind (fun r => r.member? member))).getD m) mv src words s1)
    | _, _ => .next s

/-- A member reads source words before it writes what depends on them (R169): those that hold the listed addresses, of a kind. -/
def State.readMember (s : State) (round member kind : Nat) (addrs : List Word) : State :=
  let s1 := (s.rounds[round]?.bind (fun r => r.member? member)).elim s (fun m => s.readyMember round m kind addrs)
  match s1.rounds[round]?, s1.rounds[round]?.bind (fun r => r.member? member) with
  | some r, some m =>
    if m.service.isSome then s1
    else s1.setRoundAt round (r.setMember (s1.readWords (s1.agentOf round)
      ((m.work.sources (s1.teamOf r)).filter (fun x => x.kind == kind)) addrs m))
  | _, _ => s1

/-- The landed registers of a copy into registers (R164): bytes 8k to 8k + 7 of each lane into register k. -/
def landRegs (mask : Mask) (reg : Nat) (regs : List Lanes) (r : Round) : Round :=
  { r with v := regs.zipIdx.foldl (fun v p => SMap.set v (reg + p.2) (mergeLanes mask p.1 ((SMap.find v (reg + p.2)).getD []))) r.v }

/-- CPYR_DATA_LAND (R164): copies into one register land in the order in which they issued; data for a round that has
ended is discarded. -/
def execCpyrDataLand (round member : Nat) (s0 : State) : Res :=
  let s := (s0.rounds[round]?.bind (fun r => r.member? member)).elim s0 (fun m =>
    match m.work with
    | .regs sk addrs mask _ count _ =>
      s0.readyMember round m sk ((lanesOf mask).flatMap (fun l => (List.range (8 * count)).map (fun i => laneOf addrs l + BitVec.ofNat 64 i)))
    | _ => s0)
  match s.rounds[round]?, s.rounds[round]?.bind (fun r => r.member? member) with
  | some r, some m =>
    match m.service, m.work with
    | none, .regs sk addrs mask reg count target =>
      let earlier := s.rounds.any (fun q => q.team == r.team && q.members.any (fun x =>
        x.id < m.id && (match x.work with
          | .regs _ _ _ reg' count' target' => target' == target && decide (reg' < reg + count) && decide (reg < reg' + count')
          | _ => false)))
      if earlier then .next s
      else
        let gs := (lanesOf mask).flatMap (fun l => (List.range (8 * count)).map (fun i =>
          s.memberByte (s.agentOf round) m sk (laneOf addrs l + BitVec.ofNat 64 i)))
        match gather gs with
        | .fault va c => .next (memberOutcome s round m id (.fault va c))
        | .missing ps va => .next (memberOutcome s round m id (.missing ps va))
        | .held => .next s
        | .ok bytes =>
          let per (l : Nat) : List Byte := (bytes.drop (8 * count * (lanesOf mask).idxOf l)).take (8 * count)
          let regs := loadedRegs count per
          let s1 : State := { s with free := s.free + 1 }
          let s2 := s1.setRoundAt round (r.finishMember m.id none).prune
          match s2.roundOf r.team target with
          | none => .next s2
          | some n =>
            match s2.rounds[n]? with
            | none => .next s2
            | some q => if q.status == .ended then .next s2 else .next (s2.setRoundAt n (landRegs mask reg regs q))
    | _, _ => .next s
  | _, _ => .next s

end Sys2Proof.Machine
end

