-- ==== Sys2Proof/Machine/Placement.lean ====
section
/-! DEFINITION. The placement instructions (R184 to R204), opcodes 0x146 to 0x14E, and the completion of passes. -/
namespace Sys2Proof.Machine

/-- Layout register k of a team. -/
def Team.layout (t : Team) (k : Nat) : LayoutReg := t.layouts.getD k LayoutReg.empty
/-- Replaces layout register k of a team. -/
def Team.setLayout (t : Team) (k : Nat) (x : LayoutReg) : Team := { t with layouts := t.layouts.set k x }
/-- Whether a plan is in progress (R179, R182). -/
def LayoutReg.busy (x : LayoutReg) : Bool := progPlan x.words

/-- The traps of this chapter (R204). -/
def placeBusy (s : State) (r : Round) (k : Nat) (m : Mask) : Res :=
  takeTrap s r 0x33 (BitVec.ofNat 64 k) (BitVec.ofNat 64 (recProgress ((s.teamOf r).layout k).words)) 0 m
def layoutShape (s : State) (r : Round) (k reason : Nat) (m : Mask) : Res :=
  takeTrap s r 0x31 (BitVec.ofNat 64 k) (BitVec.ofNat 64 reason) 0 m

/-- Goes on unless a record fails a check. -/
def withShape (s : State) (r : Round) (k : Nat) (reason : Option Nat) (m : Mask) (go : Res) : Res :=
  match reason with
  | some x => layoutShape s r k x m
  | none => go

/-- The address checks of LYLD and LYST (R185), then the bytes' addresses: scratchpad addresses, or physical ones. -/
def layoutAddress (s : State) (r : Round) (k : Nat) (spad write : Bool) (m : Mask) (a : Word) (go : List Nat → Res) : Res :=
  if spad then
    if a.toNat % 64 != 0 then takeTrap s r 0x21 a 0 0 m
    else withArea s r m a 512 (go ((List.range 512).map (fun i => a.toNat + i)))
  else if a.toNat % 64 != 0 then layoutShape s r k 10 m
  else
    withPages s r m write 512 [((lowestLane m).getD 0, a)] (fun pas => go (pasOf pas ((lowestLane m).getD 0)))

/-- LYLD (R185): with the ordering of a plain load, it reads the whole record at one instant. DESIGN CHOICE: log entry 9. -/
def execLyld (f : PForm) (s : State) : Res :=
  let fs := [(f.a, f.lra)]
  let k := f.ld.toNat
  begin s f.g fs [] (fun s r m xs =>
    if m = 0 then finish s s fs (fun q => q)
    else if ((s.teamOf r).layout k).busy then placeBusy s r k m
    else
      let spad := f.cmp.getLsbD 0
      layoutAddress s r k spad false m (laneOf (arg xs 0) 0) (fun pas =>
        let load (s1 : State) (l : List Byte) : Res :=
          finish s (s1.modTeam r (fun t => t.setLayout k { words := setWord (recordOf l) 61 0, plan := none })) fs (fun q => q)
        let s1 := s.orderBefore s.cur spad pas
        let s2 := (s1.capture s.cur spad pas)
        if spad then load s2 (s1.pointRead r true pas)
        else withClean s r [((lowestLane m).getD 0, pas)] (load (s2.noteServed s.cur r.core pas) (pas.map (s1.coreRead r.core)))))

/-- LYST (R185): with the ordering of a plain store, it writes the whole record at one instant. DESIGN CHOICE: log entry 9. -/
def execLyst (f : PForm) (s : State) : Res :=
  let fs := [(f.a, f.lra)]
  let k := f.ls.toNat
  begin s f.g fs [] (fun s r m xs =>
    if m = 0 then finish s s fs (fun q => q)
    else
      let spad := f.cmp.getLsbD 0
      layoutAddress s r k spad true m (laneOf (arg xs 0) 0) (fun pas =>
        let bytes := pas.zip (recordBytes ((s.teamOf r).layout k).words)
        finish s (if spad then s.storeSpad r bytes else s.store r 8 [bytes]) fs (fun q => q)))

/-- LYSET (R186). -/
def execLyset (f : PForm) (s : State) : Res :=
  let fs := [(f.a, f.lra), (f.b, f.lrb)]
  let k := f.ld.toNat
  begin s f.g fs [] (fun s r m xs =>
    if m = 0 then finish s s fs (fun q => q)
    else
      let l := (lowestLane m).getD 0
      let w := (laneOf (arg xs 1) l).toNat
      let x := (s.teamOf r).layout k
      if x.busy then placeBusy s r k m
      else if 61 ≤ w then layoutShape s r k 11 m
      else finish s (s.modTeam r (fun t => t.setLayout k { x with words := setWord x.words w (laneOf (arg xs 0) l) })) fs (fun q => q))

/-- LYGET (R186). -/
def execLyget (f : PForm) (s : State) : Res :=
  let fs := [(f.b, f.lrb)]
  let k := f.ls.toNat
  begin s f.g fs (regNames f.a 1) (fun s r m xs =>
    if m = 0 then finish s s fs (fun q => q)
    else
      let w := (laneOf (arg xs 0) ((lowestLane m).getD 0)).toNat
      if 64 ≤ w then layoutShape s r k 11 m
      else finish s s fs (writeOperand m f.a (tab (fun _ => recWord ((s.teamOf r).layout k).words w))))

/-- Indices of passing lanes below 2^n (R174). -/
def withIndices (s : State) (r : Round) (w : List Word) (lanes : List (Nat × Word)) (go : Res) : Res :=
  checkLanes s r 0x32 0 lanes (fun p => p.2.toNat < 2 ^ recN w) go

/-- LOC (R187): reasons 4, 5 and 6 do not count. -/
def execLoc (f : PForm) (s : State) : Res :=
  let fs := [(f.b, f.lrb)]
  let k := f.ls.toNat
  begin s f.g fs (regNames f.a 1) (fun s r m xs =>
    let w := ((s.teamOf r).layout k).words
    if m = 0 then finish s s fs (fun q => q)
    else
      withShape s r k (layoutReason { kinds := [], storage := false, alt := false } r.width w) m
        (withIndices s r w (laneValues m (arg xs 0))
          (finish s s fs (writeOperand m f.a (tab (fun l => BitVec.ofNat 64 (locationOf w (laneOf (arg xs 0) l).toNat)))))))

/-- The byte address of a slot in the buffer at base, and whether its element is a high nibble (R176). -/
def slotAddress (w : List Word) (slot : Nat) : Word := recBase w + BitVec.ofNat 64 (recEs w * slot / 8)
/-- Bytes that hold an element. -/
def elementBytes (w : List Word) : Nat := (recEs w + 7) / 8

/-- Passing lanes whose index is no phantom, with their slots. -/
def liveSlots (w : List Word) (lanes : List (Nat × Word)) : List (Nat × Nat) :=
  lanes.filterMap (fun p => if phantom w p.2.toNat then none else some (p.1, locationOf w p.2.toNat))

/-- The checks that TLD and TST share (R188, R189): the record with its scratchpad range (R181), then
the indices. -/
def withElements (s : State) (r : Round) (k : Nat) (w : List Word) (m : Mask) (lanes : List (Nat × Word)) (go : Res) : Res :=
  withShape s r k (layoutReason { kinds := [0, 1], storage := true, alt := false } r.width w) m
    (withAreas s r m (if recKind w = 1 then [(recBase w, [(recBase w, recSpan w)])] else []) (withIndices s r w lanes go))

/-- The element accesses of some lanes, each given with its slot and the addresses of the bytes that hold it; `data` is what a lane stores
(R176, R188, R189). -/
def elementPieces (w : List Word) (l : List (Nat × Nat × List Nat)) (data : Nat → Nat) : List Piece :=
  l.map (fun x =>
    { lane := x.1, ofs := 0, addrs := x.2.2, data := toBytes (elementBytes w) (data x.1), b := if recEs w = 4 then 1 + x.2.1 % 2 else 0, c := 0 })

/-- The scratchpad addresses of the elements at some slots. -/
def spadElements (w : List Word) (slots : List (Nat × Nat)) : List (Nat × Nat × List Nat) :=
  slots.map (fun p => (p.1, p.2, spadRange (slotAddress w p.2) (elementBytes w)))

/-- The physical addresses of the elements at some slots. -/
def memElements (slots : List (Nat × Nat)) (pas : List (Nat × List Nat)) : List (Nat × Nat × List Nat) :=
  slots.map (fun p => (p.1, p.2, pasOf pas p.1))

/-- What a TLD or a TST comes after (R189, R301): the round's earlier TX-path accesses to the bytes, and what a fence has shown to its TX
path. -/
def State.beforeElements (s : State) (spad : Bool) (bytes : List Nat) : State :=
  (s.settleTx s.cur s.nextId spad bytes).settleFor s.cur 1 spad bytes

/-- What a TLD of a record delivers: in each lane the bytes of its element, and in the lanes of phantom indices the pad (R188). -/
def padBytes (w : List Word) (m : Mask) (slots : List (Nat × Nat)) : SMap Byte :=
  ((lanesOf m).filter (fun l => !slots.any (fun p => p.1 == l))).foldl (fun acc l =>
    (toBytes 8 (recPad w % 2 ^ recEs w)).zipIdx.foldl (fun acc b => SMap.set acc (64 * l + b.2) b.1) acc) []

/-- The element accesses of a TLD: now, or left pending as an LD is (R189, R302). DESIGN CHOICE: log entry 9. -/
def loadElements (s0 s : State) (f : PForm) (fs : List Field) (m : Mask) (w : List Word) (slots : List (Nat × Nat)) (spad : Bool)
    (at_ : List (Nat × Nat × List Nat)) : Res :=
  let bytes := at_.flatMap (fun x => x.2.2)
  let s1 := s.beforeElements spad bytes
  let a : Access := { accessOf spad .load f.a 1 m 0 0 (elementPieces w at_ (fun _ => 0)) with path := 1, got := padBytes w m slots }
  if s1.late && !at_.isEmpty then leave s0 s1 fs a
  else
    let s2 := s1.readyReads s.cur 1 s1.nextId spad bytes
    onRound s2 (fun r =>
      let got := a.pieces.foldl (fun acc p =>
        (p.taken (s2.pointRead r spad p.addrs)).zipIdx.foldl (fun acc b => SMap.set acc (64 * p.lane + b.2) b.1) acc) a.got
      finish s0 s2 fs (fun q => { a with got := got }.deliver q))

/-- TLD (R188, R201). -/
def execTld (f : PForm) (s : State) : Res :=
  let fs := [(f.b, f.lrb)]
  let k := f.ls.toNat
  begin s f.g fs (regNames f.a 1) (fun s r m xs =>
    let w := ((s.teamOf r).layout k).words
    let lanes := laneValues m (arg xs 0)
    if m = 0 then finish s s fs (fun q => q)
    else
      withElements s r k w m lanes
        (let slots := liveSlots w lanes
         if recKind w = 1 then loadElements s s f fs m w slots true (spadElements w slots)
         else
           withPages s r m false (elementBytes w) (slots.map (fun p => (p.1, slotAddress w p.2))) (fun pas =>
             withClean s r pas (loadElements s s f fs m w slots false (memElements slots pas)))))

/-- Some units store at their point of coherence, in order. -/
def State.storePieces (s : State) (r : Round) (spad : Bool) (ps : List Piece) : State :=
  ps.foldl (fun s p => s.pointWrite r spad (p.addrs.zip (p.stored (s.pointRead r spad p.addrs)))) s

/-- The element accesses of a TST: now, or left pending (R189, R302). DESIGN CHOICE: log entry 9. -/
def storeElements (s0 s : State) (r : Round) (fs : List Field) (m : Mask) (w : List Word) (spad : Bool) (at_ : List (Nat × Nat × List Nat))
    (data : Nat → Nat) : Res :=
  let s1 := s.beforeElements spad (at_.flatMap (fun x => x.2.2))
  let ps := elementPieces w at_ data
  if s1.late && !at_.isEmpty then leave s0 s1 fs { accessOf spad .store 0 0 m 0 0 ps with path := 1 }
  else finish s0 (s1.storePieces r spad ps) fs (fun q => q)

/-- TST (R189). -/
def execTst (f : PForm) (s : State) : Res :=
  let fs := [(f.a, f.lra), (f.b, f.lrb)]
  let k := f.ld.toNat
  begin s f.g fs [] (fun s r m xs =>
    let w := ((s.teamOf r).layout k).words
    let lanes := laneValues m (arg xs 1)
    if m = 0 then finish s s fs (fun q => q)
    else if ((s.teamOf r).layout k).busy then placeBusy s r k m
    else
      withElements s r k w m lanes
        (let slots := liveSlots w lanes
         let data (l : Nat) : Nat := (laneOf (arg xs 0) l).toNat
         if recKind w = 1 then storeElements s s r fs m w true (spadElements w slots) data
         else
           withPages s r m true (elementBytes w) (slots.map (fun p => (p.1, slotAddress w p.2))) (fun pas =>
             storeElements s s r fs m w false (memElements slots pas) data)))

/-- PLQ's value (R200). -/
def plqValue (d l : List Word) : Word :=
  let n := recN d
  let dsing := gfRank n (recMatrix d) < n
  let sing := gfRank n (recMatrix l) < n
  BitVec.ofNat 64 (recProgress d + (if dsing || sing then 0 else 2 ^ 8 * (planOf d l).length)
    + (if sing then 2 ^ 10 else 0) + (if dsing then 2 ^ 11 else 0) + 2 ^ 16 * progCursor d)

/-- PLQ (R200). -/
def execPlq (f : PForm) (s : State) : Res :=
  let kd := f.ld.toNat
  let ks := f.ls.toNat
  begin s f.g [] (regNames f.a 1) (fun s r m _ =>
    let d := ((s.teamOf r).layout kd).words
    let l := ((s.teamOf r).layout ks).words
    if m = 0 then finish s s [] (fun q => q)
    else
      withShape s r kd (layoutReason { kinds := [0, 1, 2], storage := true, alt := recKind d != 2 } r.width d) m
        (withShape s r ks (sourceReason d l) m
          (finish s s [] (writeOperand m f.a (tab (fun _ => plqValue d l))))))

/-- A record whose plan begins (R193 order 7). -/
def startPlan (words : List Word) (target : List Word) (passes : List Pass) (running : Bool) : LayoutReg :=
  match passes with
  | [] => { words := setWord words 61 (clearCounts (recWord words 61)), plan := none }
  | _ =>
    { words := setWord words 61 (progressWord passes.length 0 running true false 0)
      plan := some { target := recMatrix target |>.map (BitVec.ofNat 64), offset := recWord target 56, passes := passes } }

/-- The record after a pass of its plan: the placement reached, done incremented, the plan over after its last pass
(R192, R195). -/
def finishPass (x : LayoutReg) (pl : Plan) (ps : Pass) (running : Bool) : LayoutReg :=
  let done := progDone x.words + 1
  let last := pl.passes.length ≤ done
  { words := setWord (applyPass ps x.words) 61 (progressWord pl.passes.length done (running && !last) (!last) false 0)
    plan := if last then none else some pl }

/-- The register image of a record in a round: the element at a slot (R176). -/
def regElement (w : List Word) (r : Round) (slot : Nat) : Nat :=
  let sub := slot % 2 ^ recSigma w
  let lane := slot / 2 ^ recSigma w % 2 ^ recLanebits w
  elem (recEs w) (laneOf (r.readV (recVbase w + slot / 2 ^ (recSigma w + recLanebits w))) lane) sub

/-- Register `reg` (from vbase) and lane of a register tensor after a pass: elements outside its slots stay (R176, R194). -/
def passedLane (x : Pass) (w : List Word) (r : Round) (reg lane : Nat) : Word :=
  let old := laneOf (r.readV (recVbase w + reg)) lane
  if 2 ^ recLanebits w ≤ lane then old
  else
    packElems (recEs w) ((List.range (64 / recEs w)).map (fun sub =>
      let slot := sub + 2 ^ recSigma w * (lane + 2 ^ recLanebits w * reg)
      if 2 ^ recN w ≤ slot then elem (recEs w) old sub
      else
        match passSource x w slot with
        | some src => regElement w r src
        | none => recPad w % 2 ^ recEs w))

/-- A pass of PLACE.R on the registers of the round, whatever the masks (R194). -/
def passRegisters (x : Pass) (w : List Word) (r : Round) : Round :=
  let names := (List.range (2 ^ recRho w)).map (fun k => recVbase w + k)
  { r with
    unwr := r.unwr || names.any (fun n => (SMap.find r.v n).isNone)
    v := names.zipIdx.foldl (fun v p => SMap.set v p.1 (tab (passedLane x w r p.2))) r.v }

/-- One pass of PLACE.R: the round stands at a pass boundary until its last pass, after which it goes on (R194). -/
def placeRegisters (s : State) (r : Round) (k : Nat) (x : LayoutReg) (pl : Plan) (write : Round → Round) : Res :=
  match pl.passes[progDone x.words]? with
  | none => finish s s [] write
  | some ps =>
    let r1 := passRegisters ps x.words r
    let x1 := finishPass x pl ps false
    if !s.rowsFit s.cur r1 then stall s r (.rows s.cur r1.rows)
    else
      let s1 := (s.setRound r1).modTeam r1 (fun t => t.setLayout k x1)
      if x1.plan.isNone then finish s1 s1 [] write else stall s1 r1 .pass

/-- Both buffers of PLACE.S lie in the allocation (R193). -/
def withBuffers (s : State) (r : Round) (m : Mask) (kind : Nat) (w : List Word) (go : Res) : Res :=
  withAreas s r m (if kind = 1 then [(recBase w, [(recBase w, recSpan w)]), (recAlt w, [(recAlt w, recSpan w)])] else []) go

/-- PLACE (R193 to R198). With `.nf` a `.step` that only continues sets its predicate true, where R193's order 2 says nothing of it
(DESIGN CHOICE, log entry 75). A `.step` of another round on a register record between two passes is accepted by order 2, and its pass
runs as a member (DESIGN CHOICE, log entry 77). -/
def execPlace (f : PForm) (s : State) : Res :=
  let kd := f.ld.toNat
  let ks := f.ls.toNat
  let kind := if f.cmp.toNat % 4 = 0 then 2 else if f.cmp.toNat % 4 = 1 then 1 else 0
  let step := f.cmp.getLsbD 2
  let nf := f.cmp.getLsbD 3
  begin s f.g [] [] (fun s r m _ =>
    let x := (s.teamOf r).layout kd
    let src := ((s.teamOf r).layout ks).words
    let w := x.words
    let n := recN w
    let good (q : Round) : Round := if nf then q.setPred (f.a.toNat % 8) m (BitVec.allOnes 64) else q
    let bad (q : Round) : Round := q.setPred (f.a.toNat % 8) m 0
    if m = 0 then finish s s [] (fun q => q)
    else if r.status == .waiting .pass then
      match x.plan with
      | some pl => placeRegisters s r kd x pl good
      | none => finish s s [] good
    else if x.busy && (!step || progRunning w) then placeBusy s r kd m
    else if x.busy then
      finish s (({ s with nextId := s.nextId + 1 } : State).modTeam r (fun t =>
          t.setLayout kd { x with words := setWord w 61 (progressWord (progCount w) (progDone w) true true false 0) })) []
        (fun q => good (q.enlist s.nextId (.place kd true)))
    else
      withShape s r kd (layoutReason { kinds := [kind], storage := true, alt := kind != 2 } r.width w) m
        (withShape s r ks (sourceReason w src) m
          (withBuffers s r m kind w
            (let rd := gfRank n (recMatrix w)
             let rs := gfRank n (recMatrix src)
             if rd < n || rs < n then
               if nf then finish s s [] bad
               else
                 takeTrap s r 0x30 (BitVec.ofNat 64 (kd + 2 ^ 8 * ks))
                   (BitVec.ofNat 64 (if rd < n then 2 ^ 8 * rd else 1 + 2 ^ 8 * rs)) 0 m
             else
               let passes := planOf w src
               let x1 := startPlan w src passes (kind != 2)
               let s1 := s.modTeam r (fun t => t.setLayout kd x1)
               match x1.plan with
               | none => finish s s1 [] good
               | some pl =>
                 if kind = 2 then
                   if ((List.range (2 ^ recRho w)).map (fun j => recVbase w + j)).any (fun v => (s.pendingNames s.cur r).contains v) then
                     stall s r .scoreboard
                   else if !s.rowsFit s.cur (passRegisters (pl.passes.headD { isX := true, rows := [], off := 0 }) w r) then
                     stall s r (.rows s.cur (passRegisters (pl.passes.headD { isX := true, rows := [], off := 0 }) w r).rows)
                   else placeRegisters s1 r kd x1 pl good
                 else
                   finish s { s1 with nextId := s.nextId + 1 } [] (fun q => good (q.enlist s.nextId (.place kd step)))))))

/-- Destination parcels of a pass (R176, R195). -/
def passParcels (w : List Word) : Nat := 2 ^ (recN w - recG w)

/-- Destination bytes of the listed parcels: offset in the buffer. -/
def parcelOffsets (w : List Word) (parcels : List Nat) : List Nat :=
  parcels.flatMap (fun p =>
    let size := (2 ^ recG w * recEs w + 7) / 8
    (List.range size).map (fun i => p * size + i))

/-- The source addresses of a byte of a pass's destination (R174, R195). -/
def passReads (x : Pass) (w : List Word) (i : Nat) : List Word :=
  let es := recEs w
  let at_ (slot k : Nat) : Word := recBase w + BitVec.ofNat 64 (es * slot / 8 + k)
  if es = 4 then [2 * i, 2 * i + 1].filterMap (fun slot => if 2 ^ recN w ≤ slot then none else (passSource x w slot).map (fun src => at_ src 0))
  else (passSource x w (i / (es / 8))).toList.map (fun src => at_ src (i % (es / 8)))

/-- A byte of a pass's destination, from its slots (R174, R195); a nibble outside the tensor keeps its value. -/
def passByte (s : State) (a : Agent) (m : Member) (x : Pass) (w : List Word) (i : Nat) : Got Byte :=
  let es := recEs w
  let srcKind := recKind w
  let read (slot k : Nat) : Got Byte :=
    s.memberByte a m srcKind (recBase w + BitVec.ofNat 64 (es * slot / 8 + k))
  let padByte (k : Nat) : Byte := BitVec.ofNat 8 (recPad w % 2 ^ es / 2 ^ (8 * k))
  if es = 4 then
    let half (slot : Nat) : Got Nat :=
      if 2 ^ recN w ≤ slot then
        (s.sourceByte a srcKind (recAlt w + BitVec.ofNat 64 i)).bind (fun b => .ok (b.toNat / 16))
      else
        match passSource x w slot with
        | none => .ok (recPad w % 16)
        | some src => (read src 0).bind (fun b => .ok (b.toNat / 2 ^ (4 * (src % 2)) % 16))
    ((half (2 * i)).both (half (2 * i + 1))).bind (fun x => .ok (BitVec.ofNat 8 (x.1 + 16 * x.2)))
  else
    let eb := es / 8
    match passSource x w (i / eb) with
    | none => .ok (padByte (i % eb))
    | some src => read src (i % eb)

/-- The defile path moves the listed parcels of a pass. -/
def movePass (s : State) (a : Agent) (m : Member) (x : Pass) (w : List Word) (parcels : List Nat) : Moved :=
  let gs := (parcelOffsets w parcels).map (fun i =>
    ((passByte s a m x w i).both (s.destByte a (recKind w) (recAlt w + BitVec.ofNat 64 i))).bind (fun y => Got.ok (y.2, y.1)))
  (gather gs).move (s.putBytes a)

/-- A plan that stops on a fault keeps the placement reached (R199). -/
def stopPlan (x : LayoutReg) : LayoutReg :=
  { words := setWord x.words 61 (progressWord (progCount x.words) (progDone x.words) false false true 0), plan := none }

/-- Changes a layout register of a round's team. -/
def State.setLayoutOf (s : State) (r : Round) (k : Nat) (x : LayoutReg) : State := s.modTeam r (fun t => t.setLayout k x)

/-- Whether new passes may begin: the round is not being stopped or saved (R171, R195). -/
def mayBegin (s : State) (r : Round) : Bool := r.stopReq.isNone && (s.teamOf r).status == .resident

/-- Writes the listed parcels of a member's running pass, and completes the pass with the last of `all`. `keep` lists source addresses
whose words other parcels need too (R169, R202). -/
def runParcels (round id k : Nat) (step : Bool) (x : LayoutReg) (pl : Plan) (ps : Pass) (todo all : List Nat) (keep : List Word)
    (s : State) : State :=
  match s.rounds[round]?, s.rounds[round]?.bind (fun r => r.member? id) with
  | some r, some m0 =>
    let a := s.agentOf round
    let m := s.readWords a (m0.work.sources (s.teamOf r)) keep m0
    match movePass s a m ps x.words todo with
    | .done s1 =>
      let moved := m.moved ++ todo
      if all.all (fun p => moved.contains p) then
        let x1 := finishPass x pl ps (!step && mayBegin s r)
        let s2 := s1.setLayoutOf r k x1
        if step || x1.plan.isNone then s2.setRoundAt round (r.finishMember id none).prune
        else s2.setRoundAt round (r.setMember { m with moved := [], read := [] })
      else
        let x1 := { x with words := setWord x.words 61 (progressWord (progCount x.words) (progDone x.words) true true false moved.length) }
        (s1.setLayoutOf r k x1).setRoundAt round (r.setMember { m with moved := moved })
    | .held => s
    | .missing pages va => memberOutcome s round m (fun s => s) (.missing pages va)
    | .fault va c => (memberOutcome s round m (fun s => s) (.fault va c)).setLayoutOf r k (stopPlan x)
  | _, _ => s

/-- PASS_COMPLETE (R195, R196, R199): the listed destination parcels are written, or all that remain; after the last of them the
pass completes as one event. -/
def execPassComplete (round member : Nat) (parcels : Option (List Nat)) (s : State) : Res :=
  match s.rounds[round]?, s.rounds[round]?.bind (fun r => r.member? member) with
  | some r, some m =>
    match m.service, m.work with
    | none, .place k step =>
      let x := (s.teamOf r).layout k
      match x.plan with
      | none => .next (s.setRoundAt round (r.finishMember member none).prune)
      | some pl =>
        match pl.passes[progDone x.words]? with
        | none => .next (s.setRoundAt round (r.finishMember member none).prune)
        | some ps =>
          if !progRunning x.words then
            if mayBegin s r then
              .next (s.setLayoutOf r k { x with words := setWord x.words 61 (progressWord (progCount x.words) (progDone x.words) true true false 0) })
            else .next s
          else
            let all := List.range (passParcels x.words)
            let todo := all.filter (fun p => !m.moved.contains p && (match parcels with | none => true | some l => l.contains p))
            let reads := (parcelOffsets x.words todo).flatMap (passReads ps x.words)
            let writes := (parcelOffsets x.words todo).map (fun i => recAlt x.words + BitVec.ofNat 64 i)
            .next (runParcels round member k step x pl ps todo all (if parcels.isNone then [] else reads)
              ((s.readyMember round m (recKind x.words) reads).readyWrite round m (recKind x.words) writes))
    | _, _ => .next s
  | _, _ => .next s

end Sys2Proof.Machine
end

