-- ==== Sys2Proof/Machine/Fences.lean ====
section
/-! DEFINITION. The fence between paths (R301, R302), opcode 0x10D. -/
namespace Sys2Proof.Machine

/-- Whether every access that round n issued on a path has taken effect (R301): LS 0, TX 1, CP 2, MX 3, FB 4, CR 5. DEDUCED: log entry 46. -/
def State.pathQuiet (s : State) (n : Nat) (r : Round) (path : Nat) : Bool :=
  match path with
  | 0 => true
  | 1 => !r.members.any Member.isTx
  | 2 => !r.members.any (fun m => !m.isTx)
  | 3 => r.drain.isEmpty
  | 4 =>
    r.sysCtr == 0 && !s.lines.any (fun x => x.round == n)
      && !s.colls.any (fun c => c.round == n && (c.state == .waiting || c.state == .running))
  | _ => !s.jobs.any (fun j => j.round == some n && (j.state == .waiting || j.state == .running))

/-- What a fence does at once for a path: the accesses of the LS or the TX path take effect, the FB path's lines drain. -/
def State.pushPath (s : State) (n path : Nat) : State :=
  match path with
  | 0 => s.pushLs n
  | 1 => s.pushTx n
  | 4 => s.drainLines (fun x => x.round == n)
  | _ => s

/-- FENCEX (R301): it waits for both paths, reports no fault record, and shows to each path what the other one finds. -/
def execFencex (f : IForm) (s : State) : Res :=
  let p := f.imm.toNat % 8
  let q := f.imm.toNat / 8 % 8
  begin s f.g [] [] (fun s _ _ _ =>
    let s1 := (s.pushPath s.cur p).pushPath s.cur q
    onRound s1 (fun r1 =>
      if s1.pathQuiet s.cur r1 p && s1.pathQuiet s.cur r1 q then finish s1 (s1.shows s.cur [p, q] [p, q]) [] (fun r => r)
      else stall s1 r1 .copies))

end Sys2Proof.Machine
end

