-- ==== Sys2Proof/Machine/SpecialFns.lean ====
section
/-! DEFINITION. The special functions of SFQ (R36): the exact function rounded once. A transcendental value is computed in
fixed point with 640 fraction bits and half a unit added below them, which settles every rounding that is not a tie
within 2^-600; the values that are exactly representable are settled first. -/
namespace Sys2Proof.Machine.Special

/-- Fraction bits of the fixed-point values. -/
def P : Nat := 640
/-- 1.0 in fixed point. -/
def one : Int := 2 ^ P
/-- Product of fixed-point values. -/
def mulF (a b : Int) : Int := a * b / one
/-- Quotient of fixed-point values. -/
def divF (a b : Int) : Int := a * one / b

/-- Σ x^k/k! for |x| ≤ 1. -/
def expLoop (x : Int) : Nat → Nat → Int → Int → Int
  | 0, _, _, acc => acc
  | n + 1, k, term, acc => if term = 0 then acc else expLoop x n (k + 1) (mulF term x / k) (acc + mulF term x / k)
def expF (x : Int) : Int := expLoop x 200 1 one one

/-- Σ (±1)^k x^(2k+1)/(2k+1): atanh for `alt` false, atan for `alt` true. -/
def atanLoop (x2 : Int) (alt : Bool) : Nat → Nat → Int → Int → Int
  | 0, _, _, acc => acc
  | n + 1, k, pow, acc =>
    if pow = 0 then acc
    else atanLoop x2 alt n (k + 1) (mulF pow x2)
      (if alt && k % 2 == 1 then acc - pow / (2 * k + 1) else acc + pow / (2 * k + 1))
def atanhF (x : Int) : Int := atanLoop (mulF x x) false 800 0 x 0
def ln2 : Int := 2 * atanhF (one / 3)
/-- π by Machin's formula. -/
def pi : Int := 16 * atanLoop (one / 25) true 800 0 (one / 5) 0 - 4 * atanLoop (one / 57121) true 800 0 (one / 239) 0

/-- Σ (-1)^k x^(2k+1)/(2k+1)! for 0 ≤ x ≤ 2. -/
def sinLoop (x2 : Int) : Nat → Nat → Int → Int → Int
  | 0, _, _, acc => acc
  | n + 1, k, term, acc =>
    if term = 0 then acc
    else sinLoop x2 n (k + 1) (mulF term x2 / ((2 * k) * (2 * k + 1)) * -1) (acc + mulF term x2 / ((2 * k) * (2 * k + 1)) * -1)
def sinF (x : Int) : Int := sinLoop (mulF x x) 200 1 x x

/-- Σ (-1)^n z^n/(n! (2n+1)): erf(x) = 2x/√π times this at z = x². -/
def erfLoop (z : Int) : Nat → Nat → Int → Int → Int
  | 0, _, _, acc => acc
  | n + 1, k, term, acc =>
    if term = 0 then acc
    else erfLoop z n (k + 1) (mulF term z / k * -1) (acc + mulF term z / k * -1 / (2 * k + 1))
def erfSeries (z : Int) : Int := erfLoop z 1200 1 one one

/-- Square root in fixed point. -/
def sqrtF (a : Int) : Int := isqrt (a.toNat * 2 ^ P)

/-- A fixed-point value as an exact result, half a unit added so that no rounding takes it for exact. DEDUCED: log entry 8. -/
def approx (v : Int) (shift : Int) : XVal :=
  let n : Int := 2 * v + 1
  if 0 ≤ shift then .rat (n < 0) (n.natAbs * 2 ^ shift.toNat) (2 ^ (P + 1))
  else .rat (n < 0) n.natAbs (2 ^ (P + 1 + (-shift).toNat))

/-- A dyadic number in fixed point. -/
def fixed (x : Dy) : Int := if 0 ≤ x.e + P then x.m * 2 ^ (x.e + P).toNat else x.m / 2 ^ (-(x.e + P)).toNat

/-- Integer part and fraction of a dyadic number in fixed point. -/
def floorF (v : Int) : Int × Int := (v / one, v % one)

/-- 2^v for a fixed-point v: a mantissa in [1, 2) and an exponent. -/
def exp2F (v : Int) : Int × Int := (expF (mulF (floorF v).2 ln2), (floorF v).1)

/-- e^v for a fixed-point v, scaled to fixed point; v ≤ 0. -/
def expNeg (v : Int) : Int :=
  let (m, k) := exp2F (divF v ln2)
  if 0 ≤ k then m * 2 ^ k.toNat else m / 2 ^ (-k).toNat

/-- 1 in a result. -/
def xOne (neg : Bool) : XVal := .rat neg 1 1
/-- The least magnitude: rounds to a zero of its sign. -/
def xTiny (neg : Bool) : XVal := .rat neg 1 (2 ^ 300)
/-- A magnitude beyond the range. -/
def xHuge (neg : Bool) : XVal := .rat neg (2 ^ 200) 1

/-- sin(2π r) for the fixed-point r in [0, 1), with exact zeros and ones settled. -/
def sinTurns (r : Int) (zeroNeg : Bool) : XVal :=
  let quarter := one / 4
  if r = 0 || r = 2 * quarter then .zero zeroNeg
  else if r = quarter then xOne false
  else if r = 3 * quarter then xOne true
  else
    let neg := 2 * quarter < r
    let h := if neg then r - 2 * quarter else r
    let q := if quarter < h then 2 * quarter - h else h
    let v := sinF (2 * mulF q pi)
    if neg then approx (-v - 1) 0 else approx v 0

/-- erf of a finite nonzero value, as a fixed-point value. -/
def erfF (x : Int) : Int := divF (2 * mulF x (erfSeries (mulF x x))) (sqrtF pi)

/-- The exact function of code `fn` at a finite nonzero x (R36). -/
def finiteFn (fn : Nat) (x : Dy) : XVal :=
  let neg := x.m < 0
  let v := fixed x
  let big (n : Nat) : Bool := (n : Int) * one ≤ (fixed x.abs)
  match fn with
  | 0 =>
    if big 200 then (if neg then xTiny false else xHuge false)
    else if (floorF v).2 = 0 then
      (if 0 ≤ (floorF v).1 then .rat false (2 ^ (floorF v).1.toNat) 1 else .rat false 1 (2 ^ (-(floorF v).1).toNat))
    else let (m, k) := exp2F v; approx m k
  | 1 =>
    if neg then .nan
    else
      let e := x.log2
      let m := if 0 ≤ P - e + x.e then x.m * 2 ^ ((P : Int) - e + x.e).toNat else x.m / 2 ^ (-((P : Int) - e + x.e)).toNat
      if m = one then (Dy.ofInt e).toX false
      else approx (e * one + divF (2 * atanhF (divF (m - one) (m + one))) ln2) 0
  | 5 => if neg then
      (match sinTurns ((-v) % one) true with
       | .rat a n d => .rat (!a) n d
       | y => y)
    else sinTurns (v % one) false
  | 6 => sinTurns ((v + one / 4) % one) false
  | 7 =>
    if big 64 then xOne neg
    else
      let e := expNeg (-2 * fixed x.abs)
      let y := divF (one - e) (one + e)
      if neg then approx (-y - 1) 0 else approx y 0
  | 8 =>
    if big 128 then (if neg then xTiny false else xOne false)
    else
      let e := expNeg (-(fixed x.abs))
      approx (if neg then divF e (one + e) else divF one (one + e)) 0
  | 9 =>
    if big 16 then (if neg then xTiny true else x.toX false)
    else approx (mulF v (one + mulF (mulF v (sqrtF (divF (2 * one) pi))) (erfSeries (mulF v v / 2))) / 2) 0
  | 10 =>
    if big 128 then (if neg then xTiny true else x.toX false)
    else
      let e := expNeg (-(fixed x.abs))
      approx (mulF v (if neg then divF e (one + e) else divF one (one + e))) 0
  | _ => if big 7 then xOne neg else approx (erfF v) 0

/-- The function of code `fn` on an FP32 pattern (R36). Codes: 0 EXP2, 1 LOG2, 2 RCP, 3 RSQ, 4 SQRT, 5 SIN2PI, 6 COS2PI,
7 TANH, 8 SIGM, 9 GELU, 10 SILU, 11 ERF (R61). -/
def eval (fn x : Nat) : Nat :=
  let f := Fmt.fp32
  match f.value x with
  | .nan => f.nan
  | .inf neg =>
    match fn with
    | 0 => if neg then 0 else f.infBits
    | 1 => if neg then f.nan else f.infBits
    | 2 => f.signed neg 0
    | 3 => if neg then f.nan else 0
    | 4 => if neg then f.nan else f.infBits
    | 5 => f.nan
    | 6 => f.nan
    | 7 => f.round .rne false (xOne neg)
    | 8 => if neg then 0 else f.round .rne false (xOne false)
    | 9 => if neg then f.signed true 0 else f.infBits
    | 10 => if neg then f.signed true 0 else f.infBits
    | _ => f.round .rne false (xOne neg)
  | .fin neg 0 _ =>
    match fn with
    | 0 => f.round .rne false (xOne false)
    | 1 => f.signed true f.infBits
    | 2 => f.signed neg f.infBits
    | 3 => f.signed neg f.infBits
    | 6 => f.round .rne false (xOne false)
    | 8 => f.round .rne false (.rat false 1 2)
    | _ => f.signed neg 0
  | .fin neg m e =>
    let num := if 0 ≤ e then m * 2 ^ e.toNat else m
    let den := if 0 ≤ e then 1 else 2 ^ (-e).toNat
    match fn with
    | 2 => f.round .rne false (.rat neg den num)
    | 3 => if neg then f.nan else f.roundSqrt false den num
    | 4 => if neg then f.nan else f.roundSqrt false num den
    | _ => f.round .rne false (finiteFn fn (FVal.fin neg m e).dy)

end Sys2Proof.Machine.Special
end

