-- ==== Sys2Proof/Machine/Sfq.lean ====
section
/-! DEFINITION. The special-function queue (R257 to R261), opcodes 0x1C0 to 0x1C2. -/
namespace Sys2Proof.Machine

/-- Entries of a quadrant's queue, and those in use (R258). -/
def sfqEntries : Nat := 32
def State.sfqUsed (s : State) (r : Round) : Nat :=
  s.rounds.foldl (fun acc q =>
    if q.core == r.core && q.quadrant == r.quadrant then acc + q.tokens.length * (q.width / 16) else acc) 0

/-- Whether a token is pending (R258). -/
def Round.tokenBusy (r : Round) (k : Nat) : Bool := r.tokens.any (fun t => t.token == k)

/-- Whether every token of a mask is free (R259). -/
def Round.tokensFree (r : Round) (mask : Nat) : Bool := r.tokens.all (fun t => !mask.testBit t.token)

/-- SFQ (R258): the token check comes first, whatever the guard; the sources are read now, the result lands later. -/
def execSfq (f : IForm) (s : State) : Res :=
  let fs := [iA f]
  let k := f.imm.toNat % 16
  onRound s (fun r0 =>
  if r0.tokenBusy k then takeTrap s r0 0x10 (BitVec.ofNat 64 k) 0 0 (r0.passing f.g)
  else
  begin s f.g fs (regNames f.d 1) (fun s r m xs =>
    if m = 0 then finish s s fs (fun q => q)
    else if sfqEntries < s.sfqUsed r + r.width / 16 then stall s r .engine
    else
      finish s s fs (fun q =>
        let q1 := writeOperand m f.d (q.readV f.d.toNat) q
        { q1 with tokens := q1.tokens ++ [{ token := k, fn := f.imm.toNat / 16 % 16, dst := f.d.toNat, mask := m, vals := arg xs 0 }] })))

/-- The FP32 results of one request in every lane (R36). -/
def sfqResult (t : SfqReq) : Lanes := tab (fun l => mapElems1 32 (Special.eval t.fn) (laneOf t.vals l))

/-- SFQ_RESULT_LAND (R258): the result of a token's request lands in its register, and the token is free. -/
def execSfqResultLand (round token : Nat) (s : State) : Res :=
  match s.rounds[round]?, s.rounds[round]?.bind (fun r => r.tokens.find? (fun t => t.token == token)) with
  | some r, some t =>
    .next (s.setRoundAt round { r with
      v := SMap.set r.v t.dst (mergeLanes t.mask (sfqResult t) (r.readV t.dst))
      tokens := r.tokens.filter (fun x => x.token != token) })
  | _, _ => .next s

/-- The six paths of R57. -/
def allPaths : List Nat := [0, 1, 2, 3, 4, 5]

/-- SFWAIT (R259): the named tokens, then a fence of every path to every path. -/
def execSfwait (f : IForm) (s : State) : Res :=
  begin s f.g [] [] (fun s r _ _ =>
    if !r.tokensFree f.imm.toNat then stall s r .tokens
    else
      let s1 := allPaths.foldl (fun s p => s.pushPath s.cur p) s
      onRound s1 (fun r1 =>
        if allPaths.all (fun p => s1.pathQuiet s.cur r1 p) then finish s1 (s1.shows s.cur allPaths otherPaths) [] (fun q => q)
        else stall s1 r1 .copies))

/-- SFPOLL (R259). -/
def execSfpoll (f : IForm) (s : State) : Res :=
  registerOnly s f.g [] [] (fun m _ r =>
    r.setPred (f.d.toNat % 8) m (if r.tokensFree f.imm.toNat then BitVec.allOnes 64 else 0))

end Sys2Proof.Machine
end

