-- ==== Sys2Proof/Machine/Shake.lean ====
section
/-! DEFINITION. SHAKE256 (FIPS 202), which R327, R340 and R341 use. -/
namespace Sys2Proof.Machine

/-- One step of the shift register that gives the bits of the round constants (FIPS 202, 3.2.5): the polynomial
x^8 + x^6 + x^5 + x^4 + 1. -/
def lfsrStep (r : Nat) : Nat := if r < 128 then 2 * r else Nat.xor (2 * r) 0x171

/-- The next n bits of the register. -/
def lfsrBits : Nat → Nat → List Bool
  | 0, _ => []
  | n + 1, r => r.testBit 0 :: lfsrBits n (lfsrStep r)

/-- The constant of round i: bit 2^j - 1 is bit j + 7i of the register's output (FIPS 202, 3.2.5). -/
def iotaConstants : List Word :=
  let bits := lfsrBits 168 1
  (List.range 24).map (fun i =>
    BitVec.ofNat 64 ((List.range 7).foldl (fun acc j => if bits.getD (7 * i + j) false then acc + 2 ^ (2 ^ j - 1) else acc) 0))

/-- Lanes in the order of the walk (x, y) → (y, 2x + 3y) from (1, 0), with the rotation (t + 1)(t + 2)/2 of step t (FIPS 202, 3.2.2). -/
def rhoWalk : Nat → Nat → Nat → Nat → List (Nat × Nat)
  | 0, _, _, _ => []
  | n + 1, t, x, y => (x + 5 * y, (t + 1) * (t + 2) / 2 % 64) :: rhoWalk n (t + 1) y ((2 * x + 3 * y) % 5)

/-- The rotation of lane x + 5y; lane 0 is not rotated. -/
def rhoOffset (lane : Nat) : Nat := (((rhoWalk 24 0 1 0).find? (fun p => p.1 == lane)).map (fun p => p.2)).getD 0

/-- Lane (x, y) of a state, indices modulo 5. -/
def laneAt (a : List Word) (x y : Nat) : Word := a.getD (x % 5 + 5 * (y % 5)) 0

/-- The step mappings θ, ρ, π, χ and ι of one round. -/
def permuteRound (rho : List Nat) (a : List Word) (iota : Word) : List Word :=
  let column (x : Nat) : Word := (List.range 5).foldl (fun acc y => acc ^^^ laneAt a x y) 0
  let columns := (List.range 5).map column
  let parity := (List.range 5).map (fun x => columns.getD ((x + 4) % 5) 0 ^^^ (columns.getD ((x + 1) % 5) 0).rotateLeft 1)
  let turned := (a.zip rho).zipIdx.map (fun p => (p.1.1 ^^^ parity.getD (p.2 % 5) 0).rotateLeft p.1.2)
  let moved := (List.range 25).map (fun i => laneAt turned (i % 5 + 3 * (i / 5)) (i % 5))
  let mixed := (List.range 25).map (fun i =>
    laneAt moved (i % 5) (i / 5) ^^^ (laneAt moved (i % 5 + 2) (i / 5) &&& ~~~(laneAt moved (i % 5 + 1) (i / 5))))
  mixed.modify 0 (fun x => x ^^^ iota)

/-- The 24 rounds of the permutation on 25 lanes. -/
def permute (a : List Word) : List Word :=
  let rho := (List.range 25).map rhoOffset
  iotaConstants.foldl (permuteRound rho) a

/-- Bytes of a block of SHAKE256. -/
def shakeRate : Nat := 136

/-- Absorbs n whole blocks. -/
def absorb : Nat → List Word → List Byte → List Word
  | 0, a, _ => a
  | n + 1, a, b =>
    let block := (List.range 25).map (fun i => BitVec.ofNat 64 (ofBytes (((b.take shakeRate).drop (8 * i)).take 8)))
    absorb n (permute ((a.zip block).map (fun p => p.1 ^^^ p.2))) (b.drop shakeRate)

/-- The padded message of SHAKE256: suffix 1111 and pad10*1 to a multiple of the block. -/
def shakePad (b : List Byte) : List Byte :=
  let z := shakeRate - 1 - b.length % shakeRate
  if z = 0 then b ++ [0x9F] else b ++ [0x1F] ++ List.replicate (z - 1) 0 ++ [0x80]

/-- The first n bytes of SHAKE256's output, at most one block. -/
def shake (n : Nat) (b : List Byte) : List Byte :=
  let p := shakePad b
  ((absorb (p.length / shakeRate) (List.replicate 25 0) p).flatMap (fun w => toBytes 8 w.toNat)).take n

/-- SHAKE256 with the 64 bytes of output that R327 and R341 name. -/
def shake256 (b : List Byte) : List Byte := shake 64 b

end Sys2Proof.Machine
end

