-- ==== Sys2Proof/Machine/System.lean ====
section
/-! DEFINITION. The capability list and the SYS instructions (R266, R324 to R327, R339, R340), opcodes 0x213 and 0x300 to 0x307:
return from a trap, status writes, translations, rank tables and team contexts. -/
namespace Sys2Proof.Machine

/-- Word w of the capability list (R340). -/
def capWord (s : State) (r : Round) (w : Nat) : Word :=
  let e := w / 2
  let features : Nat :=
    match e with
    | 0 => 0x3F + 17 * 2 ^ 8
    | 1 => 0x77F
    | 2 => 0x7E
    | 3 => 4096
    | 4 => 1024 + 2 ^ 32 * (s.package.number % 1024)
    | 5 => (s.teamOf r).part % 16 + 2 ^ 8 * s.parts.length
    | 6 => 16
    | 7 => 3
    | _ => if (s.partOf r).diag then 1 else 0
  if 9 ≤ e then 0
  else if w % 2 = 0 then BitVec.ofNat 64 (e + 1 + 2 ^ 8 * 0x10 + 2 ^ 16 * 16 + 2 ^ 32 * (if e = 8 then 0 else 16 * (e + 1)))
  else BitVec.ofNat 64 features

/-- Word w of the readiness map (R338). -/
def readyWord (s : State) (w : Nat) : Word := SMap.get s.package.ready 0 w

/-- CAPRD (R339). -/
def execCaprd (f : IForm) (s : State) : Res :=
  begin s f.g [(f.a, false)] (regNames f.d 1) (fun s r m xs =>
    let w := (lowValue m xs 0).toNat
    finish s s [] (writeOperand m f.d (tab (fun _ => if f.imm.getLsbD 0 then readyWord s w else capWord s r w))))

/-- ILLEGAL_FIELD with the value flag or the request flag (R324). DEDUCED: log entry 57. -/
def valueFault (s : State) (r : Round) (m : Mask) : Res := takeTrap s r 0x02 0x100 0 0 m
def requestFault (s : State) (r : Round) (m : Mask) : Res := takeTrap s r 0x02 0x200 0 0 m

/-- The start of a SYS instruction of R format (R324): it acts once when a lane passes, on the lowest passing lane's operands. -/
def system (f : RForm) (s : State) (touched : List Nat) (k : State → Round → Mask → Word → Word → Word → Res) : Res :=
  let fs : List Field := [(f.a, false), (f.b, false), (f.c, false)]
  begin s f.g fs touched (fun s r m xs =>
    if m = 0 then finish s s [] (fun q => q) else k s r m (lowValue m xs 0) (lowValue m xs 1) (lowValue m xs 2))

/-- Whether a word has bits only where a register's fields lie: bits hi to lo, and bits below 2^low. -/
def onlyBits (a : Word) (hi lo low : Nat) : Bool := a.toNat < 2 ^ (hi + 1) && decide (a.toNat % 2 ^ lo < 2 ^ low)

/-- Changes every die of a partition. DESIGN CHOICE: log entry 21. -/
def State.modDies (s : State) (p : Partition) (f : Die → Die) : State :=
  { s with dies := s.dies.zipIdx.map (fun x => if p.dies.getLsbD x.2 then f x.1 else x.1) }

/-- The size 2^k of a partition's trap queue (R323, R326). -/
def Partition.ring (p : Partition) : Nat := 2 ^ bits p.trapq 3 0

/-- WRSR (R326): none for a value outside its register's ranges. A read-only register keeps its value; the context pool is that of
every die of the image round's partition. -/
def writeStatus (s : State) (p : Partition) (n : Nat) (a : Word) : Option State :=
  match n with
  | 0x101 => if onlyBits a 51 14 0 then some (s.setPart { p with ptroot := a }) else none
  | 0x102 =>
    if onlyBits a 56 12 4 && decide (6 ≤ bits a 3 0) then some (s.setPart { p with trapq := a }) else none
  | 0x103 => some (s.setPart { p with tail := bits a 31 16 % p.ring })
  | 0x104 => if onlyBits a 56 12 0 then some (s.modDies p (fun d => { d with ctxpool := a, poolSet := true })) else none
  | 0x105 => if onlyBits a 47 12 0 then some (s.modDies p (fun d => { d with ctxsize := a })) else none
  | _ => some s

/-- WRSR (R324, R326). -/
def execWrsr (f : IForm) (s : State) : Res :=
  begin s f.g [(f.a, false)] [] (fun s r m xs =>
    if m = 0 then finish s s [] (fun q => q)
    else
      match writeStatus s (s.partOf r) (f.imm.toNat % 2 ^ 12) (lowValue m xs 0) with
      | none => valueFault s r m
      | some s1 => finish s s1 [] (fun q => q))

/-- The rounds that a handle names in a partition, with their positions (R306): of teams that exist. A context that was loaded twice gives two
of them (DESIGN CHOICE, log entry 83). -/
def State.roundsNamed (s : State) (part : Nat) (h : Word) : List (Round × Nat) :=
  s.rounds.zipIdx.filter (fun x =>
    x.1.handle.toNat == h.toNat && (s.teamOf x.1).part == part && (s.teamOf x.1).status != .ended)

/-- The first of them. -/
def State.roundNamed (s : State) (part : Nat) (h : Word) : Option Nat := ((s.roundsNamed part h).head?).map (fun x => x.2)

/-- The first of them that is parked (R325). -/
def State.parkedNamed (s : State) (part : Nat) (h : Word) : Option (Nat × Round × Park) :=
  (s.roundsNamed part h).findSome? (fun x => match x.1.status with | .parked p => some (x.2, x.1, p) | _ => none)

/-- Round n of a list of rounds is killed: it leaves the live set, its waits and its barriers' waiters, and its jobs stop (R252, R325,
R358). -/
def State.markKilled (s : State) (n : Nat) : State :=
  match s.rounds[n]? with
  | none => s
  | some r =>
    if r.live = 0 then s
    else
      let r1 : Round := { r with live := 0, cur := 0, stack := [], clause := none, fetched := none, sleep := 0, status := .ending }
      let s1 : State := { s with dies := s.dies.map (fun d => { d with semq := d.semq.filter (fun w => w.round != n) }) }
      let s2 := ((s1.stopJobs n).setRoundAt n r1).setTeam r.team
        (let t := s.teamOf r
         { t with bars := t.bars.map (fun b => { b with waiters := b.waiters &&& ~~~(BitVec.ofNat 32 (2 ^ r.rix)) }) })
      let g := (s2.teamOf r1).gang
      s2.setGang g { s2.gang g with waiters := (s2.gang g).waiters.filter (fun w => w != n) }

/-- Round n goes on at instruction i of its clause (R102, R325); where it leaves the clause, a YIELD in it gives way (R96). -/
def State.resumeAt (s : State) (n i : Nat) (r : Round) : State :=
  { ({ s with cur := n } : State).stand (returnTo s.now i r) with cur := s.cur }

/-- The rounds of a partition that wait for a page that a service request asked for, and met it on the same die, replay (R288). -/
def State.wakeAsked (s : State) (part : Nat) (asker : Park) : State :=
  s.rounds.zipIdx.foldl (fun s x =>
    match x.1.status with
    | .parked p =>
      if p.service && p.die == asker.die && (s.teamOf x.1).part == part && p.pages.any asker.asked.contains then
        s.resumeAt x.2 p.resume x.1
      else s
    | _ => s) s

/-- Kills rounds of one team: all of them leave the live set before the barriers are tested (R252, R325). Rounds that waited for a page that
one of them had asked for ask anew (R288). -/
def State.killRounds (s : State) (ns : List Nat) : State :=
  let live := ns.filter (fun n => (s.rounds[n]?.map (fun r => r.live != 0)).getD false)
  let gone := live.filterMap (fun n => s.rounds[n]?)
  let s1 := live.foldl State.markKilled s
  let s2 := (live.findSome? (fun n => s1.rounds[n]?)).elim s1 s1.lanesGone
  gone.foldl (fun s1 r =>
    match r.status with
    | .parked p => s1.wakeAsked (s.teamOf r).part p
    | _ => s1) s2

/-- Kills a round, or every round of a team (R325). -/
def State.killRound (s : State) (n : Nat) : State := s.killRounds [n]
def State.killTeam (s : State) (team : Nat) : State := s.killRounds ((s.roundsOf team).map (fun q => q.1))

/-- RETURN FROM A TRAP (R325): the action on a parked round; none where it does not suit the entry. -/
def State.answerParked (s : State) (n : Nat) (r : Round) (p : Park) (action : Nat) : Option State :=
  match action with
  | 0 => some (s.resumeAt n p.resume r)
  | 1 => if p.service || !p.canStep then none else some (s.resumeAt n (p.trap.index + 1) r)
  | 2 => some (s.killRound n)
  | 3 => some (s.killTeam r.team)
  | _ =>
    if p.service then
      some { parkTrap { s with cur := n } r { p.trap with cause := 0x60 } r.clause.isSome p.resume with cur := s.cur }
    else none

/-- An action on a parked round, with what it does to the others that wait for the same pages (R288, R325). -/
def State.answerRound (s : State) (n : Nat) (r : Round) (p : Park) (action : Nat) : Option State :=
  (s.answerParked n r p action).map (fun s1 => s1.wakeAsked (s.teamOf r).part p)

/-- A member's service has been answered: it tries again. -/
def Member.retry (m : Member) : Member := { m with service := none }

/-- Ends a pending service request (R393): action 0 lets the access try again, action 4 records PAGE_NOT_PRESENT. -/
def State.answerService (s : State) (v : Service) (fail : Bool) : State :=
  let s1 := { s with services := s.services.filter (fun x => x.handle != v.handle) }
  match v.work with
  | .member n id =>
    match s1.rounds[n]?, s1.rounds[n]?.bind (fun r => r.member? id) with
    | some r, some m =>
      if fail then
        let s2 := s1.setRoundAt n (r.finishMember id (some { kind := m.work.kind, addr := v.addr, cause := 0x60 }))
        match m.work with
        | .place k _ => s2.setLayoutOf r k (stopPlan ((s2.teamOf r).layout k))
        | _ => s2
      else s1.setRoundAt n (r.setMember m.retry)
    | _, _ => s1
  | .node n =>
    if fail then
      s1.modNode n (fun x => { x with work := x.work.map Member.retry, fault := some { kind := x.record.kind, addr := v.addr, cause := 0x60 } })
    else s1.modNode n (fun x => { x with work := x.work.map Member.retry })
  | .courier job segment => if fail then s1.failSegment job segment v.addr else s1
  | .collective c => if fail then s1.failColl c v.addr else s1
  | .manifest n => if fail then s1.manifestDead n else s1

/-- ERET (R325, R393). -/
def execEret (f : RForm) (s : State) : Res :=
  system f s [] (fun s r m a b _ =>
    let part := (s.teamOf r).part
    if 4 < b.toNat then valueFault s r m
    else if a.toNat < 2 ^ 32 && a.getLsbD 15 then
      match s.services.find? (fun v => v.handle == a.toNat && v.part == part) with
      | none => finish s s [] (fun q => q)
      | some v => if b = 0 || b = 4 then finish s (s.answerService v (b == 4)) [] (fun q => q) else valueFault s r m
    else
      match s.parkedNamed part a with
      | none => finish s s [] (fun q => q)
      | some (n, q, p) =>
        match s.answerRound n q p b.toNat with
        | none => valueFault s r m
        | some s1 => finish s s1 [] (fun q => q))

/-- What used translations of a partition takes effect: pending accesses, buffered stores, and packets that land in its dies (R327). -/
def State.finishAccesses (s : State) (part : Nat) : State :=
  let s1 := s.performAll (fun _ r a => !a.spad && (s.teamOf r).part == part)
  (s1.drainStores (fun e => s1.roundIn e.round part)).completeLanding (fun f => (s.die f.packet.dstDie).part == some part)

/-- TLBI (R287, R327): its fence acts even when no lane passes (R45). -/
def execTlbi (f : RForm) (s : State) : Res :=
  let fs : List Field := [(f.a, false), (f.b, false), (f.c, false)]
  begin s f.g fs [] (fun s r m xs =>
    let part := (s.teamOf r).part
    let a := lowValue m xs 0
    let b := lowValue m xs 1
    if m != 0 && 1 < b.toNat then valueFault s r m
    else
      withRelease s 5 true m (fun s1 =>
        if m = 0 then finish s1 s1 [] (fun q => q)
        else
          let drop (e : TlbEntry) : Bool :=
            e.part == part && (b == 1 || (decide (e.va ≤ a.toNat) && decide (a.toNat < e.va + e.size)))
          let s2 := s1.finishAccesses part
          let s3 : State := { s2 with cores := s2.cores.map (fun c => (c.1, { c.2 with tlb := c.2.tlb.filter (fun e => !drop e) })) }
          finish s1 (s3.setPart { s3.part part with deadManifests := [] }) [] (fun q => q)))

/-- RTABW (R327). -/
def execRtabw (f : RForm) (s : State) : Res :=
  system f s [] (fun s r m a b c =>
    if 255 < a.toNat || 6143 < b.toNat || !entryOk c then valueFault s r m
    else finish s (s.writeEntry (s.teamOf r).part a.toNat (b.toNat, c)) [] (fun q => q))

/-- HALT (R327): an entry is pending while the image has not consumed it, or while it waits for room. -/
def execHalt (f : RForm) (s : State) : Res :=
  system f s [] (fun s r _ _ _ _ =>
    let p := s.partOf r
    if p.head != p.tail || !p.queue.isEmpty then finish s s [] (fun q => q) else stall s r .halt)

/-- DIAG (R266, R327): request 0x301 arms a read-path flip. ACC_HANDLE tells the slot's number, 0 in place of ABASE, and acc. DEDUCED: log
entry 44. -/
def execDiag (f : RForm) (s : State) : Res :=
  system f s [] (fun s r m a b _ =>
    if a != 0x301 || bits b 63 26 != 0 then requestFault s r m
    else
      let t := s.teamOf r
      let slot := bits b 25 17
      let key := slotKey t r slot
      if t.acc ≤ slot then takeTrap s r 0x41 (BitVec.ofNat 64 slot) 0 (BitVec.ofNat 64 t.acc) m
      else if t.fenced.contains key then takeTrap s r 0x42 (fencedInfo slot) 0 0 m
      else
        let flip : Flip := { slot := key, elem := 64 * bits b 16 11 + bits b 10 5, bit := bits b 4 0 }
        finish s (s.modTeam r (fun t => { t with flips := t.flips.filter (fun x => x.slot != key) ++ [flip] })) [] (fun q => q))

/-- The teams of a team's gang, which is saved whole, whatever node each is under (R268, R320). -/
def State.gangTeams (s : State) (team : Nat) : List Nat :=
  let g := (s.teams.getD team Team.blank).gang
  (s.teams.zipIdx.filter (fun x => x.2 == team || x.1.gang == g)).map (fun x => x.2)

/-- Asks the rounds of a team's gang for their contexts (R105, R312, R327). -/
def State.askSave (s : State) (team : Nat) (unload : Bool) : State :=
  let g := s.gangTeams team
  { s with
    teams := s.teams.zipIdx.map (fun x => if g.contains x.2 && x.1.status == .resident then { x.1 with status := .saving unload } else x.1)
    rounds := s.rounds.map (fun r =>
      if g.contains r.team && r.stopReq.isNone && r.status != .ended then { r with stopReq := some 0 } else r) }

/-- The bytes of a context (R327): its header, whose digest covers the body, and the body, which has no layout. DESIGN CHOICE: log entry 12. -/
def contextImage (c : SavedContext) : List Byte :=
  let body := (List.range (c.size - 128)).map (Config.contextByte c.id)
  [0x43, 0x54, 0x58, 0x31] ++ toBytes 4 c.size ++ toBytes 8 c.what.kernel.addr.toNat ++ toBytes 4 c.tix ++ toBytes 4 c.node
    ++ List.replicate 40 0 ++ shake256 body ++ body

/-- Starts of the pages that a range of n bytes meets. -/
def pagesOf (a : Word) (n : Nat) : List Word :=
  a :: (List.range (n / pageBytes + 1)).filterMap (fun i =>
    let p := pageOf a + BitVec.ofNat 64 (pageBytes * (i + 1))
    if (p - a).toNat < n then some p else none)

/-- Goes on when every page of a range can be reached; else PAGE_PERMISSION or service (R288, R327). -/
def withRange (s : State) (r : Round) (m : Mask) (write : Bool) (a : Word) (n : Nat) (k : Res) : Res :=
  let xs := (pagesOf a n).map (fun p => (p, s.xlat r write p))
  match xs.findSome? (fun x => match x.2 with | .refused f => some (x.1, f) | _ => none) with
  | some (p, f) => takeTrap s r 0x61 p (BitVec.ofNat 64 f) 0 m
  | none =>
    match xs.filterMap (fun x => match x.2 with | .missing l => some (x.1, l) | _ => none) with
    | q :: qs => .next (parkService s r ((q :: qs).foldl (fun acc x => insertPage (pageOf x.1) acc) []) m m q.1 q.2)
    | [] => if xs.any (fun x => x.2 == .held) then stall s r .engine else k

/-- Writes bytes at virtual addresses of the issuing round, whose pages have been checked, as plain stores that take effect at once. -/
def State.writeVirtual (s : State) (r : Round) (a : Word) (bytes : List Byte) : State :=
  let cells := bytes.zipIdx.filterMap (fun p =>
    match s.xlat r true (a + BitVec.ofNat 64 p.2) with
    | .ok pa => some (pa, p.1)
    | _ => none)
  let at_ := cells.map (fun c => c.1)
  ((s.orderBefore s.cur false at_).sendEarlier r.core at_).writeBytes cells

/-- What a context written now under a save's number stands for (R320, R327). -/
def State.contextOf (s : State) (team id size : Nat) : SavedContext :=
  let t := s.teams.getD team Team.blank
  { id := id, part := t.part, team := team, node := (s.nodeHandle t.node).toNat, tix := t.tix, size := size, what := t
    cluster := { s.gang t.gang with
      copyOf := some (t.gang, (s.gangTeams team).countP (fun k => (s.teams.getD k Team.blank).status != .ended)) }
    rounds := s.roundsOf team
    jobs := s.jobs.filter (fun j => (j.round.bind (fun n => s.rounds[n]?.map (fun r => r.team == team))).getD false) }

/-- CTXSV (R327): the team is stopped and saved as R320 gives; then its context is written. DEDUCED: log entry 58. -/
def execCtxsv (f : RForm) (s : State) : Res :=
  system f s (regNames f.d 1) (fun s r m a b _ =>
    match (s.roundNamed (s.teamOf r).part a).bind (fun n => s.rounds[n]?.map (fun q => q.team)) with
    | none => valueFault s r m
    | some team =>
      let t := s.teams.getD team Team.blank
      let z := contextBytes t.kernel t.pair
      if b.toNat % 4096 != 0 then takeTrap s r 0x61 b 0 0 m
      else
        withRange s r m true b z
          (match t.status with
           | .resident => stall (s.askSave team true) r .engine
           | .saving false =>
             stall { s with teams := s.teams.map (fun x => if x.gang == t.gang && x.status == .saving false then { x with status := .saving true } else x) }
               r .engine
           | .saving true => stall s r .engine
           | .ended => valueFault s r m
           | _ =>
             let size := 128 + min (Config.contextLength s.nextId) (z - 128)
             let c := s.contextOf team s.nextId size
             let others := s.gangTeams team
             let s1 : State := { s with
               nextId := s.nextId + 1
               contexts := s.contexts ++ [c]
               teams := s.teams.zipIdx.map (fun x => if others.contains x.2 && x.1.status == .saved then { x.1 with status := .unloaded } else x.1) }
             finish s ((s1.dropResumable others.contains).writeVirtual r b (contextImage c)) []
               (writeOperand m f.d (tab (fun _ => BitVec.ofNat 64 size)))))

/-- The issuing round reads n bytes, of any number of pages, as plain loads (R288, R289). -/
def withRangeRead (s : State) (r : Round) (m : Mask) (a : Word) (n : Nat) (k : State → Round → List Byte → Res) : Res :=
  withRange s r m false a n
    (let pas := (List.range n).map (fun i => match s.xlat r false (a + BitVec.ofNat 64 i) with | .ok pa => pa | _ => 0)
     withClean s r [((lowestLane m).getD 0, pas)]
       (let s1 := s.loadNow r pas
        onRound s1 (fun r1 => k s1 r1 (pas.map (Memory.read s1.mem)))))

/-- The gang that a copy of a context joins: one that copies its gang and lacks its member, else a new one (R268, R327). -/
def State.copyGang (s : State) (c : SavedContext) : State × Nat :=
  match s.gangs.zipIdx.find? (fun g =>
      g.1.copyOf == c.cluster.copyOf && !s.teams.any (fun t => t.gang == g.2 && t.member == c.what.member)) with
  | some g => (s, g.2)
  | none => ({ s with gangs := s.gangs ++ [{ c.cluster with arrived := [], waiters := [] }] }, s.gangs.length)

/-- A copied round (R327): it has outstanding what its context holds, and nothing of the round from which it was copied; where that one was
parked by a service request it replays (R288). -/
def Round.copied (now team : Nat) (r : Round) : Round :=
  let q : Round := { r with team := team, dieCtr := 0, pkgCtr := 0, sysCtr := 0, epochs := [] }
  match q.status with
  | .parked p => if p.service then returnTo now p.resume q else q
  | _ => q

/-- A context whose team is no longer as it was saved is added as a team of its own (R327): the state, and the team. Its rounds keep their
handles. DESIGN CHOICE: log entry 83. -/
def State.copyContext (s : State) (c : SavedContext) : State × Nat :=
  let team := s.teams.length
  let base := s.rounds.length
  let moved (l : List Nat) : List Nat := l.filterMap (fun n => (c.rounds.findIdx? (fun q => q.1 == n)).map (fun i => base + i))
  let (s1, g) := s.copyGang c
  let x := s1.gang g
  ({ s1.setGang g { x with arrived := x.arrived ++ moved c.cluster.arrived, waiters := x.waiters ++ moved c.cluster.waiters } with
     teams := s.teams ++ [{ c.what with gang := g, pool := 6, poolAt := [] }]
     rounds := s.rounds ++ c.rounds.map (fun q => Round.copied s.now team q.2)
     jobs := s.jobs ++ c.jobs.map (fun j => { j with round := j.round.bind (fun n => (moved [n]).head?) }) }, team)

/-- CTXLD (R327): the context at B must be one that this partition saved, and its kernel that of the node. A context that was the last save of
its team, unloaded since, is that team again. DEDUCED: log entry 58. -/
def execCtxld (f : RForm) (s : State) : Res :=
  system f s [] (fun s r m a b _ =>
    let part := (s.teamOf r).part
    match (s.liveNode part a.toNat).bind (fun n => s.nodes[n]?.map (fun x => (n, x))) with
    | none => nodeRecord s r m 11 a
    | some (n, x) =>
      withRangeRead s r m b 128 (fun s0 r0 head =>
        withRangeRead s0 r0 m b (max 128 (bytesAt head 4 4)) (fun s1 r1 bytes =>
          match s1.contexts.find? (fun c => c.part == part && c.size == bytesAt head 4 4 && contextImage c == bytes) with
          | none => nodeRecord s1 r1 m 16 b
          | some c =>
            if x.record.kind != 0 || c.what.kernel.addr != x.kernel.addr then nodeRecord s1 r1 m 16 b
            else
              let last := !s1.contexts.any (fun y => y.team == c.team && decide (c.id < y.id))
              let (s2, team) :=
                if last && (s1.teams.getD c.team Team.blank).status == .unloaded then (s1, c.team) else s1.copyContext c
              let t := s2.teams.getD team Team.blank
              let s3 := s2.setTeam team { t with node := some n, status := .saved }
              finish s (s3.modNode n (fun y => y.addResumable team)).refresh [] (fun q => q))))

end Sys2Proof.Machine
end

