-- ==== Sys2Proof/Machine/Teams.lean ====
section
/-! DEFINITION. Teams and rounds as they come and go: places, admission and restore, stopping and saving, the end of a round, and spills
(R79, R85, R89, R105, R148, R149, R171, R230, R305, R306, R320), with their events. -/
namespace Sys2Proof.Machine

/-- The free resources of a core (R148). -/
def State.roomOf (s : State) (core : Nat) : Room :=
  s.teams.foldl (fun f t =>
    if !t.status.present then f
    else
      let needs := teamNeeds t.kernel t.pair t.tagSets
      if t.core = core then f.sub (needs.getD 0 Room.empty)
      else if t.pair && t.core + 1 = core then f.sub (needs.getD 1 Room.empty)
      else f) Room.empty

/-- Whether the sorting office may use a core (R222, R338). -/
def State.coreUsable (s : State) (core : Nat) : Bool := s.isReady (core / 64) (core % 64) && !(s.core core).fencedSlot

/-- Whether a place holds one more team, given the room of every core; places are cores, or pairs named by their even core. -/
def placeFits (usable : Nat → Bool) (room : Nat → Room) (pair : Bool) (needs : List Room) (place : Nat) : Bool :=
  usable place && (room place).holds (needs.getD 0 Room.empty)
    && (!pair || (usable (place + 1) && (room (place + 1)).holds (needs.getD 1 Room.empty)))

/-- The room after a team has taken a place. -/
def takePlace (room : Nat → Room) (pair : Bool) (needs : List Room) (place : Nat) : Nat → Room := fun c =>
  if c = place then (room c).sub (needs.getD 0 Room.empty)
  else if pair && c = place + 1 then (room c).sub (needs.getD 1 Room.empty)
  else room c

/-- The places of a cluster, lowest first (R308). -/
def clusterPlaces (die cluster : Nat) (pair : Bool) : List Nat :=
  if pair then (List.range 4).map (fun i => 64 * die + 8 * cluster + 2 * i)
  else (List.range 8).map (fun i => 64 * die + 8 * cluster + i)

/-- Places for the g teams of one gang among the places of one cluster: the lowest that hold a team, all distinct, in ascending order
(R268, R308). -/
def gangPlaces (ok : Nat → Bool) (places : List Nat) (g : Nat) : Option (List Nat) :=
  let ps := (places.filter ok).take g
  if ps.length = g then some ps else none

/-- The room left once gangs of the given sizes have taken their places, each in the lowest cluster that holds it; none where one finds
none (R310). -/
def fitGangs (ok : (Nat → Room) → Nat → Bool) (pair : Bool) (needs : List Room) (clusters : List (List Nat)) :
    List Nat → (Nat → Room) → Option (Nat → Room)
  | [], room => some room
  | g :: gs, room =>
    match clusters.findSome? (fun c => gangPlaces (ok room) c g) with
    | none => none
    | some ps => fitGangs ok pair needs clusters gs (ps.foldl (takePlace · pair needs) room)

/-- Quadrant and slot for a new round of a core: quadrant q when it has room, else the one with the most free slots (R148). -/
def State.placeRound (s : State) (core q : Nat) : Nat × Nat :=
  let used (q : Nat) : List Nat :=
    (s.rounds.filter (fun r => r.core == core && r.quadrant == q && r.status != .ended && (s.teamOf r).status.present)).map (fun r => r.slot)
  let free (q : Nat) : Nat := 12 - (used q).length
  let best := (List.range 4).foldl (fun b q => if free b < free q then q else b) 0
  let q1 := if 0 < free q then q else best
  (q1, ((List.range 12).find? (fun k => !(used q1).contains k)).getD 0)

/-- The core and the preferred quadrant of round r of a team (R148, R255). -/
def roundPlace (t : Team) (rix : Nat) : Nat × Nat :=
  if t.pair then (t.core + rix % 2, rix / 2 % 4) else (t.core, rix % 4)

/-- A round before it starts (R79). -/
def Round.fresh (team rix width core quadrant slot : Nat) (handle : BitVec 32) (priv : Bool) (pc : Word) (s : List Word) : Round :=
  { team := team, rix := rix, handle := handle, width := width, priv := priv, core := core, quadrant := quadrant, slot := slot
    status := .ready, pc := pc, live := BitVec.ofNat 64 (2 ^ width - 1), cur := BitVec.ofNat 64 (2 ^ width - 1), stack := []
    clause := none, fetched := none, v := [], s := s, t := noTemps, p := List.replicate 7 0, window := []
    walkers := List.replicate 8 Walker.unbound, unwr := false, wdog := false, spilled := false, preempted := false, abase := 0
    latch := none, fifo := [], parts := List.replicate 2 { pending := false, fa := 0, fb := 0, ka := 0, kb := 0, vals := [] }
    last := 0, openBatch := { num := 0, members := [], fault := none, reported := false }, sealed := [], tokens := [], jlast := 0
    clast := 0, giveway := false, gapUntil := 0, sleep := 0, dieCtr := 0, pkgCtr := 0, sysCtr := 0, ageing := 4
    kept := none, epochs := [], drain := [], replies := [], remote := [], wave := 0, stopReq := none, pending := []
    yields := false }

/-- The s registers at the start of a launch (R77, R305): parameter k in s(120 + k), then the .data base in dreg. -/
def launchRegs (rec_ : NodeRec) (k : Kernel) : List Word :=
  let s := (List.range 8).foldl (fun l i => l.set (120 + i) (rec_.params.getD i 0)) (List.replicate 128 (0 : Word))
  if k.dreg < 128 then s.set k.dreg rec_.data else s

/-- A new handle of a core's round slot (R306): its sequence rises at each use. -/
def State.newHandle (s : State) (die core slot48 : Nat) (dieField : Nat) : State × BitVec 32 :=
  let d := s.die die
  let key := 4096 + 4096 * dieField + 48 * core + slot48
  let sq := (SMap.get d.slotSeq 0 key + 1) % 2 ^ 16
  (s.setDie die { d with slotSeq := SMap.set d.slotSeq key sq },
   BitVec.ofNat 32 (core + 2 ^ 6 * slot48 + 2 ^ 12 * dieField + 2 ^ 16 * sq))

/-- Adds the rounds of a new team (R79). -/
def State.addRounds (s : State) (team : Nat) (t : Team) (n : Node) : List Nat → State
  | [] => s
  | rix :: rest =>
    let (core, q0) := roundPlace t rix
    let (q, slot) := s.placeRound core q0
    let (s1, h) := s.newHandle (core / 64) (core % 64) (12 * q + slot) (core / 64)
    let r := Round.fresh team rix t.kernel.width core q slot h false (BitVec.ofNat 64 (n.record.text.toNat / 8 + t.kernel.entry))
      (launchRegs n.record t.kernel)
    State.addRounds { s1 with rounds := s1.rounds ++ [r] } team t n rest

/-- A new team (R148, R149), which has no reservation yet. -/
def Team.fresh (n : Option Nat) (tix gang member part core : Nat) (pair : Bool) (k : Kernel) (tags admission : Nat) : Team :=
  { node := n, tix := tix, gang := gang, member := member, part := part, status := .resident, core := core, pair := pair, kernel := k
    spad := Memory.writeList [] 0 k.sdata, spadSize := k.spad, tagSets := tags, tags := [], recency := []
    bars := List.replicate 16 Barrier.reset, layouts := List.replicate 32 LayoutReg.empty, slots := [], acc := k.acc, zslots := k.zslots
    windows := List.replicate 4 Window.reset, flips := [], fenced := [], admitted := admission, pool := core / 64, poolAt := [] }

/-- The number of the next admission or restore of a team: greater numbers came later (R312). -/
def State.nextAdmission (s : State) : Nat := s.teams.foldl (fun m t => max m t.admitted) 0 + 1

/-- The parts of a context pool that no reservation holds, start and length, from place lo on; the reservations stand in ascending order. -/
def freeParts (size : Nat) : Nat → List (Nat × Nat) → List (Nat × Nat)
  | lo, [] => [(lo, size - lo)]
  | lo, x :: xs => (lo, min x.1 size - lo) :: freeParts size (max lo (x.1 + x.2)) xs

/-- The first n bytes of some parts. -/
def takeParts : Nat → List (Nat × Nat) → List (Nat × Nat)
  | _, [] => []
  | n, x :: xs => (if min n x.2 = 0 then [] else [(x.1, min n x.2)]) ++ takeParts (n - x.2) xs

/-- Whether a team holds a reservation in a die's context pool (R319). -/
def Team.reserves (t : Team) (die : Nat) : Bool := t.pool == die && t.node.isSome && t.status != .ended

/-- The lowest free bytes of a die's pool, as many as a team's context may take (R319). Where in the pool a reservation lies is open. DESIGN
CHOICE: log entry 12. -/
def State.reserve (s : State) (die : Nat) (t : Team) : List (Nat × Nat) :=
  let used := ((s.teams.filter (fun x => x.reserves die)).flatMap (fun x => x.poolAt)).foldl (fun acc x =>
    insertBy (fun a b => decide (a.1 < b.1)) x acc) []
  takeParts (contextBytes t.kernel t.pair) (freeParts (s.die die).pool 0 used)

/-- Admits the next gang of undispatched teams of a node on the given places (R305, R308). -/
def State.admitNew (s : State) (n : Nat) (x : Node) (places : List Nat) : State :=
  let g := s.gangs.length
  let s1 : State := { s with gangs := s.gangs ++ [{ Gang.blank with node := n, size := x.record.gang }] }
  let s2 := places.zipIdx.foldl (fun (s : State) p =>
    let fresh := Team.fresh (some n) (x.nextTix + p.2) g p.2 x.part p.1 x.record.pair x.kernel x.record.tagsets s.nextAdmission
    let t : Team := { fresh with poolAt := s.reserve (p.1 / 64) fresh }
    let team := s.teams.length
    State.addRounds { s with teams := s.teams ++ [t] } team t x (List.range x.kernel.rounds)) s1
  s2.modNode n (fun y => { y with nextTix := y.nextTix + places.length })

/-- Restores a saved team on a place (R105, R320): its rounds take their new slots; they resume one by one once their rows fit. Their
stopped jobs go on from their cursors, but not those of a round that has been killed (R358). -/
def State.restoreTeam (s : State) (team place : Nat) : State :=
  let old := s.teams.getD team Team.blank
  let die := place / 64
  let t : Team := { old with
    core := place, status := .resident, admitted := s.nextAdmission, pool := die
    poolAt := if old.pool = die then old.poolAt else s.reserve die old }
  let s1 : State := { s.setTeam team t with rounds := s.rounds.map (fun r => if r.team == team then { r with core := noCore } else r) }
  let s2 := ((s1.roundsOf team).filter (fun q => q.2.status != .ended)).foldl (fun (s : State) q =>
    let (core, q0) := roundPlace t q.2.rix
    let (qd, slot) := s.placeRound core q0
    s.setRoundAt q.1 { q.2 with core := core, quadrant := qd, slot := slot, stopReq := none, window := [], fetched := none }) s1
  let goesOn (q : Round) : Bool := q.team == team && q.status != .ended && q.status != .ending
  { s2 with jobs := s2.jobs.map (fun j =>
      if (j.round.bind (fun n => s2.rounds[n]?.map goesOn)).getD false then j.continued die else j) }

/-- A stopped round whose core has taken it back goes on where it stopped (R85, R105). -/
def Round.resumed (r : Round) : Round :=
  match r.status with
  | .stopped (.listed _) => { r with status := .ready, preempted := true }
  | .stopped (.implicit k) => { r with status := .waiting k, preempted := true }
  | .stopped .watchdog => { r with status := .ready }
  | .stopped .spilled => { r with status := .waiting .scoreboard }
  | _ => r

/-- The first round that may come back to its core: its team is there and its rows fit (R85). DEDUCED: log entry 59. -/
def State.returning (s : State) (die : Nat) : Option (Nat × Round) :=
  (s.rounds.zipIdx.find? (fun q =>
    q.1.away && (s.teamOf q.1).status == .resident && q.1.core / 64 == die
      && decide (s.rowsBeside q.2 q.1 + q.1.rows ≤ quadrantRows))).map (fun q => (q.2, q.1))

/-- The implicit points of R105 and R327. -/
def WaitKind.isPoint : WaitKind → Bool
  | .barrier _ => true
  | .second _ => true
  | .cluster => true
  | .clusterSecond => true
  | .semaphore => true
  | .node _ => true
  | .collective => true
  | .sleep => true
  | .halt => true
  | .pass => true
  | _ => false

/-- The listed point at which a round stands between clauses (R76, R105). -/
def State.pointOf (s : State) (r : Round) : Option Nat :=
  match r.clause, s.nodeOf r with
  | none, some n => (s.teamOf r).kernel.points.findIdx? (fun p => r.pc == BitVec.ofNat 64 (n.record.text.toNat / 8 + p.addr))
  | _, _ => none

/-- ROUND_STOP (R105): a round that has been asked for its context stops at a listed or implicit point. A waiter that stops leaves
its semaphore's queue. -/
def execRoundStop (round : Nat) (s : State) : Res :=
  match s.rounds[round]? with
  | none => .next s
  | some r =>
    if r.stopReq.isNone then .next s
    else
      match r.status with
      | .waiting k =>
        if k.isPoint then
          let s1 : State := { s with dies := s.dies.map (fun d => { d with semq := d.semq.filter (fun w => w.round != round) }) }
          .next (s1.setRoundAt round { r with status := .stopped (.implicit k) })
        else .next s
      | .ready =>
        match s.pointOf r with
        | some i => .next (s.setRoundAt round { r with status := .stopped (.listed i) })
        | none => .next s
      | _ => .next s

/-- Clauses after which the watchdog stops a round (R105). -/
def watchdogClauses : Nat := 65536

/-- WATCHDOG (R105, R322). -/
def execWatchdog (round : Nat) (s : State) : Res :=
  match s.rounds[round]? with
  | none => .next s
  | some r =>
    if r.status == .ready && r.clause.isNone && decide (watchdogClauses ≤ r.stopReq.getD 0) then
      let r1 := { r with status := .stopped .watchdog, wdog := true }
      .next ((s.setRoundAt round r1).enqueue (s.teamOf r).part [eventEntry s r 0x72 (r.handle.setWidth 64) 0 0])
    else .next s

/-- What a listed point's live set keeps of a round (R105); a round stopped elsewhere is kept in full. -/
def keepLive (k : Kernel) (r : Round) : Round :=
  match r.status with
  | .stopped (.listed i) =>
    match k.points[i]? with
    | none => r
    | some p =>
      let lane (b : Bool) (x : Mask) : Mask := if b then x else 0
      { r with
        v := r.v.filter (fun x => p.vranges.any (fun g => decide (g.1 ≤ x.1) && decide (x.1 < g.1 + g.2)))
        s := r.s.zipIdx.map (fun x => if p.s.getLsbD x.2 then x.1 else 0)
        t := noTemps
        p := r.p.zipIdx.map (fun x => lane (p.p.getLsbD x.2) x.1)
        walkers := r.walkers.zipIdx.map (fun x => if p.walk.getLsbD x.2 then x.1 else Walker.unbound)
        parts := r.parts.zipIdx.map (fun x =>
          if p.z.getLsbD x.2 then x.1 else { pending := false, fa := 0, fb := 0, ka := 0, kb := 0, vals := [] }) }
  | _ => r

/-- Layout registers and slots that the save of a round covers (R105): all of them, or those its point names. -/
def coverOf (t : Team) (r : Round) : (Nat → Bool) × (Nat → Bool) :=
  match r.status with
  | .ended => (fun _ => false, fun _ => false)
  | .stopped (.listed i) =>
    match t.kernel.points[i]? with
    | none => (fun _ => true, fun _ => true)
    | some p =>
      (fun k => p.lay.getLsbD k,
       fun key => (List.range 32).any (fun h => p.acc.getLsbD h && slotKey t r ((r.abase.toNat + h) % 2 ^ 64) == key))
  | _ => (fun _ => true, fun _ => true)

/-- A team as its context holds it (R105, R182, R222, R230, R267): what some round's save covers, a fenced slot as the core keeps it
corrected. Fences stay behind, and every flip is dropped, also that of a slot which no round's save covers. DESIGN CHOICE: log entry 79. -/
def savedTeam (t : Team) (rs : List Round) : Team :=
  let covers := rs.map (coverOf t)
  { t with
    layouts := t.layouts.zipIdx.map (fun x => if x.1.busy || covers.any (fun c => c.1 x.2) then x.1 else LayoutReg.empty)
    slots := t.slots.filterMap (fun x =>
      if covers.any (fun c => c.2 x.1) then some (x.1, { x.2 with vals := if t.fenced.contains x.1 then x.2.vals else (List.range 4096).map x.2.get, stuck := [] })
      else none)
    flips := []
    fenced := [] }

/-- Whether nothing that a save of round n waits for is outstanding (R171, R230, R260, R280, R320, R358): copies, running passes,
results, drains, exchange items, remote accesses, and segments of its jobs in flight. -/
def State.quietRound (s : State) (n : Nat) (r : Round) : Bool :=
  r.members.all (fun m => match m.work with | .place k _ => !progRunning ((s.teamOf r).layout k).words | _ => false)
    && r.tokens.isEmpty && r.drain.isEmpty && r.wave == 0 && !s.items.any (fun i => i.round == n)
    && s.jobs.zipIdx.all (fun j => j.1.round != some n || !(s.inFlight j.2 || (j.1.failed && j.1.state.busy) || j.1.state == .stopping))

/-- Whether a round lets its team be saved (R105, R320, R322). -/
def State.letsGo (s : State) (n : Nat) (r : Round) : Bool :=
  (match r.status with | .ended => true | .stopped _ => true | .parked _ => true | _ => false) && s.quietRound n r

/-- What leaves a round before its context is written: its accesses take effect, its stores and lines leave, and its jobs stop (R296, R320,
R358, R371). -/
def State.emptyRound (s : State) (n : Nat) : State :=
  (((s.performAll (fun m _ _ => m == n)).drainStores (fun e => e.round == n)).drainLines (fun x => x.round == n)).stopJobs n

/-- The virtual address of byte i of the bytes that a team has reserved in its die's context pool (R319, R326): the base is a 57-bit
address. -/
def State.poolByte (s : State) (t : Team) (i : Nat) : Word :=
  ((s.die t.pool).ctxpool.extractLsb' 12 45 ++ (0 : BitVec 12)).signExtend 64 + BitVec.ofNat 64 i

/-- The physical address of a byte of a context pool, which the core reaches as the image does. -/
def State.poolXlat (s : State) (t : Team) (i : Nat) : Xlat :=
  translateWalk s (s.part t.part) { write := true, fetch := false, user := false } (s.poolByte t i)

/-- Whether the HBM channels of a team's reservation are ready (R338). -/
def State.poolReady (s : State) (team : Nat) : Bool :=
  let t := s.teams.getD team Team.blank
  t.poolAt.all (fun x => (List.range (x.2 / pageBytes + 2)).all (fun k => s.poolXlat t (min (x.1 + x.2 - 1) (x.1 + pageBytes * k)) != .held))

/-- The core writes a team's context into its reservation (R320): the bytes and their number, which the spec does not give, are free; a page
that it cannot reach keeps its bytes. DESIGN CHOICE: log entry 12. -/
def State.writeContext (s : State) (team : Nat) : State :=
  let t := s.teams.getD team Team.blank
  let places := t.poolAt.flatMap (fun x => (List.range x.2).map (fun i => x.1 + i))
  let s1 := s.writeBytes (((places.take (Config.contextLength s.nextId)).zipIdx).filterMap (fun x =>
    match s.poolXlat t x.1 with
    | .ok pa => some (pa, Config.contextByte s.nextId x.2)
    | _ => none))
  { s1 with nextId := s1.nextId + 1 }

/-- Saves one team whose rounds are settled (R320, R358). -/
def State.saveTeam (s : State) (team : Nat) (unload : Bool) : State :=
  let s1 := ((s.roundsOf team).foldl (fun (s : State) q => s.emptyRound q.1) s).writeContext team
  let rs := (s1.roundsOf team).map (fun q => q.2)
  let t := s1.teams.getD team Team.blank
  let s2 : State := { s1 with
    rounds := s1.rounds.map (fun r =>
      if r.team == team then { keepLive t.kernel r with window := [], fetched := none } else r) }
  let s3 := s2.setTeam team { savedTeam t rs with status := if unload then .unloaded else .saved }
  match t.node with
  | none => s3
  | some n => if unload then s3 else s3.modNode n (fun x => x.addResumable team)

/-- What a core's round waits for rows that are still lacking. -/
def State.lacksRows (s : State) (r : Round) : Bool :=
  match r.status with
  | .waiting (.rows n need) => !s.roomFor n need
  | _ => false

/-- SPILL (R85): every round of the core that is not away is stalled for rows; the one of the lowest node priority, then with the most
rows, then in the highest slot is saved in full, once a save of it has nothing to wait for. -/
def execSpill (core : Nat) (s : State) : Res :=
  let here := s.rounds.zipIdx.filter (fun q => q.1.core == core && s.resident q.1)
  let prio (r : Round) : Nat := ((s.nodeOf r).map (fun n => n.record.priority)).getD 0
  let before (a b : Round) : Bool :=
    decide (prio a < prio b) || (prio a == prio b && (decide (b.rows < a.rows)
      || (a.rows == b.rows && decide (12 * b.quadrant + b.slot < 12 * a.quadrant + a.slot))))
  let pick := here.foldl (fun (acc : Option (Round × Nat)) q =>
    match acc with
    | none => some q
    | some y => if before q.1 y.1 then some q else some y) none
  match pick with
  | none => .next s
  | some (r, n) =>
    if here.all (fun q => s.lacksRows q.1) && s.quietRound n r then
      let s1 := s.emptyRound n
      match s1.rounds[n]? with
      | none => .next s1
      | some q => .next (s1.setRoundAt n { q with status := .stopped .spilled, spilled := true, window := [] })
    else .next s

/-- CONTEXT_SAVE (R320): once every round of the gang is settled, its teams are saved. -/
def execContextSave (team : Nat) (s : State) : Res :=
  let g := (s.gangTeams team).filter (fun k => (s.teams.getD k Team.blank).status != .ended)
  match (s.teams.getD team Team.blank).status with
  | .saving unload =>
    if g.all (fun k =>
        (s.roundsOf k).all (fun q => s.letsGo q.1 q.2) && !s.updates.any (fun u => u.team == k) && s.poolReady k) then
      .next (g.foldl (fun s k => s.saveTeam k unload) s)
    else .next s
  | _ => .next s

/-- The events of unreported fault records at the end of a round (R171, R322): sealed batches from the oldest, the open batch last. DEDUCED:
log entry 62. -/
def copyEvents (s : State) (r : Round) : List (List Word) :=
  let rec_ (num : Nat) (b : Batch) : List (List Word) :=
    match b.fault with
    | some f =>
      if b.reported then []
      else [eventEntry s r 0x23 (BitVec.ofNat 64 (num + 2 ^ 16 * f.kind)) f.addr (BitVec.ofNat 64 f.cause)]
    | none => []
  r.sealed.flatMap (fun b => rec_ b.num b) ++ rec_ ((r.last + 1) % 2 ^ 16) r.openBatch

/-- A round with nothing left of its registers (R89, R230). -/
def Round.released (r : Round) : Round :=
  { r with
    status := .ended, v := [], window := [], walkers := List.replicate 8 Walker.unbound, latch := none, fifo := [], pending := []
    parts := List.replicate 2 { pending := false, fa := 0, fb := 0, ka := 0, kb := 0, vals := [] }, stopReq := none }

/-- A round of a partition that is gone (R336): nothing of it goes on. -/
def Round.removed (r : Round) : Round :=
  { r.released with
    live := 0, cur := 0, clause := none, fetched := none, openBatch := { r.openBatch with members := [] }, sealed := [], tokens := [], drain := []
    replies := [], remote := [], wave := 0, dieCtr := 0, pkgCtr := 0, sysCtr := 0, kept := none }

/-- The end of a team whose rounds have all ended (R148, R267). -/
def State.endTeam (s : State) (team : Nat) : State :=
  if (s.roundsOf team).all (fun q => q.2.status == .ended) then
    let t := s.teams.getD team Team.blank
    (s.setTeam team { t with status := .ended, windows := List.replicate 4 Window.reset, flips := [], slots := [] }).dropResumable (fun k => k == team)
  else s

/-- ROUND_END (R89): what the round has outstanding completes first; its buffered stores and lines leave. -/
def execRoundEnd (round : Nat) (s : State) : Res :=
  match s.rounds[round]? with
  | none => .next s
  | some r0 =>
    if r0.status != .ending then .next s
    else
      let s0 := s.performAll (fun m _ _ => m == round)
      let s1 := ((s0.releaseStores round 4).drainLines (fun x => x.round == round)).issueHostWrites round
      match s1.rounds[round]? with
      | none => .next s1
      | some r =>
        if r.members.isEmpty && r.tokens.isEmpty && r.drain.isEmpty && r.sysCtr == 0 && s1.hostQuiet round && !s1.items.any (fun i => i.round == round)
            && s1.unfinishedColls round == 0 && !s1.flights.any (fun f => s1.own f.packet && f.packet.srcRound == round)
            && !s1.jobs.any (fun j => j.round == some round && j.state.busy) then
          let s2 := (copyEvents s1 r).foldl (fun s e => s.enqueue (s1.teamOf r).part [e]) s1
          .next ((s2.setRoundAt round r.released).endTeam r.team)
        else .next s1

end Sys2Proof.Machine
end

