-- ==== Sys2Proof/Machine/Office.lean ====
section
/-! DEFINITION. The sorting office (R307 to R314) and the partitions (R304, R336, R337), with their events. -/
namespace Sys2Proof.Machine

/-- Cycles in a millisecond (R308, R342). -/
def State.millis (s : State) (n : Nat) : Nat := s.micros (1000 * n)

/-- The die of a node. -/
def Node.onDie (x : Node) : Nat := x.record.die

/-- Whether a node has work left for the sorting office (R308); one that is to be removed has none (R313). -/
def Node.hasWork (x : Node) : Bool :=
  !x.leaving && match x.state with
  | .earlyReady => 0 < x.undispatched || !x.resumable.isEmpty
  | .ready => true
  | .dispatching => 0 < x.undispatched || !x.resumable.isEmpty
  | .running => !x.resumable.isEmpty
  | _ => false

/-- eff(n) of R308. -/
def State.eff (s : State) (x : Node) : Nat := min 7 (x.record.priority + (s.now - x.since) / s.millis 1)

/-- Whether node a comes before node b in C (R308). -/
def State.before (s : State) (a b : Node) : Bool :=
  decide (s.eff b < s.eff a) || (s.eff a == s.eff b && decide (a.post < b.post))

/-- C of R308: the nodes of a die with work left, in their order. -/
def State.candidates (s : State) (die : Nat) : List (Nat × Node) :=
  ((s.nodes.zipIdx.filter (fun x => x.1.onDie == die && x.1.hasWork)).map (fun x => (x.2, x.1))).foldl
    (fun acc x => insertBy (fun a b => s.before a.2 b.2) x acc) []

/-- Bytes of a die's context pool that teams admitted with it, or resumed with it, have reserved until they end (R319). -/
def State.reserved (s : State) (die : Nat) : Nat :=
  s.teams.foldl (fun acc t =>
    if t.reserves die then acc + contextBytes t.kernel t.pair else acc) 0

/-- The next unit of a node (R308): the members of a resumable gang that are all there, or a number of new teams. -/
inductive Unit_ where
  | saved (teams : List Nat)
  | new (count : Nat)
  deriving DecidableEq, Repr

/-- Whether a copied gang has all its teams again (R268, R327). -/
def State.gangWhole (s : State) (team : Nat) : Bool :=
  match (s.gang (s.teams.getD team Team.blank).gang).copyOf with
  | some (_, n) => decide (n ≤ (s.gangTeams team).length)
  | none => true

/-- The next unit of a node, if it has one (R307, R308, R312). -/
def State.nextUnit (s : State) (x : Node) : Option Unit_ :=
  match x.resumable.find? (fun k =>
      s.gangWhole k && (s.gangTeams k).all (fun j => x.resumable.contains j || (s.teams.getD j Team.blank).status == .ended)) with
  | some k => some (.saved ((s.gangTeams k).filter (fun j => x.resumable.contains j)))
  | none => if 0 < x.undispatched then some (.new x.record.gang) else none

def Unit_.size : Unit_ → Nat
  | .saved l => l.length
  | .new n => n

/-- Context bytes that a unit adds to a die's reservations (R319): a saved team has its own, unless it comes from another die. -/
def State.unitBytes (s : State) (x : Node) (u : Unit_) : Nat :=
  match u with
  | .saved l =>
    l.foldl (fun acc k =>
      let t := s.teams.getD k Team.blank
      if t.pool == x.onDie then acc else acc + contextBytes t.kernel t.pair) 0
  | .new n => n * contextBytes x.kernel x.record.pair

/-- What a team of a unit needs on its cores, and whether it takes a pair: a saved team has its own kernel (R148, R256, R320). -/
def State.unitNeeds (s : State) (x : Node) (u : Unit_) : List Room × Bool :=
  match u with
  | .saved (k :: _) =>
    let t := s.teams.getD k Team.blank
    (teamNeeds t.kernel t.pair t.tagSets, t.pair)
  | _ => (teamNeeds x.kernel x.record.pair x.record.tagsets, x.record.pair)

/-- Nodes that keep room on a die for a node n that starts early (R310): others that have issued GRDY in their dispatch and still have
undispatched teams. -/
def State.keepers (s : State) (die n : Nat) : List Node :=
  (s.nodes.zipIdx.filter (fun p =>
    p.2 != n && p.1.onDie == die && p.1.grdy && (p.1.state == .dispatching || p.1.state == .earlyReady) && p.1.begun
      && decide (0 < p.1.undispatched))).map (fun p => p.1)

/-- Teams that a node keeps room for (R310). -/
def Node.kept (p : Node) : Nat := if p.record.reserve = 0 then p.undispatched else min p.record.reserve p.undispatched

/-- The places of a die for a kind of team, cluster by cluster. -/
def diePlaces (die : Nat) (pair : Bool) : List (List Nat) := (List.range 8).map (fun c => clusterPlaces die c pair)

/-- The kept teams of a node as gangs, the last one short where the reserve is no multiple of the gang size (R268, R310). More teams than
a die can hold find no room. -/
def Node.keptGangs (p : Node) : List Nat :=
  let k := min p.kept 513
  List.replicate (k / p.record.gang) p.record.gang ++ (if k % p.record.gang = 0 then [] else [k % p.record.gang])

/-- Whether room stays for every kept team (R310), one gang after the other on the lowest places. -/
def State.keepsRoom (s : State) (die n : Nat) (bytes : Nat) (room : Nat → Room) : Bool :=
  ((s.keepers die n).foldl (fun (acc : Option ((Nat → Room) × Nat)) p =>
    match acc with
    | none => none
    | some (room, left) =>
      let needs := teamNeeds p.kernel p.record.pair p.record.tagsets
      let z := p.kept * contextBytes p.kernel p.record.pair
      if left < z then none
      else
        (fitGangs (fun room c => placeFits s.coreUsable room p.record.pair needs c) p.record.pair needs (diePlaces die p.record.pair)
            p.keptGangs room).map (fun room1 => (room1, left - z))) (some (room, bytes))).isSome

/-- The lowest places, in ascending order, for up to g teams of one gang, each on a place of its own that leaves room (R268, R308, R310). -/
def pickPlaces (fits : (Nat → Room) → Nat → Bool) (take : (Nat → Room) → Nat → Nat → Room) (keeps : (Nat → Room) → Bool) :
    List Nat → Nat → (Nat → Room) → List Nat
  | [], _, _ => []
  | p :: ps, g, room =>
    if g = 0 then []
    else if fits room p && keeps (take room p) then p :: pickPlaces fits take keeps ps (g - 1) (take room p)
    else pickPlaces fits take keeps ps g room

/-- Places for a unit of a node in one cluster of its die, one core or pair each, given the cores' room (R268, R308, R310, R319): no team is
admitted before the image has written the die's context pool. -/
def State.placesFor (s : State) (n : Nat) (x : Node) (u : Unit_) (room : Nat → Room) : Option (List Nat) :=
  let die := x.onDie
  let (needs, pair) := s.unitNeeds x u
  let left := (s.die die).pool - s.reserved die
  let bytes := s.unitBytes x u
  if !(s.die die).poolSet || left < bytes then none
  else
    (List.range 8).findSome? (fun c =>
      if (s.die die).holds.any (fun h => h.1 == c && h.2 != n) then none
      else
        let ps := pickPlaces (fun room p => placeFits s.coreUsable room pair needs p) (fun room p => takePlace room pair needs p)
          (fun room => x.state != .earlyReady || s.keepsRoom die n (left - bytes) room) (clusterPlaces die c pair) u.size room
        if ps.length = u.size then some ps else none)

/-- The places of a cluster that could take one team of a node, for the hold of R308. -/
def State.freePlaces (s : State) (x : Node) (c : Nat) : Nat :=
  let needs := teamNeeds x.kernel x.record.pair x.record.tagsets
  ((clusterPlaces x.onDie c x.record.pair).filter (placeFits s.coreUsable s.roomOf x.record.pair needs)).length

/-- Whether no earlier node of C has the node's effective priority (R308). -/
def firstAtPriority (s : State) (c : List (Nat × Node)) (n : Nat) (x : Node) : Bool :=
  (c.takeWhile (fun y => y.1 != n)).all (fun y => s.eff y.2 != s.eff x)

/-- A standing node's manifest as it stands before a dispatch (R313). -/
inductive ManifestState where
  | none                                                   -- no manifest, or a dispatch that has begun
  | members (owner : List Nat) (slots : List Nat) (gen : Nat)   -- physical addresses of bytes 0 to 1,087, members, generation
  | empty
  | missing (pages : List Word) (va : Word)
  | dead
  deriving DecidableEq, Repr

def State.manifestState (s : State) (n : Nat) (x : Node) : ManifestState :=
  if !x.record.standing || x.record.manifest = 0 || x.begun || !x.resumable.isEmpty then .none
  else if (s.part x.part).deadManifests.contains n then .empty
  else
    match s.manifestAccess x 0 1088 with
    | .missing ps va => .missing ps va
    | .fault _ _ => .dead
    | .held => .empty
    | .ok pas =>
      let read (i : Nat) : Byte := Memory.read s.mem (pas.getD i 0)
      let slots := (List.range manifestSlots).filter (fun k => slotState read k == 1)
      if slots.isEmpty then .empty else .members pas slots (ofBytes ((List.range 4).map (fun i => read (2 + i))))

/-- What becomes of a Courier node that tries to start its job (R309, R358): its job, with the places of its cursor. -/
inductive CourierStart where
  | job (j : CourierJob) (cursor : List Nat)
  | reason (k : Nat)
  | unreadable (cause : Nat)
  | missing (pages : List Word) (va : Word)
  | held
  deriving DecidableEq, Repr

/-- Reads and checks the job of a Courier node, and reaches its cursor (R309, R351, R358). A cursor that is refused fails the job. DEDUCED: log
entry 61. -/
def State.courierStart (s : State) (n : Nat) (x : Node) : CourierStart :=
  let a := x.record.params.getD 0 0
  let read (va : Word) (len : Nat) (k : List Byte → CourierStart) : CourierStart :=
    match gather ((List.range len).map (fun i => s.readVirtual (nodeAgent x) (va + BitVec.ofNat 64 i))) with
    | .fault _ c => .unreadable c
    | .missing ps va => .missing ps va
    | .held => .held
    | .ok b => k b
  if a.toNat % 64 != 0 || !canonical a then .reason 9
  else
    read a 128 (fun b =>
      let j := readJob b
      let go (ws wd : List Word) (blocks : List (Nat × Nat × Nat)) : CourierStart :=
        match planOrReason (s.part x.part) s.package.number x.onDie j ws wd blocks with
        | .inl k => .reason k
        | .inr plan =>
          let job : CourierJob := { newJob j plan with node := some n, part := x.part, die := x.onDie }
          match s.cursorPlaces job with
          | .ok pas => .job job pas
          | .missing ps va => .missing ps va
          | .fault va c => .job { job with state := .fault, cause := c, faddr := va } []
          | .held => .held
      if !j.aligned then .reason 9
      else if !j.formOk then .reason 1
      else if (s.part x.part).frozen.contains j.job then .held
      else if j.kind = 0 then read j.srclay 512 (fun b1 => read j.dstlay 512 (fun b2 => go (recordOf b1) (recordOf b2) []))
      else read j.list (16 * j.nblk) (fun b1 => go [] [] (readBlocks j.nblk b1)))

/-- Jobs that a die's Courier engine holds (R352). DEDUCED: log entry 61. -/
def State.engineJobs (s : State) (die : Nat) : Nat :=
  (s.jobs.filter (fun j => j.die == die && j.state.busy)).length

/-- The number of the next start of a node of another kind than compute: greater numbers came later (R358). -/
def State.nextStart (s : State) : Nat := s.nodes.foldl (fun m x => max m x.started) 0 + 1

/-- A node of another kind than compute starts its work (R309). -/
def State.startNode (s : State) (n : Nat) : State := s.modNode n (fun y => { y with state := .running, started := s.nextStart })

/-- A Courier node starts without a job, having found a fault (R309). -/
def State.startFaulty (s : State) (n : Nat) (x : Node) (kind cause : Nat) : State :=
  (s.modNode n (fun y => { y with fault := some { kind := kind, addr := x.record.params.getD 0 0, cause := cause } })).startNode n

/-- What the sorting office does with a Courier node (R309, R358): a job of it that was stopped goes on from its cursor; where the job came to
its end as it was to stop, the node has only to complete. -/
def State.tryCourier (s : State) (n : Nat) (x : Node) : Option State :=
  let mine (j : CourierJob) : Bool := j.node == some n
  if x.fault.isSome || s.jobs.any (fun j => mine j && j.state.finished) then some (s.startNode n)
  else if !s.courierReady x.onDie || 64 ≤ s.engineJobs x.onDie || s.serviceWaits (.node n) || s.jobs.any (fun j => mine j && j.state.busy) then none
  else if s.jobs.any (fun j => mine j && j.state == .stopped) then
    some (({ s with jobs := s.jobs.map (fun j => if mine j then j.continued x.onDie else j) } : State).startNode n)
  else
    match s.courierStart n x with
    | .job j pas => some (({ (if pas.isEmpty then s else s.beginCursor j pas none) with jobs := s.jobs ++ [j] } : State).startNode n)
    | .reason k => some (s.startFaulty n x 4 k)
    | .unreadable k => some (s.startFaulty n x 2 k)
    | .missing pages va => some (s.requestService (nodeAgent x) (.node n) pages va x.onDie (some n) 0).1
    | .held => none

/-- What the sorting office does with one node of C: a new state, or nothing now. -/
def State.tryNode (s : State) (c : List (Nat × Node)) (n : Nat) (x : Node) : Option State :=
  match x.record.kind with
  | 1 =>
    let p := x.record.params
    let k := (p.getD 3 0).toNat
    let work : Work := .copy (k / 4) (p.getD 1 0) (k % 4) (p.getD 0 0) (p.getD 2 0).toNat
    some (({ s with nextId := s.nextId + 1 } : State).modNode n (fun y => { y with
      state := .running, work := some { id := s.nextId, work := work, moved := [], service := none, read := [] } }))
  | 2 => s.tryCourier n x
  | 3 => some (s.startNode n)
  | _ =>
    match s.manifestState n x with
    | .empty => none
    | .dead => some (s.manifestDead n)
    | .missing ps va =>
      if s.serviceWaits (.manifest n) then none
      else some (s.requestService (nodeAgent x) (.manifest n) ps va x.onDie (some n) 0).1
    | ms =>
      match s.nextUnit x with
      | none => none
      | some u =>
        match s.placesFor n x u s.roomOf with
        | some places =>
          let s1 :=
            match ms with
            | .members pas slots gen =>
              (s.writeBytes ((toBytes 4 (gen + 1)).zipIdx.map (fun (b : Byte × Nat) => (pas.getD (2 + b.2) 0, b.1)))).modNode n (fun y =>
                { y with snapshot := some (slots, (gen + 1) % 2 ^ 32) })
            | _ => s
          let s2 : State :=
            match u with
            | .new _ => s1.admitNew n x places
            | .saved teams =>
              ((teams.zip places).foldl (fun (s : State) p => s.restoreTeam p.1 p.2) s1).modNode n (fun y =>
                { y with resumable := y.resumable.filter (fun k => !teams.contains k) })
          let d := s2.die x.onDie
          let s3 := s2.setDie x.onDie { d with holds := d.holds.filter (fun h => h.2 != n) }
          some (s3.modNode n (fun y =>
            ({ y with firstSince := none, state := if y.state == .earlyReady then .earlyReady else .dispatching } : Node).settle))
        | none =>
          -- the hold of R308
          if x.record.gang ≤ 1 || (s.die x.onDie).holds.any (fun h => h.2 == n) then none
          else if !firstAtPriority s c n x then if x.firstSince.isSome then some (s.modNode n (fun y => { y with firstSince := none })) else none
          else
            match x.firstSince with
            | none => some (s.modNode n (fun y => { y with firstSince := some s.now }))
            | some t =>
              if s.now ≤ t + s.micros 100 then none
              else
                let free := (List.range 8).filter (fun k => !(s.die x.onDie).holds.any (fun h => h.1 == k))
                match free with
                | [] => none
                | k0 :: ks =>
                  let best := ks.foldl (fun b k => if s.freePlaces x b < s.freePlaces x k then k else b) k0
                  let d := s.die x.onDie
                  some (s.setDie x.onDie { d with holds := d.holds ++ [(best, n)] })

/-- Holds that end because their node is no longer first at its effective priority (R308). -/
def State.dropHolds (s : State) (die : Nat) (c : List (Nat × Node)) : State :=
  let d := s.die die
  s.setDie die { d with holds := d.holds.filter (fun h => c.any (fun y => y.1 == h.2 && firstAtPriority s c y.1 y.2)) }

/-- Gangs that may be pre-empted on a die, each named by the first of its teams that is there, in the order of R312: lowest recorded
priority, then most recently admitted. -/
def State.victims (s : State) (die : Nat) : List Nat :=
  let prio (k : Nat) : Nat :=
    (((s.teams.getD k Team.blank).node.bind (fun n => s.nodes[n]?)).map (fun x => x.record.priority)).getD 7
  let there (k : Nat) : Bool := (s.teams.getD k Team.blank).status == .resident
  let first (k : Nat) : Bool := (s.gangTeams k).all (fun j => k ≤ j || !there j)
  let ok (k : Nat) (t : Team) : Bool := there k && first k && t.core / 64 == die && t.node.isSome && decide (prio k ≤ 3)
  let at_ (k : Nat) : Nat := (s.teams.getD k Team.blank).admitted
  ((s.teams.zipIdx.filter (fun x => ok x.2 x.1)).map (fun x => x.2)).foldl (fun acc k =>
    insertBy (fun a b => decide (prio a < prio b) || (prio a == prio b && decide (at_ b < at_ a))) k acc) []

/-- The room of the cores once some teams have left. -/
def State.roomWithout (s : State) (gone : List Nat) : Nat → Room := fun core =>
  State.roomOf { s with teams := s.teams.zipIdx.map (fun x =>
    if gone.contains x.2 || (match x.1.status with | .saving _ => true | _ => false) then { x.1 with status := .ended } else x.1) } core

/-- The fewest victims in the order of R312 that let a unit in; none where it fits without them or never. DEDUCED: log entry 60. -/
def State.chooseVictims (s : State) (n : Nat) (x : Node) (u : Unit_) : List Nat → List Nat → List Nat
  | gone, rest =>
    match s.placesFor n x u (s.roomWithout (gone.flatMap s.gangTeams)) with
    | some places =>
      let cluster := places.headD 0 / 8
      gone.filter (fun k => (s.gangTeams k).any (fun j => (s.teams.getD j Team.blank).core / 8 == cluster))
    | none =>
      match rest with
      | [] => []
      | k :: ks => State.chooseVictims s n x u (gone ++ [k]) ks
termination_by structural _ rest => rest

/-- Pre-emption (R312). -/
def State.preempt (s : State) (die : Nat) (c : List (Nat × Node)) : State :=
  match c with
  | [] => s
  | (n, x) :: _ =>
    if x.record.priority < 6 || x.record.kind != 0 then s
    else
      match s.nextUnit x, s.manifestState n x with
      | none, _ => s
      | _, .empty => s
      | _, .missing _ _ => s
      | _, .dead => s
      | some u, _ => (s.chooseVictims n x u [] (s.victims die)).foldl (fun s k => s.askSave k false) s

/-- A round comes back to its core; jobs that a spill stopped go on (R85, R105, R358). -/
def State.bringBack (s : State) (n : Nat) (r : Round) : State :=
  let s1 := s.setRoundAt n r.resumed
  { s1 with jobs := s1.jobs.map (fun j => if j.round == some n then j.continued (r.core / 64) else j) }

/-- The first node of a die that is to be removed and does not wait for service (R313). -/
def State.nodeToRemove (s : State) (die : Nat) : Option (Nat × Node) :=
  (s.nodes.zipIdx.find? (fun x => x.1.onDie == die && x.1.leaving && !s.serviceWaits (.manifest x.2))).map (fun x => (x.2, x.1))

/-- SORTING_OFFICE_ADMIT (R308 to R313): one thing that the rule of R308 does next on a die: a round comes back, a node goes or starts, a
unit is admitted, or teams are chosen to make room. -/
def execSortingOfficeAdmit (die : Nat) (s0 : State) : Res :=
  let s := s0.dropHolds die (s0.candidates die)
  match s.returning die, s.nodeToRemove die with
  | some (n, r), _ => .next (s.bringBack n r)
  | none, some (n, x) => .next (s.tryRemove n x)
  | none, none =>
    let c := s.candidates die
    match c.findSome? (fun x => s.tryNode c x.1 x.2) with
    | some s1 => .next s1
    | none => .next (s.preempt die c)

/-- What follows the completion of a node (R307, R311, R313, R314); `pas` holds the places of its manifest's bytes, none where it has none
that can be reached. -/
def State.completeNode (s : State) (n : Nat) (x : Node) (pas : List Nat) : State :=
  let arm (s : State) (h : Nat) : State :=
    match s.liveNode x.part h with
    | none => s
    | some k => s.modNode k (fun y => { y with remaining := y.remaining - 1 })
  -- slots in state retiring become free
  let s0 : State :=
    if x.snapshot.isNone then s
    else
      s.writeBytes (((pas.drop 64).take 1024).map (fun pa =>
        (pa, ((List.range 4).foldl (fun b k => if (slotState (fun _ => b) k) == 2 then withSlotState b k 0 else b) (Memory.read s.mem pa)))))
  let s1 := x.record.succ.foldl arm s0
  if x.standing then
    (s1.modNode n (fun y => { y with
      completions := y.completions + 1, remaining := x.record.preds, state := .waiting, grdy := false, nextTix := 0, snapshot := none })).refresh
  else (s1.modNode n (fun y => { y with completions := y.completions + 1 })).removeNode n ((pas.drop 8).take 4)

/-- The work of a copy node, all at once (R309). A host link that is not trained holds it (R338). -/
def State.runCopyNode (s : State) (n : Nat) (x : Node) (m : Member) : State :=
  match m.work.move with
  | none => s.completeNode n x []
  | some (mv, src) =>
    if mv.usesHost && !s.linkReady (linkOf x.part) then s
    else
      match s.moveBytes (nodeAgent x) m mv src (wordBytes mv none m.moved) with
      | .done s1 => s1.completeNode n x []
      | .held => s
      | .fault va c => (s.enqueue x.part [nodeEvent s x 0x23 0 va (BitVec.ofNat 64 c)]).completeNode n x []
      | .missing pages va =>
        let (s1, h) := s.requestService (nodeAgent x) (.node n) pages va x.onDie (some n) 0
        s1.modNode n (fun y => { y with work := some { m with service := h } })

/-- The event of a Courier node that could not start its job (R309). DEDUCED: log entry 62. -/
def courierEvent (s : State) (x : Node) (f : FaultRec) : List Word :=
  if f.kind = 4 then nodeEvent s x 0x83 (BitVec.ofNat 64 f.cause) 0 (x.record.params.getD 0 0)
  else nodeEvent s x 0x83 0 (BitVec.ofNat 64 f.cause) (x.record.params.getD 0 0)

/-- NODE_COMPLETE (R307, R309, R311). -/
def execNodeComplete (node : Nat) (s : State) : Res :=
  match s.nodes[node]? with
  | none => .next s
  | some x =>
    if x.state != .running then .next s
    else
      match x.record.kind with
      | 0 =>
        if s.teams.all (fun t => t.node != some node || t.status == .ended) then
          .next (if x.snapshot.isSome || !x.standing then s.withManifest node x 0 1088 (fun s pas => s.completeNode node x pas)
            else s.completeNode node x [])
        else .next s
      | 1 =>
        match x.fault, x.work with
        | some f, _ => .next ((s.enqueue x.part [nodeEvent s x 0x23 0 f.addr (BitVec.ofNat 64 f.cause)]).completeNode node x [])
        | none, some m => if m.service.isSome then .next s else .next (s.runCopyNode node x m)
        | none, none => .next (s.completeNode node x [])
      | 2 =>
        match x.fault, s.jobs.find? (fun j => j.node == some node) with
        | some f, _ => .next ((s.enqueue x.part [courierEvent s x f]).completeNode node x [])
        | none, some j =>
          match j.state with
          | .complete => .next (s.completeNode node x [])
          | .fault =>
            .next ((s.enqueue x.part [nodeEvent s x 0x83 (BitVec.ofNat 64 j.cause) j.cursor j.faddr]).completeNode node x [])
          | _ => .next s
        | none, none => .next (s.completeNode node x [])
      | _ => .next (s.completeNode node x [])

/-- Stops the job of a Courier node at a segment boundary (R358). -/
def State.stopNodeJob (s : State) (node : Nat) : State :=
  (List.range s.jobs.length).foldl (fun s i => if (s.jobs[i]?.map (fun j => j.node == some node)).getD false then s.stopJob i else s) s

/-- COURIER_NODE_STOP (R358): a Courier node of recorded priority 6 or 7 is first and the engine is full; the running Courier node of the
lowest recorded priority, at most 3, that started most recently stops at a segment boundary. -/
def execCourierNodeStop (node : Nat) (s : State) : Res :=
  match s.nodes[node]? with
  | none => .next s
  | some x =>
    let die := x.onDie
    let first := match s.candidates die with
      | (_, y) :: _ => y.record.kind == 2 && decide (6 ≤ y.record.priority)
      | [] => false
    let runs (k : Nat) : Bool := s.jobs.any (fun j => j.node == some k && (j.state == .waiting || j.state == .running) && !j.failed)
    let pick := (s.nodes.zipIdx.filter (fun y => y.1.onDie == die && y.1.record.kind == 2 && decide (y.1.record.priority ≤ 3) && runs y.2)).foldl
      (fun (acc : Option (Node × Nat)) y =>
        match acc with
        | none => some y
        | some z =>
          if y.1.record.priority < z.1.record.priority
              || (y.1.record.priority == z.1.record.priority && decide (z.1.started < y.1.started)) then some y else some z) none
    if first && decide (64 ≤ s.engineJobs die) && (pick.map (fun y => y.2)) == some node then
      .next ((s.stopNodeJob node).modNode node (fun y => { y with state := .ready, since := s.now }))
    else .next s

/-- The die sets of R336. -/
def dieSets : List (BitVec 6) := [1, 2, 4, 8, 16, 32, 3, 12, 48, 7, 56, 63]

/-- Whether a partition number suits its link (R332, R336). -/
def numberOk (spec : PartSpec) : Bool :=
  if lowestDie spec.dies ≤ 2 then spec.num < 8 else 8 ≤ spec.num && spec.num < 16

/-- The first control core of the IO die of a link's partitions (R331, R332), which runs the hypervisor (R336). -/
def firstControl (dies : BitVec 6) : Nat := if lowestDie dies ≤ 2 then controlBase else controlBase + 12
def Partition.firstControl (p : Partition) : Nat := Sys2Proof.Machine.firstControl p.dies

/-- Whether the control cores that a partition is given are its IO die's, not the hypervisor's, and no other partition's (R336). -/
def controlOk (spec : PartSpec) (others : List Partition) : Bool :=
  let base := firstControl spec.dies
  !spec.control.isEmpty
    && spec.control.all (fun c => decide (base < c) && decide (c < base + 12) && !others.any (fun p => p.control.contains c))

/-- PARTITION_ASSIGN (R336, R337): once the hypervisor runs, dies and control cores go to a new partition, cleared; partitions that held one
of the dies are gone, with all that they had under way. Its grants reach no memory but its own dies' (`granted`). DEDUCED: log entry 63. -/
def execPartitionAssign (spec : PartSpec) (s : State) : Res :=
  let gone := (s.parts.filter (fun p => p.dies &&& spec.dies != 0)).map (fun p => p.num)
  let others := s.parts.filter (fun p => !gone.contains p.num)
  if s.package.boot < 2 || !dieSets.contains spec.dies || !numberOk spec || others.any (fun p => p.num == spec.num) || !controlOk spec others then
    .next s
  else
    let mine (d : Nat) : Bool := spec.dies.getLsbD d
    let team (t : Team) : Bool := gone.contains t.part
    let ofGone (n : Nat) : Bool := gone.any (fun k => s.roundIn n k)
    let p : Partition := { Partition.blank with
      num := spec.num, dies := spec.dies, control := spec.control, diag := spec.diag, grants := spec.grants, inbox := spec.inbox
      image := spec.image, images := spec.images }
    .next { s with
      dies := s.dies.zipIdx.map (fun x =>
        if mine x.2 then { Die.reset with part := some spec.num, clock := x.1.clock, slotSeq := x.1.slotSeq, serviceSeq := x.1.serviceSeq }
        else if (x.1.part.map gone.contains).getD false then { x.1 with part := none } else x.1)
      mem := s.mem.filter (fun c => !mine (homeDie c.1))
      lasting := s.lasting.filter (fun c => !mine (homeDie (32 * c)))
      nodes := s.nodes.map (fun x => if gone.contains x.part then { x with state := .removed, resumable := [] } else x)
      rounds := s.rounds.map (fun r => if team (s.teamOf r) then r.removed else r)
      teams := s.teams.map (fun t => if team t then { t with status := .ended, spad := [], slots := [] } else t)
      cores := s.cores.map (fun c => (c.1, { c.2 with tlb := c.2.tlb.filter (fun e => !gone.contains e.part) }))
      stores := s.stores.filter (fun e => !ofGone e.round)
      lines := s.lines.filter (fun x => !ofGone x.round)
      items := s.items.filter (fun x => !ofGone x.round)
      updates := s.updates.filter (fun u => !team (s.teams.getD u.team Team.blank))
      flights := s.flights.filter (fun f => if s.own f.packet then !ofGone f.packet.srcRound && !mine f.packet.dstDie else !mine f.packet.dstDie)
      hostq := s.hostq.filter (fun w => !gone.contains w.part)
      services := s.services.filter (fun v => !gone.contains v.part)
      jobs := s.jobs.map (fun j => if gone.contains j.part && j.state.busy then { j with state := .stopped } else j)
      colls := s.colls.map (fun c => if gone.contains c.part && !c.state.finished then { c with state := .stopped } else c)
      contexts := s.contexts.filter (fun c => !gone.contains c.part)
      package := { s.package with
        counts := s.package.counts.filter (fun c => !(c.srcPkg == s.package.number && ofGone c.srcRound))
        barq := s.package.barq.filter (fun w => !gone.contains w.fn) }
      parts := others ++ [p] }

/-- PARTITION_IMAGE_START (R304, R336, R337): an image round starts on one of the partition's control cores, which is ready; the first start
measures the image (R341). -/
def execPartitionImageStart (partition core : Nat) (entry : Word) (s : State) : Res :=
  match s.parts.find? (fun p => p.num == partition) with
  | none => .next s
  | some p =>
    let ok := p.control.contains core && s.isReady 16 (core - controlBase) && !s.rounds.any (fun r => r.core == core && r.status != .ended)
    if !ok then .next s
    else
      let k : Kernel := { Kernel.none with width := 16, rounds := 1 }
      let team := s.teams.length
      let t := Team.fresh none 0 s.gangs.length 0 partition core false k 0 s.nextAdmission
      let field := if p.firstControl = controlBase then 6 else 7
      let (s1, h) := s.newHandle (lowestDie p.dies) (core - p.firstControl) 0 field
      let r := Round.fresh team 0 16 core 0 0 h true entry (List.replicate 128 0)
      .next (({ s1 with
        gangs := s1.gangs ++ [Gang.blank]
        teams := s1.teams ++ [t]
        rounds := s1.rounds ++ [r] } : State).setPart { p with started := true, measured := if p.started then p.measured else shake256 p.image })

end Sys2Proof.Machine
end

