-- ==== Sys2Proof/Machine/Clauses.lean ====
section
/-! DEFINITION. Clauses as they are fetched, checked and selected (R39 to R44, R63, R82, R96), with their events. -/
namespace Sys2Proof.Machine

/-- What the checks of a clause report (R63): cause, word index, bit position and header flag. DEDUCED: log entry 17. -/
structure ClauseFault where
  cause : Nat
  index : Nat
  bit : Nat
  header : Bool
  deriving DecidableEq, Repr

/-- The header check (R40, R43, R63). -/
def checkHeader (w : Word) : Option ClauseFault :=
  if !isHeader w then some { cause := 0x01, index := 0, bit := 58, header := false }
  else
    match headerFails w with
    | [] => none
    | l => some { cause := 0x02, index := 0, bit := lowest l, header := false }

/-- Privilege (R63, R304): a SYS opcode in user mode, other than DIAG in a diagnostic partition. -/
def privilegeFails (priv diag : Bool) (i : Instr) : Bool := classOf i == 7 && !priv && !(opcodeOf i == 0x305 && diag)

/-- Class and position (R41). -/
def classFails (h : Header) (ix : Nat) (i : Instr) : Bool := if isTransfer i then ix != h.cnt else classOf i != h.cls

/-- What a decoding failure of instruction ix reports (R63). -/
def decodeFault (ix : Nat) (e : DecodeError) : ClauseFault :=
  match e with
  | .illegalOpcode => { cause := 0x01, index := ix + 1, bit := 54, header := false }
  | .illegalField bit header => { cause := 0x02, index := ix + 1, bit := if header then 31 + ix else bit, header := header }
  | .illegalOperand bit => { cause := 0x03, index := ix + 1, bit := bit, header := false }

/-- The first information word of a clause check's trap (R63). -/
def ClauseFault.info (f : ClauseFault) : Word := BitVec.ofNat 64 (f.bit + (if f.header then 2 ^ 6 else 0))

/-- The checks of instruction ix of a clause in their order (R63). -/
def checkInstr (width : Nat) (priv diag : Bool) (h : Header) (ix : Nat) (w : Word) : Option ClauseFault :=
  match decodeOpcode (h.uni.getLsbD ix) w with
  | none => some (decodeFault ix .illegalOpcode)
  | some i =>
    if privilegeFails priv diag i then some { cause := 0x07, index := ix + 1, bit := 54, header := false }
    else if classFails h ix i then some { cause := 0x04, index := ix + 1, bit := 54, header := false }
    else
      match decode width (h.uni.getLsbD ix) w with
      | .ok _ => none
      | .error e => some (decodeFault ix e)

/-- The checks of a fetched clause in word order: the first failure (R63). -/
def checkClause (width : Nat) (priv diag : Bool) (words : List Word) : Option ClauseFault :=
  match words with
  | [] => none
  | w :: ws =>
    match checkHeader w with
    | some f => some f
    | none => ws.zipIdx.findSome? (fun x => checkInstr width priv diag (readHeader w) x.2 x.1)

/-- Acts for round n as if it issued, and leaves the issuing round as it was. -/
def asRound (s : State) (n : Nat) (k : State → Res) : Res :=
  match k { s with cur := n } with
  | .next t => .next { t with cur := s.cur }
  | .fault f => .fault f
  | .refused x => .refused x

/-- A trap between clauses: its instruction cannot be stepped over (R43, R63, R106, R325). -/
def fetchTrap (s : State) (r : Round) (cause index : Nat) (info0 info1 : Word) : Res :=
  .next (parkTrap s r { cause := cause, index := index, h := r.pc, info0 := info0, info1 := info1, info2 := 0, mask := r.cur } false 0)

/-- What the words of a clause give when they are fetched, each with its address (R44, R288): all of them, or the first fault in the
order refusal, missing page, lasting sector. -/
def withWords (s : State) (r : Round) (l : List (Word × CodeAt)) (k : List Word → Res) : Res :=
  let refusal (x : Word × CodeAt) : Option (Word × Nat) :=
    match x.2 with
    | .refused f => some (byteAddr x.1, f)
    | .wild => some (byteAddr x.1, 2)
    | _ => none
  match l.findSome? refusal with
  | some (a, f) => fetchTrap s r 0x61 0 a (BitVec.ofNat 64 f)
  | none =>
    match l.filterMap (fun x => match x.2 with | .missing lv => some (byteAddr x.1, lv) | _ => none) with
    | b :: bs =>
      .next (parkService s r ((b :: bs).foldl (fun acc x => insertPage (pageOf x.1) acc) []) r.cur r.cur b.1 b.2)
    | [] =>
      if l.any (fun x => x.2 == .held) then .next s
      else
      match l.findSome? (fun x => match x.2 with | .lasting pa => some pa | _ => none) with
      | some pa => fetchTrap s r 0x63 0 (BitVec.ofNat 64 (pa / 32 * 32)) 0
      | none => k (l.filterMap (fun x => match x.2 with | .word w => some w | _ => none))

/-- Whether a round stands between clauses on its core and may fetch. -/
def State.fetches (s : State) (r : Round) : Bool :=
  r.status == .ready && r.clause.isNone && r.fetched.isNone && s.resident r

/-- CLAUSE_FETCH (R44): the header, then the whole clause; a word that is no header comes alone and is found by the checks. -/
def execClauseFetch (round : Nat) (s : State) : Res :=
  match s.rounds[round]? with
  | none => .next s
  | some r =>
    if !s.fetches r then .next s
    else
      asRound s round (fun s =>
        withWords s r [(r.pc, s.codeAt r r.pc)] (fun hs =>
          let h := hs.headD 0
          let keep (ws : List Word) : Res := .next (s.setRound { r with fetched := some (r.pc, ws) })
          if !isHeader h then keep [h]
          else
            let addrs := (List.range ((readHeader h).cnt + 1)).map (fun i => r.pc + BitVec.ofNat 64 (i + 1))
            withWords s r (addrs.map (fun a => (a, s.codeAt r a))) (fun ws => keep (h :: ws))))

/-- Whether a round that is asked for its context stops here before it begins another clause (R105). -/
def State.stopsHere (s : State) (r : Round) : Bool :=
  match r.stopReq with
  | none => false
  | some n => (s.pointOf r).isSome || decide (watchdogClauses ≤ n)

/-- E of R82 before the priorities: the rounds of a quadrant that may begin a clause. -/
def State.eligible (s : State) (core quadrant : Nat) (r : Round) : Bool :=
  r.core == core && r.quadrant == quadrant && r.status == .ready && r.clause.isNone && r.fetched.isSome && s.resident r
    && decide (r.gapUntil ≤ s.now) && !s.stopsHere r

/-- A round's node priority with ageing (R82, R308); an image round has no node. DEDUCED: log entry 26. -/
def State.roundPriority (s : State) (r : Round) : Nat := ((s.nodeOf r).map s.eff).getD 0

/-- How far a slot stands after the last issuer, cyclically over slots 0 to 11 (R82). -/
def slotDistance (last slot : Nat) : Nat := (slot + 11 - last % 12) % 12

/-- The order of R82 between two eligible rounds. -/
def State.beginsBefore (s : State) (last : Nat) (a b : Round) : Bool :=
  decide (s.roundPriority b < s.roundPriority a)
    || (s.roundPriority a == s.roundPriority b
      && ((!a.giveway && b.giveway)
        || (a.giveway == b.giveway && decide (slotDistance last a.slot < slotDistance last b.slot))))

/-- The round that a quadrant selects (R82). -/
def State.select (s : State) (core quadrant : Nat) : Option (Nat × Round) :=
  let last := (s.core core).lastIssuer.getD quadrant 11
  (s.rounds.zipIdx.filter (fun q => s.eligible core quadrant q.1)).foldl (fun acc q =>
    match acc with
    | none => some (q.2, q.1)
    | some b => if s.beginsBefore last q.1 b.2 then some (q.2, q.1) else some b) none

/-- Time passes: the package's cycles, the clocks of its dies (R83), and what is left of each SLEEP (R96). Packets that have begun to take
effect and whose senders give them up by then do so whole before (R362). DESIGN CHOICE: log entry 6. -/
def State.tick (s0 : State) (ticks : Nat) : State :=
  let s := s0.landBefore (s0.now + ticks)
  { s with
    now := s.now + ticks
    dies := s.dies.map (fun d => { d with clock := d.clock + BitVec.ofNat 64 ticks })
    rounds := s.rounds.map (fun r => if r.status == .waiting .sleep then { r with sleep := r.sleep - ticks } else r) }

/-- The clause that a round begins (R39, R40, R82). -/
def beginClause (words : List Word) (r : Round) : Round :=
  match words with
  | [] => { r with fetched := none }
  | w :: ws =>
    let h := readHeader w
    { r with
      clause := some { h := r.pc, cls := h.cls, cnt := h.cnt, gap := h.gap, yld := h.yld, uni := h.uni, words := ws, idx := 0 }
      pc := r.pc + 1, fetched := none, giveway := h.yld, stopReq := r.stopReq.map (fun n => n + 1) }

/-- CLAUSE_SELECT (R63, R82): `ticks` cycles after the last selection, a quadrant selects the round that begins a clause; a clause
that fails a check traps. -/
def execClauseSelect (core quadrant ticks : Nat) (s0 : State) : Res :=
  let s := s0.tick ticks
  match s.select core quadrant with
  | none => .next s
  | some (n, r) =>
    match r.fetched with
    | none => .next s
    | some (pc, words) =>
      if pc != r.pc then .next (s.setRoundAt n { r with fetched := none })
      else
        match checkClause r.width r.priv (s.partOf r).diag words with
        | some f =>
          asRound s n (fun s =>
            fetchTrap s { r with fetched := none } f.cause f.index f.info 0)
        | none => .next ((s.setRoundAt n (beginClause words r)).lastIssuer r)

/-- SLEEP_EXPIRE (R96). -/
def execSleepExpire (round : Nat) (s : State) : Res :=
  match s.rounds[round]? with
  | none => .next s
  | some r => if r.status == .waiting .sleep && r.sleep == 0 then .next (s.setRoundAt round { r with status := .ready }) else .next s

end Sys2Proof.Machine
end

