-- ==== Sys2Proof/Machine/Ed448.lean ====
section
/-! DEFINITION. Ed448 keys and signatures (RFC 8032), which R341 uses. -/
namespace Sys2Proof.Machine

/-- The field's prime 2^448 - 2^224 - 1, the order of the base point, and the curve's constant -39081. -/
def edPrime : Nat := 2 ^ 448 - 2 ^ 224 - 1
def edOrder : Nat := 2 ^ 446 - 13818066809895115352007386748515426880336692474882178609894547503885
def edConst : Nat := edPrime - 39081

/-- Subtraction modulo the prime. -/
def edSub (a b : Nat) : Nat := (a + (edPrime - b)) % edPrime

/-- A point of the curve x² + y² = 1 + d·x²·y² in projective coordinates. -/
structure EdPoint where
  x : Nat
  y : Nat
  z : Nat
  deriving DecidableEq, Repr

/-- The neutral point and the base point (RFC 8032, 5.2). -/
def EdPoint.zero : EdPoint := { x := 0, y := 1, z := 1 }
def EdPoint.base : EdPoint :=
  { x := 224580040295924300187604334099896036246789641632564134246125461686950415467406032909029192869357953282578032075146446173674602635247710
    y := 298819210078481492676017930443930673437544040154080242095928241372331506189835876003536878655418784733982303233503462500531545062832660
    z := 1 }

/-- The sum of two points (RFC 8032, 5.2.4); the formula holds for every two points. -/
def EdPoint.add (p q : EdPoint) : EdPoint :=
  let a := p.z * q.z % edPrime
  let b := a * a % edPrime
  let c := p.x * q.x % edPrime
  let d := p.y * q.y % edPrime
  let e := edConst * c % edPrime * d % edPrime
  let f := edSub b e
  let g := (b + e) % edPrime
  let h := (p.x + p.y) * (q.x + q.y) % edPrime
  { x := a * f % edPrime * edSub (edSub h c) d % edPrime, y := a * g % edPrime * edSub d c % edPrime, z := f * g % edPrime }

/-- The multiple of a point by the lowest n bits of a number. -/
def EdPoint.times (p : EdPoint) : Nat → Nat → EdPoint
  | 0, _ => EdPoint.zero
  | n + 1, k =>
    let half := EdPoint.times p n (k / 2)
    let twice := half.add half
    if k % 2 = 1 then twice.add p else twice

/-- A power modulo the prime, by the lowest n bits of the exponent. -/
def edPow (a : Nat) : Nat → Nat → Nat
  | 0, _ => 1
  | n + 1, k =>
    let half := edPow a n (k / 2)
    let twice := half * half % edPrime
    if k % 2 = 1 then twice * a % edPrime else twice

/-- The 57 bytes of a point (RFC 8032, 5.2.2). -/
def EdPoint.encode (p : EdPoint) : List Byte :=
  let inv := edPow p.z 448 (edPrime - 2)
  toBytes 57 (p.y * inv % edPrime + p.x * inv % edPrime % 2 * 2 ^ 455)

/-- The secret scalar and the prefix of a private key (RFC 8032, 5.2.5). -/
def edSecret (key : List Byte) : Nat × List Byte :=
  let h := shake 114 key
  (ofBytes (h.take 56) / 4 * 4 % 2 ^ 447 + 2 ^ 447, h.drop 57)

/-- The public key of a private key. -/
def edPublic (key : List Byte) : List Byte := (EdPoint.base.times 448 (edSecret key).1).encode

/-- dom4 with phflag 0 and an empty context (RFC 8032, 2). -/
def edDomain : List Byte := [0x53, 0x69, 0x67, 0x45, 0x64, 0x34, 0x34, 0x38, 0, 0]

/-- The signature of a message (RFC 8032, 5.2.6), 114 bytes. -/
def edSign (key message : List Byte) : List Byte :=
  let (s, prefix_) := edSecret key
  let r := ofBytes (shake 114 (edDomain ++ prefix_ ++ message)) % edOrder
  let point := (EdPoint.base.times 446 r).encode
  let k := ofBytes (shake 114 (edDomain ++ point ++ edPublic key ++ message)) % edOrder
  point ++ toBytes 57 ((r + k * s) % edOrder)

/-- A point from its bytes (RFC 8032, 5.2.3); none where they name none. -/
def edDecode (b : List Byte) : Option EdPoint :=
  let n := ofBytes b
  let y := n % 2 ^ 455
  let y2 := y * y % edPrime
  let u := edSub y2 1
  let v := edSub (edConst * y2 % edPrime) 1
  let u2 := u * u % edPrime
  let v2 := v * v % edPrime
  let x := u2 * u % edPrime * v % edPrime * edPow (u2 * u2 % edPrime * u % edPrime * v2 % edPrime * v % edPrime) 446 ((edPrime - 3) / 4) % edPrime
  if b.length != 57 || edPrime ≤ y || v * (x * x % edPrime) % edPrime != u then none
  else if x = 0 && decide (2 ^ 455 ≤ n) then none
  else some { x := if decide (2 ^ 455 ≤ n) == (x % 2 == 1) then x else edSub 0 x, y := y, z := 1 }

/-- Whether two points are one. -/
def EdPoint.same (p q : EdPoint) : Bool :=
  p.x * q.z % edPrime == q.x * p.z % edPrime && p.y * q.z % edPrime == q.y * p.z % edPrime

/-- Whether a signature of a message verifies under a public key (RFC 8032, 5.2.7). -/
def edVerify (key message signature : List Byte) : Bool :=
  match edDecode key, edDecode (signature.take 57) with
  | some a, some r =>
    let s := ofBytes (signature.drop 57)
    let k := ofBytes (shake 114 (edDomain ++ signature.take 57 ++ key ++ message)) % edOrder
    let times4 (p : EdPoint) : EdPoint := p.times 3 4
    signature.length == 114 && decide (s < edOrder) && (times4 (EdPoint.base.times 446 s)).same (times4 (r.add (a.times 446 k)))
  | _, _ => false

end Sys2Proof.Machine
end

