-- ==== Sys2Proof/Machine/Upkeep.lean ====
section
/-! DEFINITION. What the memory system and the trap queue do of themselves (R287, R296, R299, R322, R323), with their events. -/
namespace Sys2Proof.Machine

/-- STORE_BUFFER_DRAIN (R296, R387): an entry leaves for its home slices, after the earlier entries to its bytes, or some of its units
leave ahead of the rest. -/
def execStoreBufferDrain (entry : StoreOut) (s : State) : Res :=
  match entry.units with
  | none => .next (s.drainStores (fun e => e.id == entry.entry))
  | some l => .next (s.drainUnits entry.entry l)

/-- STORE_BUFFER_TIMEOUT (R296): 64 microseconds after it entered, an entry leaves. -/
def execStoreBufferTimeout (entry : Nat) (s : State) : Res :=
  .next (s.drainStores (fun e => e.id == entry && decide (e.entered + s.micros 64 ≤ s.now)))

/-- STORE_ACK (R296): a home slice of the round's die, or of another die of the package, acknowledges a write. -/
def execStoreAck (round : Nat) (package : Bool) (s : State) : Res :=
  match s.rounds[round]? with
  | none => .next s
  | some r =>
    .next (s.setRoundAt round (if package then { r with pkgCtr := r.pkgCtr - 1 } else { r with dieCtr := r.dieCtr - 1 }))

/-- Translations that a core caches (R287). -/
def tlbEntries : Nat := 2048

/-- Adds a translation to a core's cache; the oldest leaves a full one. DEDUCED: log entry 64. -/
def Core.cache (c : Core) (e : TlbEntry) : Core :=
  { c with tlb := (e :: c.tlb.filter (fun x => !(x.part == e.part && x.va == e.va && x.size == e.size))).take tlbEntries }

/-- TRANSLATION_WALK_COMPLETE (R287): only a valid leaf is cached. -/
def execTranslationWalkComplete (core partition : Nat) (va : Word) (s : State) : Res :=
  match s.parts.find? (fun p => p.num == partition) with
  | none => .next s
  | some p =>
    if !canonical va then .next s
    else
      match walk s p va with
      | .missing _ => .next s
      | .held => .next s
      | .leaf l =>
        .next (s.setCore core ((s.core core).cache
          { part := partition, va := va.toNat / l.size * l.size, size := l.size, pa := l.pa, u := l.u, x := l.x, w := l.w }))

/-- Entries that a partition's ring has room for (R323): one place stays free, so that HEAD = TAIL means empty. DEDUCED: log entry 22. -/
def Partition.freeEntries (p : Partition) : Nat := p.ring - 1 - (p.head + p.ring - p.tail) % p.ring

/-- The virtual address of entry k of a partition's ring (R323, R326): the base is a 57-bit address. -/
def Partition.ringAt (p : Partition) (k : Nat) : Word :=
  (p.trapq.extractLsb' 12 45 ++ (0 : BitVec 12)).signExtend 64 + BitVec.ofNat 64 (64 * (k % p.ring))

/-- Physical addresses of the bytes of a request's entries, through the partition's tables; none while one is missing. -/
def State.ringPas (s : State) (p : Partition) (n : Nat) : Option (List Nat) :=
  ((List.range n).flatMap (fun i => (List.range 64).map (fun b => p.ringAt (p.head + i) + BitVec.ofNat 64 b))).mapM (fun a =>
    match translateWalk s p { write := true, fetch := false, user := false } a with
    | .ok pa => some pa
    | _ => none)

/-- TRAP_QUEUE_ENTRY_WRITE (R322, R323): the oldest waiting request is written whole, then HEAD moves past it. -/
def execTrapQueueEntryWrite (partition : Nat) (s : State) : Res :=
  match s.parts.find? (fun p => p.num == partition) with
  | none => .next s
  | some p =>
    match p.queue with
    | [] => .next s
    | entries :: rest =>
      if p.freeEntries < entries.length then .next s
      else
        match s.ringPas p entries.length with
        | none => .next s
        | some pas =>
          .next ((s.writeBytes (pas.zip (entries.flatMap (fun e => e.flatMap (fun w => toBytes 8 w.toNat))))).setPart
            { p with head := (p.head + entries.length) % p.ring, queue := rest })

/-- HOST_LINK_WRITE_ISSUE (R299): the oldest host write of a round issues on its trained link. -/
def execHostLinkWriteIssue (round : Nat) (s : State) : Res :=
  match s.hostq.find? (fun w => w.round == round) with
  | none => .next s
  | some w => if s.linkReady (linkOf w.part) then .next { s with hostq := s.hostq.erase w, hostOut := s.hostOut ++ [w] } else .next s

/-- Entries of a host window (R333). -/
def hostEntries : Nat := 4096

/-- HOST_WINDOW_WRITE (R333): the hypervisor writes an entry of a partition's host window. -/
def execHostWindowWrite (partition index : Nat) (entry : Word) (s : State) : Res :=
  match s.parts.find? (fun p => p.num == partition) with
  | none => .next s
  | some p => if index < hostEntries then .next (s.setPart { p with hostWin := SMap.set p.hostWin index entry }) else .next s

end Sys2Proof.Machine
end

