-- ==== Sys2Proof/Machine/Package.lean ====
section
/-! DEFINITION. The host's BAR0, inboxes, attestation, power, reset and self-test (R332 to R342), with their events. -/
namespace Sys2Proof.Machine

/-- The host functions (R332): 0 to 15 are the virtual functions of the partitions, 16 and 17 the physical functions of links A
and B. DEDUCED: log entry 25. -/
def fnLink (fn : Nat) : Nat := if fn < 16 then linkOf fn else fn - 16

/-- Whether a function answers: its link is trained and, for a virtual function, its partition exists (R332, R336, R338). -/
def State.fnEnabled (s : State) (fn : Nat) : Bool :=
  fn < 18 && s.linkReady (fnLink fn) && (16 ≤ fn || s.parts.any (fun p => p.num == fn))

/-- The places of n bytes of a partition's inbox (R334). A write to a missing page is lost. DEDUCED: log entry 23. -/
def State.inboxPlaces (s : State) (p : Partition) (offset n : Nat) : Gathered Nat :=
  gather ((List.range n).map (fun i =>
    let va := p.inbox + BitVec.ofNat 64 (offset + i)
    match translateWalk s p { write := true, fetch := false, user := false } va with
    | .ok pa => .ok pa
    | .missing _ => .missing va
    | .refused _ => .fault va 0x61
    | .held => .held))

/-- Bytes of the slots, and the place of PROD after them (R334). -/
def slotBytes : Nat := 65536

/-- The event of a PROD write (R322, R335). DEDUCED: log entry 23. -/
def inboxEvent (s : State) (p : Partition) (value : Word) : List Word :=
  queueEntry 2 0 0 0 0 0 0 0 value p.inbox 0 0 (s.die (lowestDie p.dies)).clock

/-- An attestation block that nothing has written (R341). -/
def Attestation.blank : Attestation := { nonce := List.replicate 64 0, latched := List.replicate 64 0, status := 0, report := [] }

/-- The attestation block of a function. -/
def State.attestation (s : State) (fn : Nat) : Attestation := SMap.get s.package.attest Attestation.blank fn
def State.setAttestation (s : State) (fn : Nat) (a : Attestation) : State :=
  { s with package := { s.package with attest := SMap.set s.package.attest fn a } }

/-- A report is asked for (R341): the nonce that stands now is the report's; while one is prepared a request changes nothing. DEDUCED: log entry
24. -/
def State.askReport (s : State) (fn : Nat) : State :=
  let a := s.attestation fn
  if s.fnEnabled fn && a.status != 1 then s.setAttestation fn { a with latched := a.nonce, status := 1 } else s

/-- ATTESTATION_REQUEST (R341). -/
def execAttestationRequest (fn : Nat) (s : State) : Res := .next (s.askReport fn)

/-- The measurements that a function's report lists (R341): firmware, hypervisor, then the partition images that it names. -/
def State.measured (s : State) (fn : Nat) : List (List Byte) :=
  let images := if fn < 16 then s.parts.filter (fun p => p.num == fn)
    else s.parts.foldl (fun acc p => insertBy (fun a b => decide (a.num < b.num)) p acc) []
  [shake256 Config.firmware, shake256 Config.hypervisor] ++ images.map (fun p => p.measured)

/-- The bytes of a report before its signature (R341). -/
def State.reportBody (s : State) (fn : Nat) (nonce : List Byte) : List Byte :=
  let ms := s.measured fn
  [0x41, 0x54, 0x54, 0x31, 0x00, 0x01, BitVec.ofNat 8 ms.length, if fn < 16 then BitVec.ofNat 8 fn else 0xFF]
    ++ toBytes 8 Config.serialNumber.toNat ++ nonce ++ edPublic Config.privateKey ++ List.replicate 7 0 ++ ms.flatten

/-- Whether every image that a function's report names has been started, and so measured (R341). -/
def State.reportable (s : State) (fn : Nat) : Bool := s.parts.all (fun p => p.started || (fn < 16 && p.num != fn))

/-- ATTESTATION_REPORT_READY (R341). -/
def execAttestationReportReady (fn : Nat) (s : State) : Res :=
  let a := s.attestation fn
  if a.status != 1 || !s.reportable fn then .next s
  else
    let body := s.reportBody fn a.latched
    .next (s.setAttestation fn { a with status := 2, report := body ++ edSign Config.privateKey body })

/-- LIMIT after a write of POWLIM (R342). -/
def clampLimit (value : Nat) : Nat := max 2000 (min 6000 (value % 2 ^ 16))

/-- The package takes a power limit, and keeps its power within it (R342). DEDUCED: log entry 30. -/
def Package.setLimit (p : Package) (value : Nat) : Package :=
  { p with limit := clampLimit value, watts := min p.watts (clampLimit value) }

/-- POWLIM_WRITE (R342). -/
def execPowlimWrite (value : Word) (s : State) : Res := .next { s with package := s.package.setLimit value.toNat }

/-- What POWLIM reads (R342). -/
def Package.powlim (p : Package) : Word := BitVec.ofNat 64 (p.limit + 2 ^ 16 * p.watts + 2 ^ 32 * p.clk)

/-- POWER_THROTTLE (R342): the arithmetic clock and the power within LIMIT. DEDUCED: log entry 30. -/
def execPowerThrottle (clk watts : Nat) (s : State) : Res :=
  if 8 ≤ clk && decide (clk ≤ 17) && decide (watts ≤ s.package.limit) then
    .next { s with package := { s.package with clk := clk, watts := watts } }
  else .next s

/-- The bytes of a host write that fall into a range of BAR0, with their offsets in the range. -/
def barBytes (offset : Nat) (data : List Byte) (lo n : Nat) : List (Nat × Byte) :=
  ((List.range data.length).zip data).filterMap (fun x =>
    if lo ≤ offset + x.1 && decide (offset + x.1 < lo + n) then some (offset + x.1 - lo, x.2) else none)

/-- A list of bytes with some replaced. -/
def overwrite (l : List Byte) (bytes : List (Nat × Byte)) : List Byte := bytes.foldl (fun l b => l.set b.1 b.2) l

/-- The inbox part of a BAR0 write (R332, R334, R335), at its home slices: slots, then PROD; what the image writes is not the host's to change.
None while it waits for an HBM channel (R338). -/
def State.barInbox (s : State) (w : BarWrite) : Option State :=
  match s.parts.find? (fun p => p.num == w.fn) with
  | none => some s
  | some p =>
    let slots := barBytes w.offset w.data 0 slotBytes
    let prod := barBytes w.offset w.data slotBytes 8
    let places (off n : Nat) : Gathered Nat := if n = 0 then .ok [] else s.inboxPlaces p off n
    match places ((slots.map (fun x => x.1)).headD 0) slots.length, places slotBytes (if prod.isEmpty then 0 else 8) with
    | .held, _ => none
    | _, .held => none
    | a, b =>
      let s1 := match a with | .ok pas => s.writeBytes (pas.zip (slots.map (fun x => x.2))) | _ => s
      match b with
      | .ok (pa :: pas) =>
        let new := overwrite ((pa :: pas).map (Memory.read s1.mem)) prod
        some ((s1.writeBytes ((pa :: pas).zip new)).enqueue w.fn [inboxEvent s1 p (BitVec.ofNat 64 (ofBytes new))])
      | _ => some s1

/-- What a host write to BAR0 does (R332): it goes to what stands at its offsets; other offsets ignore it. None while it waits. -/
def State.applyBar (s : State) (w : BarWrite) : Option State :=
  (if w.fn < 16 then s.barInbox w else some s).map (fun s1 =>
    let a := s1.attestation w.fn
    let nonce := barBytes w.offset w.data 0x11000 64
    let s2 := if nonce.isEmpty then s1 else s1.setAttestation w.fn { a with nonce := overwrite a.nonce nonce }
    let power := barBytes w.offset w.data 0x20000 2
    let s3 : State :=
      if w.fn < 16 || power.isEmpty then s2
      else { s2 with package := s2.package.setLimit (ofBytes (overwrite (toBytes 2 s2.package.limit) power)) }
    if (barBytes w.offset w.data 0x11040 1).any (fun b => b.2 == 1) then s3.askReport w.fn else s3)

/-- Whether a host write to a function waits (R338). -/
def State.barWaits (s : State) (fn : Nat) : Bool := s.package.barq.any (fun w => w.fn == fn)

/-- A host write arrives (R335, R338): it waits behind an earlier one of its function, and while a channel that it needs is not ready. -/
def State.barWrite (s : State) (w : BarWrite) : State :=
  if !s.fnEnabled w.fn then s
  else
    match (if s.barWaits w.fn then none else s.applyBar w) with
    | some s1 => s1
    | none => { s with package := { s.package with barq := s.package.barq ++ [w] } }

/-- The first host write that waits behind none of its function and need wait no longer takes effect (R338). -/
def State.hostWrite (s : State) : State :=
  let first (w : BarWrite) : Bool := s.package.barq.find? (fun x => x.fn == w.fn) == some w
  (s.package.barq.findSome? (fun w =>
    if first w then
      (s.applyBar w).map (fun s1 => ({ s1 with package := { s1.package with barq := s1.package.barq.erase w } } : State))
    else none)).getD s

/-- BAR0_WRITE (R332). -/
def execBar0Write (fn offset : Nat) (data : List Byte) (s : State) : Res := .next (s.barWrite { fn := fn, offset := offset, data := data })

/-- INBOX_SLOT_WRITE (R334, R335): a host write that lies in the slots. -/
def execInboxSlotWrite (partition offset : Nat) (data : List Byte) (s : State) : Res :=
  if partition < 16 && decide (offset + data.length ≤ slotBytes) then .next (s.barWrite { fn := partition, offset := offset, data := data })
  else .next s

/-- INBOX_PROD_WRITE (R334, R335). -/
def execInboxProdWrite (partition : Nat) (value : Word) (s : State) : Res :=
  if partition < 16 then .next (s.barWrite { fn := partition, offset := slotBytes, data := toBytes 8 value.toNat }) else .next s

/-- What the host reads at an offset of a function's BAR0 (R332, R334, R341, R342): an inbox's slots, PROD and CONS; the attestation block;
POWLIM; other offsets, and a function that is disabled, read as zero. None while the read waits for an HBM channel (R338). DEDUCED: log entry
25. -/
def State.bar0Byte (s : State) (fn offset : Nat) : Option Byte :=
  let a := s.attestation fn
  if !s.fnEnabled fn then some 0
  else if offset < slotBytes + 16 then
    match (s.parts.find? (fun p => p.num == fn)).map (fun p => s.inboxPlaces p offset 1) with
    | some (.ok l) => some (Memory.read s.mem (l.headD 0))
    | some .held => none
    | _ => some 0
  else if 0x11000 ≤ offset && offset < 0x11040 then some (a.nonce.getD (offset - 0x11000) 0)
  else if offset = 0x11040 then some (BitVec.ofNat 8 a.status)
  else if 0x11100 ≤ offset && offset < 0x20000 then some (a.report.getD (offset - 0x11100) 0)
  else if 16 ≤ fn && 0x20000 ≤ offset && offset < 0x20008 then some ((toBytes 8 s.package.powlim.toNat).getD (offset - 0x20000) 0)
  else some 0

/-- A host read of n bytes of a function's BAR0 (R332), which comes after the writes of the function that wait; none while it waits itself. -/
def State.bar0Read (s : State) (fn offset n : Nat) : Option (List Byte) :=
  if s.barWaits fn then none else (List.range n).mapM (fun i => s.bar0Byte fn (offset + i))

/-- The next step of the bring-up (R337): the firmware is measured and run; the hypervisor is verified, measured and started. An image that
does not verify is not started. -/
def State.bringUp (s : State) : State :=
  match s.package.boot with
  | 0 => { s with package := { s.package with boot := 1 } }
  | 1 =>
    if edVerify Config.rootKey Config.hypervisor Config.hypervisorSignature then { s with package := { s.package with boot := 2 } } else s
  | _ => s

/-- RESET (R337): all state of the package; the model's schedule, its free-value counter and its identifiers go on. DESIGN CHOICE: log entry
32. -/
def execPackageReset (s : State) : Res :=
  .next { State.reset with agenda := s.agenda, free := s.free, nextId := s.nextId }

/-- Whether the readiness map has a function at a bit (R338). -/
def readyBit (word bit : Nat) : Bool :=
  if word < 12 then bit < 64
  else if word = 12 then bit < 6 || (8 ≤ bit && bit < 14)
  else if word = 13 then bit < 16
  else if word < 16 then bit < 64
  else word == 16 && bit < 26

/-- SELF_TEST_COMPLETE (R337, R338): once the hypervisor runs, a function that passed its test sets its readiness bit. -/
def execSelfTestComplete (word bit : Nat) (s : State) : Res :=
  if s.package.boot == 2 && readyBit word bit then
    .next { s with package := { s.package with
      ready := SMap.set s.package.ready word (SMap.get s.package.ready 0 word ||| BitVec.ofNat 64 (2 ^ bit)) } }
  else .next s

/-- A counter of errors that stops at 0xFFFF (R289). -/
def countError (n : Nat) : Nat := min 0xFFFF (n + 1)

/-- A read finds an error in a sector of HBM (R289, R328): ECC corrects it, a second read cures it, or it persists; then the sector is marked
lasting, and the image of the die's partition receives an event that names the page. Reads of it that have been issued, and checked, come
before. DEDUCED: log entry 28. -/
def State.hbmError (s : State) (sector : Nat) (e : HbmError) : State :=
  let pa := 32 * sector
  let d := s.die (homeDie pa)
  if !mapped pa then s
  else
    match e with
    | .corrected => s.setDie (homeDie pa) { d with corr := countError d.corr }
    | .cured => s.setDie (homeDie pa) { d with trans := countError d.trans }
    | .lasting =>
      if s.isLasting pa then s
      else
        let s0 := s.performOn (fun _ _ a => a.isRead) false ((List.range 32).map (fun i => pa + i))
        let s1 : State := { s0 with lasting := s0.lasting ++ [sector] }
        let s2 := s1.setDie (homeDie pa) { d with lasting := countError d.lasting }
        match d.part with
        | none => s2
        | some p => s2.enqueue p [queueEntry 2 0x63 0 0 0 0 0 0 (BitVec.ofNat 64 (pa / pageBytes * pageBytes)) 0 0 0 d.clock]

end Sys2Proof.Machine
end

