-- ==== Sys2Proof/Machine/Dispatch.lean ====
section
/-! DEFINITION. The meaning of every row of the opcode table: one arm for each constructor, one call of its meaning. -/
namespace Sys2Proof.Machine

def exec (i : Instr) (s : State) : Host.Outcome State Fault Refusal :=
  match i with
  | .iadd f => Sys2Proof.Machine.execIadd f s
  | .isub f => Sys2Proof.Machine.execIsub f s
  | .imul f => Sys2Proof.Machine.execImul f s
  | .imulh f => Sys2Proof.Machine.execImulh f s
  | .imad f => Sys2Proof.Machine.execImad f s
  | .imin f => Sys2Proof.Machine.execImin f s
  | .imax f => Sys2Proof.Machine.execImax f s
  | .iabs f => Sys2Proof.Machine.execIabs f s
  | .and f => Sys2Proof.Machine.execAnd f s
  | .or f => Sys2Proof.Machine.execOr f s
  | .xor f => Sys2Proof.Machine.execXor f s
  | .andn f => Sys2Proof.Machine.execAndn f s
  | .not f => Sys2Proof.Machine.execNot f s
  | .shl f => Sys2Proof.Machine.execShl f s
  | .shr f => Sys2Proof.Machine.execShr f s
  | .sar f => Sys2Proof.Machine.execSar f s
  | .rol f => Sys2Proof.Machine.execRol f s
  | .popc f => Sys2Proof.Machine.execPopc f s
  | .clz f => Sys2Proof.Machine.execClz f s
  | .ctz f => Sys2Proof.Machine.execCtz f s
  | .brev f => Sys2Proof.Machine.execBrev f s
  | .bfx f => Sys2Proof.Machine.execBfx f s
  | .bfi f => Sys2Proof.Machine.execBfi f s
  | .lea f => Sys2Proof.Machine.execLea f s
  | .mov f => Sys2Proof.Machine.execMov f s
  | .sel f => Sys2Proof.Machine.execSel f s
  | .bysel f => Sys2Proof.Machine.execBysel f s
  | .icmp f => Sys2Proof.Machine.execIcmp f s
  | .pcomb f => Sys2Proof.Machine.execPcomb f s
  | .vote f => Sys2Proof.Machine.execVote f s
  | .pick f => Sys2Proof.Machine.execPick f s
  | .iaddi f => Sys2Proof.Machine.execIaddi f s
  | .imuli f => Sys2Proof.Machine.execImuli f s
  | .andi f => Sys2Proof.Machine.execAndi f s
  | .ori f => Sys2Proof.Machine.execOri f s
  | .xori f => Sys2Proof.Machine.execXori f s
  | .shli f => Sys2Proof.Machine.execShli f s
  | .shri f => Sys2Proof.Machine.execShri f s
  | .sari f => Sys2Proof.Machine.execSari f s
  | .movi f => Sys2Proof.Machine.execMovi f s
  | .movk f => Sys2Proof.Machine.execMovk f s
  | .icmpi f => Sys2Proof.Machine.execIcmpi f s
  | .fadd ty f => Sys2Proof.Machine.execFadd ty f s
  | .fsub ty f => Sys2Proof.Machine.execFsub ty f s
  | .fmul ty f => Sys2Proof.Machine.execFmul ty f s
  | .ffma ty f => Sys2Proof.Machine.execFfma ty f s
  | .fmin ty f => Sys2Proof.Machine.execFmin ty f s
  | .fmax ty f => Sys2Proof.Machine.execFmax ty f s
  | .fcmp ty f => Sys2Proof.Machine.execFcmp ty f s
  | .frnd ty f => Sys2Proof.Machine.execFrnd ty f s
  | .fneg ty f => Sys2Proof.Machine.execFneg ty f s
  | .fabs ty f => Sys2Proof.Machine.execFabs ty f s
  | .fdot ty f => Sys2Proof.Machine.execFdot ty f s
  | .fclass ty f => Sys2Proof.Machine.execFclass ty f s
  | .fcvt f => Sys2Proof.Machine.execFcvt f s
  | .f2i f => Sys2Proof.Machine.execF2i f s
  | .i2f f => Sys2Proof.Machine.execI2f f s
  | .qnt f => Sys2Proof.Machine.execQnt f s
  | .dqnt f => Sys2Proof.Machine.execDqnt f s
  | .gcomp f => Sys2Proof.Machine.execGcomp f s
  | .cvtw f => Sys2Proof.Machine.execCvtw f s
  | .wreb f => Sys2Proof.Machine.execWreb f s
  | .shfl f => Sys2Proof.Machine.execShfl f s
  | .shflx f => Sys2Proof.Machine.execShflx f s
  | .bcst f => Sys2Proof.Machine.execBcst f s
  | .radd f => Sys2Proof.Machine.execRadd f s
  | .rmin f => Sys2Proof.Machine.execRmin f s
  | .rmax f => Sys2Proof.Machine.execRmax f s
  | .rminx f => Sys2Proof.Machine.execRminx f s
  | .rmaxx f => Sys2Proof.Machine.execRmaxx f s
  | .rbit f => Sys2Proof.Machine.execRbit f s
  | .scana f => Sys2Proof.Machine.execScana f s
  | .scanae f => Sys2Proof.Machine.execScanae f s
  | .scanmin f => Sys2Proof.Machine.execScanmin f s
  | .scanmax f => Sys2Proof.Machine.execScanmax f s
  | .matchLanes f => Sys2Proof.Machine.execMatch f s
  | .ld f => Sys2Proof.Machine.execLd f s
  | .st f => Sys2Proof.Machine.execSt f s
  | .lds f => Sys2Proof.Machine.execLds f s
  | .sts f => Sys2Proof.Machine.execSts f s
  | .ldh f => Sys2Proof.Machine.execLdh f s
  | .sth f => Sys2Proof.Machine.execSth f s
  | .stp f => Sys2Proof.Machine.execStp f s
  | .atom f => Sys2Proof.Machine.execAtom f s
  | .atomu f => Sys2Proof.Machine.execAtomu f s
  | .cas f => Sys2Proof.Machine.execCas f s
  | .atoms f => Sys2Proof.Machine.execAtoms f s
  | .cass f => Sys2Proof.Machine.execCass f s
  | .fence f => Sys2Proof.Machine.execFence f s
  | .fencex f => Sys2Proof.Machine.execFencex f s
  | .pref f => Sys2Proof.Machine.execPref f s
  | .tlook f => Sys2Proof.Machine.execTlook f s
  | .tset f => Sys2Proof.Machine.execTset f s
  | .tclr f => Sys2Proof.Machine.execTclr f s
  | .cpy f => Sys2Proof.Machine.execCpy f s
  | .cpyr f => Sys2Proof.Machine.execCpyr f s
  | .cpyi f => Sys2Proof.Machine.execCpyi f s
  | .cseal f => Sys2Proof.Machine.execCseal f s
  | .cwait f => Sys2Proof.Machine.execCwait f s
  | .cwaitk f => Sys2Proof.Machine.execCwaitk f s
  | .lyld f => Sys2Proof.Machine.execLyld f s
  | .lyst f => Sys2Proof.Machine.execLyst f s
  | .lyset f => Sys2Proof.Machine.execLyset f s
  | .lyget f => Sys2Proof.Machine.execLyget f s
  | .place f => Sys2Proof.Machine.execPlace f s
  | .plq f => Sys2Proof.Machine.execPlq f s
  | .tld f => Sys2Proof.Machine.execTld f s
  | .tst f => Sys2Proof.Machine.execTst f s
  | .loc f => Sys2Proof.Machine.execLoc f s
  | .mmah f => Sys2Proof.Machine.execMmah f s
  | .mmab f => Sys2Proof.Machine.execMmab f s
  | .scacc f => Sys2Proof.Machine.execScacc f s
  | .spush f => Sys2Proof.Machine.execSpush f s
  | .schk f => Sys2Proof.Machine.execSchk f s
  | .azero f => Sys2Proof.Machine.execAzero f s
  | .ald f => Sys2Proof.Machine.execAld f s
  | .drn f => Sys2Proof.Machine.execDrn f s
  | .pjadj f => Sys2Proof.Machine.execPjadj f s
  | .achk f => Sys2Proof.Machine.execAchk f s
  | .arel f => Sys2Proof.Machine.execArel f s
  | .aset f => Sys2Proof.Machine.execAset f s
  | .sfq f => Sys2Proof.Machine.execSfq f s
  | .sfwait f => Sys2Proof.Machine.execSfwait f s
  | .sfpoll f => Sys2Proof.Machine.execSfpoll f s
  | .bra f => Sys2Proof.Machine.execBra f s
  | .brx f => Sys2Proof.Machine.execBrx f s
  | .call f => Sys2Proof.Machine.execCall f s
  | .callx f => Sys2Proof.Machine.execCallx f s
  | .ret f => Sys2Proof.Machine.execRet f s
  | .mjoin f => Sys2Proof.Machine.execMjoin f s
  | .join f => Sys2Proof.Machine.execJoin f s
  | .brw f => Sys2Proof.Machine.execBrw f s
  | .exit f => Sys2Proof.Machine.execExit f s
  | .nop f => Sys2Proof.Machine.execNop f s
  | .rpf f => Sys2Proof.Machine.execRpf f s
  | .rdrop f => Sys2Proof.Machine.execRdrop f s
  | .wbind f => Sys2Proof.Machine.execWbind f s
  | .wstat f => Sys2Proof.Machine.execWstat f s
  | .trap f => Sys2Proof.Machine.execTrap f s
  | .bkpt f => Sys2Proof.Machine.execBkpt f s
  | .yield f => Sys2Proof.Machine.execYield f s
  | .sleep f => Sys2Proof.Machine.execSleep f s
  | .rdsr f => Sys2Proof.Machine.execRdsr f s
  | .caprd f => Sys2Proof.Machine.execCaprd f s
  | .bara f => Sys2Proof.Machine.execBara f s
  | .barw f => Sys2Proof.Machine.execBarw f s
  | .barq f => Sys2Proof.Machine.execBarq f s
  | .cbar f => Sys2Proof.Machine.execCbar f s
  | .xwin f => Sys2Proof.Machine.execXwin f s
  | .xst f => Sys2Proof.Machine.execXst f s
  | .xadd f => Sys2Proof.Machine.execXadd f s
  | .semp f => Sys2Proof.Machine.execSemp f s
  | .semw f => Sys2Proof.Machine.execSemw f s
  | .gpost f => Sys2Proof.Machine.execGpost f s
  | .garm f => Sys2Proof.Machine.execGarm f s
  | .gwait f => Sys2Proof.Machine.execGwait f s
  | .grdy f => Sys2Proof.Machine.execGrdy f s
  | .madmit f => Sys2Proof.Machine.execMadmit f s
  | .mretire f => Sys2Proof.Machine.execMretire f s
  | .mread f => Sys2Proof.Machine.execMread f s
  | .rld f => Sys2Proof.Machine.execRld f s
  | .rst f => Sys2Proof.Machine.execRst f s
  | .ratom f => Sys2Proof.Machine.execRatom f s
  | .rcas f => Sys2Proof.Machine.execRcas f s
  | .rflush f => Sys2Proof.Machine.execRflush f s
  | .rrel f => Sys2Proof.Machine.execRrel f s
  | .rankq f => Sys2Proof.Machine.execRankq f s
  | .coll f => Sys2Proof.Machine.execColl f s
  | .collw f => Sys2Proof.Machine.execCollw f s
  | .crjob f => Sys2Proof.Machine.execCrjob f s
  | .crwait f => Sys2Proof.Machine.execCrwait f s
  | .crstat f => Sys2Proof.Machine.execCrstat f s
  | .crplan f => Sys2Proof.Machine.execCrplan f s
  | .wrsr f => Sys2Proof.Machine.execWrsr f s
  | .eret f => Sys2Proof.Machine.execEret f s
  | .tlbi f => Sys2Proof.Machine.execTlbi f s
  | .rtabw f => Sys2Proof.Machine.execRtabw f s
  | .halt f => Sys2Proof.Machine.execHalt f s
  | .diag f => Sys2Proof.Machine.execDiag f s
  | .ctxsv f => Sys2Proof.Machine.execCtxsv f s
  | .ctxld f => Sys2Proof.Machine.execCtxld f s
  | .clauseSelect core quadrant ticks => Sys2Proof.Machine.execClauseSelect core quadrant ticks s
  | .sleepExpire round => Sys2Proof.Machine.execSleepExpire round s
  | .roundEnd round => Sys2Proof.Machine.execRoundEnd round s
  | .spill core => Sys2Proof.Machine.execSpill core s
  | .watchdog round => Sys2Proof.Machine.execWatchdog round s
  | .roundStop round => Sys2Proof.Machine.execRoundStop round s
  | .contextSave team => Sys2Proof.Machine.execContextSave team s
  | .cpyrDataLand round member => Sys2Proof.Machine.execCpyrDataLand round member s
  | .copyMemberComplete round member words => Sys2Proof.Machine.execCopyMemberComplete round member words s
  | .passComplete round member parcels => Sys2Proof.Machine.execPassComplete round member parcels s
  | .drainComplete round writes => Sys2Proof.Machine.execDrainComplete round writes s
  | .sfqResultLand round token => Sys2Proof.Machine.execSfqResultLand round token s
  | .exchangeItemLand item => Sys2Proof.Machine.execExchangeItemLand item s
  | .windowTableUpdate update => Sys2Proof.Machine.execWindowTableUpdate update s
  | .storeBufferDrain entry => Sys2Proof.Machine.execStoreBufferDrain entry s
  | .storeBufferTimeout entry => Sys2Proof.Machine.execStoreBufferTimeout entry s
  | .storeAck round package => Sys2Proof.Machine.execStoreAck round package s
  | .translationWalkComplete core partition va => Sys2Proof.Machine.execTranslationWalkComplete core partition va s
  | .trapQueueEntryWrite partition => Sys2Proof.Machine.execTrapQueueEntryWrite partition s
  | .sortingOfficeAdmit die => Sys2Proof.Machine.execSortingOfficeAdmit die s
  | .nodeComplete node => Sys2Proof.Machine.execNodeComplete node s
  | .courierJobStart job => Sys2Proof.Machine.execCourierJobStart job s
  | .courierSegmentComplete job segment outside => Sys2Proof.Machine.execCourierSegmentComplete job segment outside s
  | .courierNodeStop node => Sys2Proof.Machine.execCourierNodeStop node s
  | .collectiveStart coll => Sys2Proof.Machine.execCollectiveStart coll s
  | .collectiveComplete coll outside => Sys2Proof.Machine.execCollectiveComplete coll outside s
  | .rotorPhase => Sys2Proof.Machine.execRotorPhase s
  | .packetArrive packet => Sys2Proof.Machine.execPacketArrive packet s
  | .fabricAckArrive packet outside => Sys2Proof.Machine.execFabricAckArrive packet outside s
  | .remoteReplyArrive round outside => Sys2Proof.Machine.execRemoteReplyArrive round outside s
  | .packetRetransmit packet => Sys2Proof.Machine.execPacketRetransmit packet s
  | .fabricTimeout packet => Sys2Proof.Machine.execFabricTimeout packet s
  | .relayForward packet => Sys2Proof.Machine.execRelayForward packet s
  | .wcLineAgeing line => Sys2Proof.Machine.execWcLineAgeing line s
  | .rankMigration partition job entries => Sys2Proof.Machine.execRankMigration partition job entries s
  | .inboxSlotWrite partition offset data => Sys2Proof.Machine.execInboxSlotWrite partition offset data s
  | .inboxProdWrite partition value => Sys2Proof.Machine.execInboxProdWrite partition value s
  | .attestationRequest fn => Sys2Proof.Machine.execAttestationRequest fn s
  | .attestationReportReady fn => Sys2Proof.Machine.execAttestationReportReady fn s
  | .powlimWrite value => Sys2Proof.Machine.execPowlimWrite value s
  | .powerThrottle clk watts => Sys2Proof.Machine.execPowerThrottle clk watts s
  | .bar0Write fn offset data => Sys2Proof.Machine.execBar0Write fn offset data s
  | .packageReset => Sys2Proof.Machine.execPackageReset s
  | .selfTestComplete word bit => Sys2Proof.Machine.execSelfTestComplete word bit s
  | .partitionImageStart partition core entry => Sys2Proof.Machine.execPartitionImageStart partition core entry s
  | .partitionAssign spec => Sys2Proof.Machine.execPartitionAssign spec s
  | .clauseFetch round => Sys2Proof.Machine.execClauseFetch round s
  | .hostLinkWriteIssue round => Sys2Proof.Machine.execHostLinkWriteIssue round s
  | .hostWindowWrite partition index entry => Sys2Proof.Machine.execHostWindowWrite partition index entry s
  | .heldFlagDiscard flag => Sys2Proof.Machine.execHeldFlagDiscard flag s

end Sys2Proof.Machine
end

