-- ==== Sys2Proof/Machine/Issue.lean ====
section
/-! DEFINITION. The issue of a round's next instruction, and the schedule that the model follows where its agenda names nothing
(R44, R63, R81). -/
namespace Sys2Proof.Machine

/-- Whether a round stands in a clause and may issue (R81): a round that waits issues its instruction again. -/
def Round.issues (r : Round) : Bool :=
  r.clause.isSome && (match r.status with | .ready => true | .waiting _ => true | _ => false)

/-- Word ix of a round's clause, with its UNI bit (R40). -/
def Round.nextWord (r : Round) : Option (Bool × Word) :=
  r.clause.bind (fun c => c.words[c.idx]?.map (fun w => (c.uni.getLsbD c.idx, w)))

/-- Whether another round of round n's quadrant stands in a clause and is not stalled (R81). -/
def State.quadrantBusy (s : State) (n : Nat) (r : Round) : Bool :=
  s.rounds.zipIdx.any (fun q =>
    q.2 != n && q.1.core == r.core && q.1.quadrant == r.quadrant && q.1.clause.isSome && q.1.status == .ready && s.resident q.1)

/-- Round n issues its next instruction as it was fetched (R44), while no other round of its quadrant stands unstalled in a clause (R81);
`late` says that its access is left pending. A word that the clause checks did not admit traps as they would have it (R63). DEDUCED: log entry
27. -/
def issueRound (n : Nat) (late : Bool) (s : State) : Res :=
  match s.rounds[n]? with
  | none => .next s
  | some r =>
    match r.nextWord with
    | none => .next s
    | some (uni, w) =>
      if !r.issues || s.quadrantBusy n r then .next s
      else
        match decode r.width uni w with
        | .ok i => exec i { s with cur := n, late := late }
        | .error e =>
          let f := decodeFault r.ix e
          .next (parkTrap { s with cur := n } r
            { cause := f.cause, index := f.index, h := r.h, info0 := f.info, info1 := 0, info2 := 0, mask := r.cur } false r.ix)

/-- Whether a round waits. -/
def Status.waits : Status → Bool
  | .waiting _ => true
  | _ => false

/-- Whether the stall of a round in a clause has cleared: issued now it would not stall again. A stall on the scoreboard lasts as long as
latencies have it, which the model does not have. DEDUCED: log entry 65. -/
def State.stallCleared (s : State) (n : Nat) (r : Round) : Bool :=
  match r.status with
  | .waiting .scoreboard => false
  | .waiting _ =>
    r.clause.isSome && s.resident r && (match issueRound n false s with
      | .next t => ((t.rounds[n]?).map (fun q => !q.status.waits)).getD true
      | _ => true)
  | _ => false

/-- Whether a quadrant must complete a clause before it selects another (R81). -/
def State.mustComplete (s : State) (core quadrant : Nat) : Bool :=
  s.rounds.zipIdx.any (fun q =>
    q.1.core == core && q.1.quadrant == quadrant && ((q.1.clause.isSome && q.1.status == .ready && s.resident q.1) || s.stallCleared q.2 q.1))

/-- An event of the agenda. An instruction is no event of its own; while a quadrant must complete a clause only time passes for it (R81). -/
def runEvent (e : Instr) (s : State) : Res :=
  if e.hasWord then .next s
  else
    match e with
    | .clauseSelect core quadrant ticks => if s.mustComplete core quadrant then .next (s.tick ticks) else exec e s
    | _ => exec e s

/-- A round in a clause stalls on the scoreboard: an instruction before has not written its result yet (R81). -/
def State.holdRound (s : State) (n : Nat) : State :=
  match s.rounds[n]? with
  | none => s
  | some r => if r.status == .ready && r.clause.isSome then s.setRoundAt n { r with status := .waiting .scoreboard } else s

/-- One turn of the agenda. DESIGN CHOICE: log entry 3. -/
def runTurn (t : Turn) (s : State) : Res :=
  match t with
  | .event e => runEvent e s
  | .issue n => issueRound n false s
  | .late n => issueRound n true s
  | .perform n id units => .next (s.perform n id units)
  | .read n id kind addrs => .next (s.readMember n id kind addrs)
  | .segment job seg write offsets => .next (s.moveSegment job seg write offsets)
  | .collRead coll offsets => .next (s.readCollWords coll offsets)
  | .collResult coll outside => .next (s.computeColl coll outside)
  | .collWrite coll addrs => .next (s.writeCollWords coll addrs)
  | .hold n => .next (s.holdRound n)
  | .hbm sector e => .next (s.hbmError sector e)
  | .boot => .next s.bringUp
  | .hostWrite => .next s.hostWrite

/-- Turns that may do something, in the order in which the default schedule tries them: rounds in a clause, those that wait also, before the
fetches and the selections of quadrants that may select (R81), then what the engines, the memory system, the fabric and the sorting office
have at hand. -/
def State.turns (s : State) : List Turn :=
  let rs := s.rounds.zipIdx
  (rs.filter (fun q => q.1.status == .ready && q.1.issues)).map (fun q => .issue q.2)
    ++ (rs.filter (fun q => q.1.status != .ready && q.1.issues)).map (fun q => .issue q.2)
    ++ (rs.filter (fun q => s.fetches q.1)).map (fun q => .event (.clauseFetch q.2))
    ++ (rs.filter (fun q => s.eligible q.1.core q.1.quadrant q.1 && !s.mustComplete q.1.core q.1.quadrant)).map (fun q => .event (.clauseSelect q.1.core q.1.quadrant 1))
    ++ rs.flatMap (fun q => q.1.pending.map (fun a => .perform q.2 a.id none))
    ++ rs.flatMap (fun q => q.1.tokens.map (fun t => .event (.sfqResultLand q.2 t.token)))
    ++ rs.flatMap (fun q => q.1.members.flatMap (fun m =>
        [.event (.cpyrDataLand q.2 m.id), .event (.copyMemberComplete q.2 m.id none), .event (.passComplete q.2 m.id none)]))
    ++ (rs.filter (fun q => !q.1.drain.isEmpty)).map (fun q => .event (.drainComplete q.2 none))
    ++ s.items.map (fun i => .event (.exchangeItemLand i.id))
    ++ s.updates.map (fun u => .event (.windowTableUpdate u.id))
    ++ s.jobs.zipIdx.flatMap (fun j => .event (.courierJobStart j.2)
        :: (List.range (j.1.plan.length + 1)).map (fun k => .event (.courierSegmentComplete j.2 k .none)))
    ++ s.colls.zipIdx.flatMap (fun c => [.event (.collectiveStart c.2), .event (.collectiveComplete c.2 [])])
    ++ s.flights.flatMap (fun f => [.event (.packetArrive (.queued f.key none)), .event (.fabricAckArrive f.key .none)])
    ++ s.parts.map (fun p => .event (.trapQueueEntryWrite p.num))
    ++ rs.flatMap (fun q => [.event (.roundStop q.2), .event (.watchdog q.2), .event (.roundEnd q.2), .event (.sleepExpire q.2)])
    ++ (List.range s.teams.length).map (fun k => .event (.contextSave k))
    ++ (List.range s.nodes.length).map (fun n => .event (.nodeComplete n))
    ++ (List.range 6).map (fun d => .event (.sortingOfficeAdmit d))
    ++ s.stores.map (fun e => .event (.storeBufferDrain ⟨e.id, none⟩))
    ++ [.hostWrite, .boot]

/-- Whether two states differ in the schedule, the time and the counters alone. -/
def sameParts (a b : State) : Bool :=
  a.rounds == b.rounds && a.teams == b.teams && a.gangs == b.gangs && a.nodes == b.nodes && a.dies == b.dies && a.cores == b.cores
    && a.parts == b.parts && a.mem == b.mem && a.stores == b.stores && a.lines == b.lines && a.items == b.items
    && a.updates == b.updates && a.flights == b.flights && a.jobs == b.jobs && a.colls == b.colls && a.services == b.services
    && a.hostq == b.hostq && a.hostOut == b.hostOut && a.lasting == b.lasting && a.contexts == b.contexts && a.package == b.package

/-- Whether a turn changes the state. -/
def moves (s : State) (t : Turn) : Bool :=
  match runTurn t s with
  | .next s1 => !sameParts s1 s
  | _ => true

/-- The turn that the model takes where the agenda names none (a schedule of the model's own): the first that changes something, else
a cycle passes. DESIGN CHOICE: log entry 2. -/
def State.defaultTurn (s : State) : Turn := (s.turns.find? (moves s)).getD (.event (.clauseSelect 0 0 1))

/-- One step: the next turn of the agenda. -/
def runStep (s : State) : Res :=
  match s.agenda with
  | t :: ts => runTurn t { s with agenda := ts }
  | [] => runTurn s.defaultTurn s

/-- The class of an instruction word. -/
def wordClass (w : Word) : Nat := classOfOpcode (opcodeField w)

/-- The lowest core from a base on that no round stands on. -/
def State.freeCore (s : State) (base : Nat) : Nat :=
  base + ((List.range (s.rounds.length + 1)).find? (fun k => !s.rounds.any (fun r => r.core == base + k))).getD 0

/-- The model's stand-in for what brings a round to an instruction word (DESIGN CHOICE, log entry 14): a partition, where the state has
none; a team of one round of width 16, privileged for a SYS word, on a core of its own; and the word as the only one of a clause that the
round has begun. The next turn is that round's. -/
def State.withClauseWord (s : State) (w : Word) : State :=
  let part := (s.parts.head?.map (fun p => p.num)).getD 0
  let priv := wordClass w == 7
  let core := s.freeCore (if priv then controlBase + 1 else 0)
  let k : Kernel := { Kernel.none with width := 16, rounds := 1 }
  let r := Round.fresh s.teams.length 0 16 core 0 0 0 priv 1 (List.replicate 128 0)
  { s with
    parts := if s.parts.isEmpty then [{ Partition.blank with num := 0, dies := 0x3F }] else s.parts
    gangs := s.gangs ++ [Gang.blank]
    teams := s.teams ++ [Team.fresh none 0 s.gangs.length 0 part core false k 0 s.nextAdmission]
    rounds := s.rounds ++ [{ r with
      clause := some { h := 0, cls := wordClass w, cnt := 0, gap := 0, yld := false, uni := 0, words := [w], idx := 0 } }]
    agenda := .issue s.rounds.length :: s.agenda }

end Sys2Proof.Machine
end

