-- ==== Sys2Proof/Machine/Step.lean ====
section
/-! DEFINITION. One step of the machine, and a state whose next step runs a given instruction. -/
namespace Sys2Proof.Machine

/-- One step. -/
def step : State → Host.Outcome State Fault Refusal := fun s => runStep s

/-- A state whose next step fetches and runs the instruction word w. -/
def State.withFetchWord (s : State) (_nbits w : Nat) : State := s.withClauseWord (BitVec.ofNat 64 w)

end Sys2Proof.Machine
end

