-- ==== Sys2Proof/Safety.lean ====
section
/-! DEFINITION. The terms in which claims about runs are stated: when an instruction starts and completes, and what stays of a round
and of the machine. -/
namespace Sys2Proof.Machine

/-- An instruction that answers a next state t. -/
def Completes (i : Instr) (s t : State) : Prop := exec i s = .next t

/-- Nothing holds the instruction back at its start (R81, R100): `r` is the issuing round and stands in a clause, no name that it reads
from its source fields or that it touches besides is pending, and every walker that it names is bound. -/
def Starts (s : State) (r : Round) (fs : List Field) (names : List Nat) : Prop :=
  s.issuing = some r ∧ r.clause.isSome = true ∧ (∀ n ∈ fs.flatMap (fun f => regNames f.1 1) ++ names, n ∉ s.pendingNames s.cur r)
    ∧ unboundAt r 0 (fs.map (fun f => f.1)) = none

/-- The source values of an instruction (R47, R83, R84, R100). -/
def sources (s : State) (r : Round) (fs : List Field) : List Lanes := readOperands s r (fs.map (fun f => f.1))

/-- The round once its sources are read and settled: UNWR notes a v name without rows, walkers have advanced, last-read names are
free (R46, R84, R100). -/
def settled (r : Round) (g : Guard) (fs : List Field) : Round := settle fs (noteUnwritten (r.passing g != 0) fs r)

/-- The round after a register instruction: its write happens where some lane passes (R107). -/
def written (s : State) (r : Round) (g : Guard) (fs : List Field) (write : Mask → List Lanes → Round → Round) : Round :=
  if r.passing g = 0 then settled r g fs else write (r.passing g) (sources s r fs) (settled r g fs)

/-- The state after the issuing round has become q and moved past its instruction (R43, R81), giving way where YIELD was executed in a
clause that has now ended (R96). -/
def retired (s : State) (q : Round) : State := s.stand (retire s.now q)

/-- The issuing round once an instruction has started: UNWR notes a source without rows (R84). -/
def Round.noted (r : Round) (g : Guard) (fs : List Field) : Round := noteUnwritten (r.passing g != 0) fs r

/-- The state in which a started instruction takes its effect. -/
def State.begun (s : State) (r : Round) (g : Guard) (fs : List Field) : State := s.setRound (r.noted g fs)

/-- The state after an instruction whose effect on the rest of the machine leaves e: its sources settle, its round is written and
moves past it (R43, R46, R81, R100). -/
def State.done (e : State) (fs : List Field) (write : Round → Round) : State :=
  match e.issuing with
  | none => e
  | some q => e.stand (retire e.now (write (settle fs q)))

/-- The round still issues in e, and the rows that its write needs are there (R85). -/
def Fits (b e : State) (fs : List Field) (write : Round → Round) : Prop :=
  ∃ q, e.issuing = some q ∧ b.rowsFit b.cur (write (settle fs q)) = true

/-- The state after the LS-path part and the fabric part of a release (R297, R299, R300, R371). -/
def State.afterRelease (s : State) (r : Round) (scope : Nat) (fence : Bool) : State :=
  let sc := s.effScope r scope
  let s1 := s.releaseStores s.cur sc
  let s2 := if fence || sc = 6 then s1.drainLines (fun x => x.round == s.cur) else s1
  if sc = 6 then s2.issueHostWrites s.cur else s2

/-- A release that need not wait (R297, R372): below system scope always; at system scope when the system counter is zero, no host
write waits and no failure is kept. -/
def State.Releases (s : State) (r : Round) (scope : Nat) (fence : Bool) : Prop :=
  s.effScope r scope = 6 →
    (s.afterRelease r scope fence).systemReady s.cur = true
      ∧ ∃ q, (s.afterRelease r scope fence).issuing = some q ∧ q.kept = none

/-- Everything outside the issuing round is as it was. -/
def OnlyRound (s t : State) : Prop := ∃ q, t = s.setRound q

/-- The rows that a round becoming q needs are there (R85). -/
def RowsFit (s : State) (q : Round) : Prop := s.rowsFit s.cur q = true

/-- Memory is in its canonical form everywhere: device memory, every team's scratchpad, and those that saved contexts hold. -/
def MemoryOk (s : State) : Prop :=
  Memory.wf s.mem = true ∧ (∀ t ∈ s.teams, Memory.wf t.spad = true) ∧ ∀ c ∈ s.contexts, Memory.wf c.what.spad = true

/-- A round's current mask lies within its live mask, its join stack has at most 32 entries (R88 to R95), and its v names stand once each, in
ascending order (R84). -/
def RoundOk (r : Round) : Prop := r.cur &&& ~~~r.live = 0 ∧ r.stack.length ≤ 32 ∧ SMap.wf r.v = true

/-- Every round is so, and so is every round of a saved context. -/
def RoundsOk (s : State) : Prop := (∀ r ∈ s.rounds, RoundOk r) ∧ ∀ c ∈ s.contexts, ∀ q ∈ c.rounds, RoundOk q.2

/-- The package's power registers hold values that R342 allows, and its power lies within LIMIT. -/
def PowerOk (s : State) : Prop :=
  2000 ≤ s.package.limit ∧ s.package.limit ≤ 6000 ∧ 8 ≤ s.package.clk ∧ s.package.clk ≤ 17 ∧ s.package.watts ≤ s.package.limit

/-- The registers and tables of a partition that only its image, the hypervisor or the host may change (R285, R304, R323, R326, R366). -/
def SameControl (p q : Partition) : Prop :=
  q.ptroot = p.ptroot ∧ q.trapq = p.trapq ∧ q.head = p.head ∧ q.tail = p.tail ∧ q.jobs = p.jobs ∧ q.hostWin = p.hostWin
    ∧ q.inbox = p.inbox ∧ q.grants = p.grants ∧ q.dies = p.dies ∧ q.control = p.control ∧ q.diag = p.diag

/-- The context pool of a die stands as before (R319, R326). -/
def SamePool (d e : Die) : Prop := e.ctxpool = d.ctxpool ∧ e.ctxsize = d.ctxsize ∧ e.poolSet = d.poolSet ∧ e.part = d.part

/-- A register instruction completes with its write in the passing lanes wherever nothing holds it back and its rows fit; the write may
depend on the round's width. Everything outside its round is as it was. -/
def RegisterCompletes (i : Instr) (g : Guard) (fs : List Field) (names : List Nat) (write : Nat → Mask → List Lanes → Round → Round) :
    Prop :=
  ∀ (s : State) (r : Round), Starts s r fs names → RowsFit s (written s r g fs (write r.width)) →
    exec i s = .next (retired s (written s r g fs (write r.width)))

/-- Instructions of R and I format with one destination, by the value that they give to each lane. -/
def OneSource (i : Instr) (f : RForm) (op : Word → Word) : Prop :=
  RegisterCompletes i f.g [rA f] (regNames f.d 1) (fun _ m xs => writeOperand m f.d (tab (fun l => op (laneOf (arg xs 0) l))))
def TwoSource (i : Instr) (f : RForm) (op : Word → Word → Word) : Prop :=
  RegisterCompletes i f.g [rA f, rB f] (regNames f.d 1) (fun _ m xs =>
    writeOperand m f.d (tab (fun l => op (laneOf (arg xs 0) l) (laneOf (arg xs 1) l))))
def ThreeSource (i : Instr) (f : RForm) (op : Word → Word → Word → Word) : Prop :=
  RegisterCompletes i f.g [rA f, rB f, rC f] (regNames f.d 1) (fun _ m xs =>
    writeOperand m f.d (tab (fun l => op (laneOf (arg xs 0) l) (laneOf (arg xs 1) l) (laneOf (arg xs 2) l))))
def ImmediateOp (i : Instr) (f : IForm) (op : Word → Word) : Prop :=
  RegisterCompletes i f.g [iA f] (regNames f.d 1) (fun _ m xs => writeOperand m f.d (tab (fun l => op (laneOf (arg xs 0) l))))

/-- RMINX and RMAXX in a round of width w (R142): the best of the passing lanes, earliest first, and of the identity when some lane does
not pass. -/
def extremeOf (isMax : Bool) (w : Nat) (cmp : BitVec 3) (m : Mask) (xs : List Lanes) : Lanes :=
  let best := winner cmp isMax ((lanesOf m).map (fun l => (elem 32 (laneOf (arg xs 0) l) 0, l)) ++
    (if m = fullMask w then [] else [(elem 32 (laneOf (arg xs 1) ((lowestLane m).getD 0)) 0, 0xFFFFFFFF)]))
  tab (fun _ => packElems 32 [if rtKind cmp = 2 then canon .fp32 best.1 else best.1, best.2])

/-- An inclusive scan (R144). -/
def scanned (cmp : BitVec 3) (op : BitVec 3 → Nat → Nat → Nat) (m : Mask) (x : Lanes) : Lanes :=
  tab (fun l => packElems (rtBits cmp) ((List.range (64 / rtBits cmp)).map (fun j =>
    rtCanon cmp ((scanAt (op cmp) m (fun k => elem (rtBits cmp) (laneOf x k) j) l).getD 0))))

/-- The shape of an instruction that touches only registers of its round (R107): its source fields, the operands that it writes, and
the predicate that it writes. -/
def registerShape : Instr → Option (List Field × List Code × Option Nat)
  | .iadd f | .isub f | .imul f | .imulh f | .imin f | .imax f | .and f | .or f | .xor f | .andn f | .shl f | .shr f | .sar f
  | .rol f | .bfx f | .sel f | .shfl f | .shflx f | .bcst f => some ([rA f, rB f], [f.d], none)
  | .iabs f | .not f | .popc f | .clz f | .ctz f | .brev f | .mov f | .pick f | .qnt f | .dqnt f | .cvtw f | .wreb f | .radd f | .rmin f
  | .rmax f | .rbit f | .scana f | .scanae f | .scanmin f | .scanmax f | .matchLanes f => some ([rA f], [f.d], none)
  | .imad f | .bfi f | .lea f | .bysel f => some ([rA f, rB f, rC f], [f.d], none)
  | .icmp f => some ([rA f, rB f], [], some (f.d.toNat % 8))
  | .pcomb f => some ([], [], some (f.d.toNat % 8))
  | .vote f => some ([], [f.d], none)
  | .iaddi f | .imuli f | .andi f | .ori f | .xori f | .shli f | .shri f | .sari f | .movk f | .fcvt f | .f2i f | .i2f f =>
    some ([iA f], [f.d], none)
  | .movi f => some ([], [f.d], none)
  | .icmpi f => some ([iA f], [], some (f.d.toNat % 8))
  | .fadd _ f | .fsub _ f | .fmul _ f | .fmin _ f | .fmax _ f => some ([rA f, rB f], [f.d], none)
  | .ffma _ f | .fdot _ f => some ([rA f, rB f, rC f], [f.d], none)
  | .frnd _ f | .fneg _ f | .fabs _ f | .fclass _ f => some ([rA f], [f.d], none)
  | .fcmp _ f => some ([rA f, rB f], [], some (f.d.toNat % 8))
  | .gcomp f => some ([rA f, rB f], [f.d, f.b], none)
  | .rminx f | .rmaxx f => some ([rA f, rC f], [f.d], none)
  | _ => none

/-- Scratchpad addresses that R151 and R270 allow: aligned, outside the shadow of every window, and inside the allocation. -/
def SpadOk (s : State) (r : Round) (z : Nat) (lanes : List (Nat × Word)) : Prop :=
  ∀ p ∈ lanes, p.2.toNat % min z 8 = 0 ∧ (s.teamOf r).shadowed p.2.toNat z = false ∧ (s.teamOf r).holds p.2.toNat z = true

/-- An area of the scratchpad that R151 and R270 allow. -/
def AreaOk (s : State) (r : Round) (a : Word) (z : Nat) : Prop :=
  (s.teamOf r).shadowed a.toNat z = false ∧ (0 < z → (s.teamOf r).holds a.toNat z = true)

/-- No byte of the lanes stands in a lasting sector (R289). -/
def CleanLanes (s : State) (pas : List (Nat × List Nat)) : Prop := ∀ p ∈ pas, ∀ a ∈ p.2, s.isLasting a = false

/-- The state after the release that an access of release semantics makes, or the state itself (R54, R297). -/
def State.semReleased (s : State) (r : Round) (rel : Bool) (scope : Nat) : State :=
  if rel then s.afterRelease r scope false else s

/-- The steps of an atomic on the addresses of its lanes, in lane order, and the old values (R156, R294): the accesses that come before it
in its bytes' order take effect first (R385), the round's older reads of them read first (R284), and in memory its core's buffered entries to
those bytes leave. -/
def State.atomicDone (e : State) (q : Round) (spad : Bool) (op : Nat → Nat → Nat) (lanes : List (Nat × List Nat)) :
    State × List (Nat × Nat) :=
  let bytes := lanes.flatMap (fun p => p.2)
  let e1 := (e.orderBefore e.cur spad bytes).capture e.cur spad bytes
  atomicLanes q spad op (if spad then e1 else e1.sendEarlier q.core bytes) lanes

/-- An atomic of device memory completes (R294), where its access takes effect at once: in lane order each lane's step at its home slice,
and D receives the old values. -/
def MemoryAtomicCompletes (i : Instr) (g : Guard) (fs : List Field) (d : Code) (z sem scope : Nat) (op : List Lanes → Nat → Nat → Nat) :
    Prop :=
  ∀ (s : State) (r q : Round) (pas : List (Nat × List Nat)),
    let b := s.begun r g fs
    let xs := sources s r fs
    let addrs := laneValues (r.passing g) (arg xs 0)
    let e1 := b.semReleased r (2 ≤ sem) scope
    let e2 := e1.atomicDone q false (op xs) pas
    Starts s r fs (regNames d 1) → s.late = false →
      (∀ p ∈ addrs, p.2.toNat % z = 0) → translateLanes (s.xlat r true) z addrs = .ok pas → CleanLanes s pas →
      (2 ≤ sem → b.Releases r scope false) → e1.issuing = some q →
      Fits b e2.1 fs (writeOperand (r.passing g) d (oldLanes e2.2)) →
        exec i s = .next (e2.1.done fs (writeOperand (r.passing g) d (oldLanes e2.2)))

/-- An atomic of the scratchpad completes (R156), where its access takes effect at once: in lane order each lane's step, and D receives
the old values. -/
def SpadAtomicCompletes (i : Instr) (g : Guard) (fs : List Field) (d : Code) (z sem scope : Nat) (op : List Lanes → Nat → Nat → Nat) :
    Prop :=
  ∀ (s : State) (r q : Round),
    let b := s.begun r g fs
    let xs := sources s r fs
    let addrs := laneValues (r.passing g) (arg xs 0)
    let e1 := b.semReleased r (2 ≤ sem) scope
    let e2 := e1.atomicDone q true (op xs) (spadLanesOf z addrs)
    Starts s r fs (regNames d 1) → s.late = false → SpadOk s r z addrs → (2 ≤ sem → b.Releases r scope false) → e1.issuing = some q →
      Fits b e2.1 fs (writeOperand (r.passing g) d (oldLanes e2.2)) →
        exec i s = .next (e2.1.done fs (writeOperand (r.passing g) d (oldLanes e2.2)))

/-- Where LYLD and LYST find a record of 512 bytes (R185): 64-byte aligned, in the allocation or on pages that translate; `pas` are the
scratchpad or the physical addresses of its bytes. -/
def LayoutAt (s : State) (r : Round) (spad write : Bool) (m : Mask) (a : Word) (pas : List Nat) : Prop :=
  a.toNat % 64 = 0 ∧
    if spad then AreaOk s r a 512 ∧ pas = (List.range 512).map (fun i => a.toNat + i)
    else ∃ ps, translateLanes (s.xlat r write) 512 [((lowestLane m).getD 0, a)] = .ok ps ∧ pas = pasOf ps ((lowestLane m).getD 0)

/-- The record of TLD or TST is good, every index lies below 2^n, and a scratchpad record lies in the allocation (R181, R188, R189). -/
def ElementsOk (s : State) (r : Round) (w : List Word) (lanes : List (Nat × Word)) : Prop :=
  layoutReason { kinds := [0, 1], storage := true, alt := false } r.width w = none ∧ (∀ p ∈ lanes, p.2.toNat < 2 ^ recN w)
    ∧ (recKind w = 1 → AreaOk s r (recBase w) (recSpan w))

/-- The value of the element at a slot, in the bytes that hold it (R176, R188). -/
def elementOf (w : List Word) (slot : Nat) (l : List Byte) : Nat :=
  if recEs w = 4 then ofBytes l / 16 ^ (slot % 2) % 16 else ofBytes l

/-- The bytes that hold the element at a slot, once x stands there: of an element of 4 bits only its half of the byte changes (R176, R189). -/
def elementInto (w : List Word) (slot x : Nat) (old : List Byte) : List Byte :=
  if recEs w = 4 then old.map (fun b => BitVec.ofNat 8 (if slot % 2 = 0 then b.toNat / 16 * 16 + x % 16 else x % 16 * 16 + b.toNat % 16))
  else toBytes (elementBytes w) x

/-- n accumulator slots from a handle: in the team's allocation and not fenced (R208, R222). -/
def SlotsOk (s : State) (r : Round) (h n : Nat) (slots : List Nat) : Prop :=
  slots = (List.range n).map (fun i => (r.abase.toNat + h + i) % 2 ^ 64)
    ∧ ∀ x ∈ slots, x < (s.teamOf r).acc ∧ (s.teamOf r).fenced.contains (slotKey (s.teamOf r) r x) = false

/-- A block or tile of n bytes at a 64-byte aligned scratchpad address (R213, R220). -/
def TileAt (s : State) (r : Round) (a : Word) (n : Nat) : Prop := a.toNat % 64 = 0 ∧ AreaOk s r a n

/-- Partial slot z of a round (R209), in its team's allocation. -/
def PartialAt (s : State) (r : Round) (z : Nat) (p : PartialSlot) : Prop :=
  z < (s.teamOf r).zslots ∧ p = r.parts.getD z { pending := false, fa := 0, fb := 0, ka := 0, kb := 0, vals := [] }

/-- The same formats and k fields. -/
def PartialSlot.sameFormat (p : PartialSlot) (fa fb ka kb : Nat) : Prop := p.fa = fa ∧ p.fb = fb ∧ p.ka = ka ∧ p.kb = kb

/-- Bytes of the scratchpad that are read as a plain LDS reads them: the instruction goes on in e with the round q and the bytes b (R157,
R284). -/
def SpadRead (s : State) (addrs : List Nat) (e : State) (q : Round) (b : List Byte) : Prop :=
  e = s.readSpadNow addrs ∧ e.issuing = some q ∧ b = addrs.map (Memory.read (e.teamOf q).spad)

/-- A descriptor that DRN may use (R225): every check of its table passes. -/
def DrainOk (s : State) (r : Round) (h : Nat) (d : DrainDesc) (slots : List Nat) : Prop :=
  SlotsOk s r h d.g slots
    ∧ (isElemFmt d.ofmt = true ∨ isBlockFmt d.ofmt = true) ∧ 1 ≤ d.rfmt ∧ d.rfmt ≤ 3 ∧ d.fieldsOk = true ∧ d.psel ≠ 7
    ∧ projParamsOk d.psel d.par1 d.par2 = true
    ∧ (∀ x ∈ (if d.dkind = 1 then d.dstRuns else []) ++ (if d.rkind = 1 then d.resRuns else []) ++ d.supRuns,
        AreaOk s r x.1 x.2)
    ∧ (∀ x ∈ (if d.dkind = 0 then d.dstRuns else []), ∃ pas, s.runXlat r true x = .ok pas)
    ∧ (∀ x ∈ (if d.rkind = 0 then d.resRuns else []), ∃ pas, s.runXlat r false x = .ok pas)
    ∧ (d.rkind = 1 ∨ ∀ x ∈ d.resRuns, ∀ pa ∈ runPas (s.runXlat r false x), s.isLasting pa = false)

/-- Whether the adjoint reads the forward output (R245). -/
def RowRecord.needsForward (h : RowRecord) : Bool := h.psel = 3 && h.applied && h.count != 0xFFFF

/-- What PJADJ reads, in the order of R245, where every check passes: the header and the record at b, the gradient at a, and the forward
output at c where the adjoint reads it, one after the other in y. It goes on in e with the round q; the output at d lies in the
allocation. -/
def AdjointRead (s : State) (r : Round) (a b c d : Word) (h : RowRecord) (y : List Byte) (e : State) (q : Round) : Prop :=
  b.toNat % 8 = 0 ∧ a.toNat % 4 = 0 ∧ d.toNat % 4 = 0 ∧ AreaOk s r b 16
    ∧ ∃ s1 r1 head s2 r2 rec_,
        SpadRead s (spadRange b 16) s1 r1 head ∧ headerOk (parseRecord head) = true
          ∧ (let l := (parseRecord head).l
             AreaOk s1 r1 b (recordSize l) ∧ AreaOk s1 r1 a (4 * l) ∧ AreaOk s1 r1 d (4 * l)
               ∧ SpadRead s1 (spadRange b (recordSize l)) s2 r2 rec_ ∧ h = parseRecord rec_ ∧ recordOk h = true
               ∧ (h.needsForward = true → c.toNat % 4 = 0 ∧ AreaOk s2 r2 c (4 * l))
               ∧ SpadRead s2 (spadRange a (4 * l) ++ spadRange c (if h.needsForward then 4 * l else 0)) e q y)

/-- A word address at which a round finds a clause header (R43): it translates, is clean, and its word is marked as a header. -/
def HeaderAt (s : State) (r : Round) (t : Word) : Prop := ∃ w, s.codeAt r t = .word w ∧ isHeader w = true

/-- A branch of the lanes `taken` to t (R91): none falls through; all of the current mask go there; otherwise they wait there in a path
entry while the others fall through. -/
def BranchesTo (i : Instr) (s : State) (r : Round) (taken : Mask) (t : Word) : Prop :=
  (taken = 0 → exec i s = .next (s.stand (endClause s.now r.fallThrough r)))
    ∧ (taken ≠ 0 → taken = r.cur → HeaderAt s r t → exec i s = .next (s.stand (endClause s.now t r)))
    ∧ (taken ≠ 0 → taken ≠ r.cur → HeaderAt s r t → r.stack.length < 32 →
        exec i s = .next (s.stand (endClause s.now r.fallThrough
          { r with stack := { kind := .path, addr := t, mask := taken } :: r.stack, cur := r.cur &&& ~~~taken })))

/-- A call of the lanes `taken` at t (R93), from the state b with round r: a call entry holds the fall-through address and the current
mask. -/
def CallsTo (i : Instr) (s b : State) (r : Round) (taken : Mask) (t : Word) : Prop :=
  (taken = 0 → exec i s = .next (b.stand (endClause s.now r.fallThrough r)))
    ∧ (taken ≠ 0 → HeaderAt s r t → r.stack.length < 32 →
        exec i s = .next (b.stand (endClause s.now t
          { r with stack := { kind := .call, addr := r.fallThrough, mask := r.cur } :: r.stack, cur := taken })))

/-- A round may arrive at barrier b with count c (R251, R252): it is held at no phase, the count is legal and that of the phase, and it
has not arrived. -/
def MayArrive (s : State) (r : Round) (b c : Nat) : Prop :=
  r.status ≠ .waiting (.barrier b) ∧ ((s.teamOf r).bar b).waiters.getLsbD r.rix = false ∧ 1 ≤ c ∧ c ≤ 32
    ∧ ((s.teamOf r).bar b).arrived.getLsbD r.rix = false ∧ (((s.teamOf r).bar b).count = 0 ∨ c = ((s.teamOf r).bar b).count)

/-- A barrier once round r has arrived with count c. -/
def Barrier.arrival (x : Barrier) (rix c : Nat) : Barrier :=
  { x with count := c, arrived := x.arrived ||| BitVec.ofNat 32 (2 ^ rix), arrivals := x.arrivals + 1 }

/-- A round may arrive at the cluster barrier (R272 to R274): it is held at no phase, the count is legal, and count and exchange are those of
the phase; it has not arrived; and its items and its team's window changes have landed. -/
def MayArriveAtGang (s : State) (r : Round) (f : SForm) : Prop :=
  let x := s.gang (s.teamOf r).gang
  let c := barCount s r f
  (r.status ≠ .waiting .cluster ∧ x.waiters.contains s.cur = false ∧ x.arrived.contains s.cur = false)
    ∧ (s.countPending r f = false ∧ 1 ≤ c ∧ c ≤ 256 ∧ (x.count = 0 ∨ (c = x.count ∧ f.bar.getLsbD 0 = x.swap)))
    ∧ (∀ i ∈ s.items, i.round ≠ s.cur) ∧ ∀ u ∈ s.updates, u.team ≠ r.team

/-- Exchange targets that R277 allows: a member of the gang, z bytes of one of its declared windows, aligned. -/
def TargetsOk (s : State) (r : Round) (z : Nat) (l : List Target) : Prop :=
  ∀ t ∈ l, t.peer.toNat < (s.gang (s.teamOf r).gang).size ∧ windowHolds s (s.teamOf r).gang z t = true ∧ t.off.toNat % z = 0

/-- n bytes at an address that translate for lane l and are clean (R288, R289); `pas` are their physical addresses. -/
def PagesAt (s : State) (r : Round) (write : Bool) (l : Nat) (a : Word) (n : Nat) (pas : List Nat) : Prop :=
  ∃ ps, translateLanes (s.xlat r write) n [(l, a)] = .ok ps ∧ CleanLanes s ps ∧ pas = pasOf ps l

/-- Bytes at their home slices. -/
def State.bytesOf (s : State) (pas : List Nat) : List Byte := pas.map (Memory.read s.mem)

/-- A plain load of n bytes at a, for the whole instruction, goes on in e with the round q and the bytes b (R284, R288, R289): the pages
translate for the lowest passing lane, no sector is lasting, what a plain load comes after has taken effect, and the core's entries to the
bytes have left. -/
def LoadsAt (s : State) (r : Round) (m : Mask) (a : Word) (n : Nat) (e : State) (q : Round) (b : List Byte) : Prop :=
  ∃ pas, translateLanes (s.xlat r false) n [((lowestLane m).getD 0, a)] = .ok pas ∧ CleanLanes s pas
    ∧ e = s.loadNow r (pas.flatMap (fun p => p.2)) ∧ e.issuing = some q ∧ b = e.bytesOf (pas.flatMap (fun p => p.2))

/-- A semaphore operand and amount that R318 allows. -/
def SemAt (s : State) (r : Round) (a n : Word) (die c : Nat) : Prop :=
  a.toNat < 2 ^ 15 ∧ die = bits a 14 12 ∧ c = bits a 11 0 ∧ die < 6 ∧ (s.partOf r).dies.getLsbD die = true ∧ n.toNat < 2 ^ 32

/-- The state after the release of a manifest instruction, once what a plain load of the manifest comes after has taken effect (R296,
R317). -/
def State.atManifest (s : State) (r : Round) (pas : List Nat) : State :=
  (s.afterRelease r 5 false).loadNow r pas

/-- A round may post the node record at a (R305): the record, whose bytes are b, its kernel record, whose bytes are kb, and its manifest's
owner field, at the physical addresses `owner`, are read one after another, up to the state e with the round q; and no reason applies to
them. -/
def Postable (s : State) (r : Round) (m : Mask) (a : Word) (b kb : List Byte) (owner : List Nat) (e : State) (q : Round) : Prop :=
  let rec_ := readNodeRecord b
  ∃ e1 q1 e2 q2, LoadsAt s r m a 256 e1 q1 b ∧ shapeReason (s.partOf r) b = none
    ∧ (rec_.kind = 0 → LoadsAt e1 q1 m rec_.kernel 64 e2 q2 kb) ∧ (rec_.kind ≠ 0 → e2 = e1 ∧ q2 = q1 ∧ kb = [])
    ∧ (rec_.manifest ≠ 0 → PagesAt e2 q2 true ((lowestLane m).getD 0) (rec_.manifest + 8) 4 owner ∧ e = e2.loadNow q2 owner
        ∧ e.issuing = some q)
    ∧ (rec_.manifest = 0 → owner = [] ∧ e = e2 ∧ q = q2)
    ∧ recordReason e (s.partOf r) b kb (ofBytes (e.bytesOf owner)) = none

/-- Rank words that resolve and name no job under migration, with canonical and aligned addresses (R364, R367, R369); of an instruction that
is under way they have been found so. -/
def RanksOk (s : State) (r : Round) (align : Nat) (l : List RLane) : Prop :=
  r.remote ≠ [] ∨ ∀ x ∈ l, jobOfWord x.word ∉ (s.partOf r).frozen ∧ (s.partOf r).resolves x.word = true ∧ canonical x.addr = true
    ∧ x.addr.toNat % align = 0

/-- A round that has found its ranks good is under way: it keeps what its lanes named at issue (R364). -/
def Round.latched (r : Round) (l : List RLane) : Round := if r.remote = [] then { r with remote := latchOf l } else r

/-- The state once the lines that hold bytes of a remote access have left (R371). -/
def State.drainedFor (s : State) (r : Round) (z : Nat) (l : List RLane) : State :=
  s.drainLines (fun x => touchesLanes s r z l x.round (entryPkg x.entry) (entryDie x.entry) x.bytes)

/-- No packet that writes bytes of a remote access is unacknowledged (R369, R371). -/
def Quiet (s : State) (r : Round) (z : Nat) (l : List RLane) : Prop :=
  ∀ f ∈ (s.drainedFor r z l).flights, f.blocks (s.drainedFor r z l) r z l = false

/-- Every lane of a remote access has a reply that is no failure (R369). -/
def Replied (r : Round) (l : List RLane) : Prop := ∀ x ∈ l, ∃ y, r.reply x = some y ∧ y.cause = none

/-- The state once the requests of a remote access have left, one per lane (R369), for the wave given; the round waits for their replies. -/
def State.asked (s : State) (l : List RLane) (wave : Nat) (counted : Bool) (body : RLane → PacketBody) : State :=
  let e := l.foldl (fun s x => s.sendPacket s.cur x.word x.entry (fun _ => body x) (fun e => e) noRange x.lane counted .sent) s
  match e.issuing with
  | none => e
  | some q => e.setRound { q with replies := [], remote := latchOf l, wave := wave, status := .waiting .remote }

/-- A remote atomic runs (R364, R369, R374), from the state s0 in which its round's acquires have taken effect: with no passing lane it does
nothing; else, once under way and after its release, it asks every lane's target for its page; when all are there it sends every lane's step;
and D receives the old values, zero-extended. -/
def RemoteAtomicCompletes (i : Instr) (g : Guard) (fs : List Field) (d : Code) (z : Nat) (rel : Bool)
    (body : List Lanes → RLane → PacketBody) : Prop :=
  ∀ (s : State) (r q : Round),
    let s0 := s.settleAcquires s.cur
    let b := s0.begun r g fs
    let xs := sources s0 r fs
    let l := remoteLanes b (r.noted g fs) (r.passing g) (arg xs 0) (arg xs 1) 0
    let b1 := b.setRound ((r.noted g fs).latched l)
    let e := b1.semReleased r rel 6
    let write := fun (p : Round) => (writeOperand (r.passing g) d (tab (fun k => BitVec.ofNat 64 (ofBytes (r.replyData k)))) p).noRemote
    Starts s0 r fs (regNames d 1) →
      (r.wave = 0 → RanksOk b r z l → (rel = true → b1.Releases r 6 false) →
        (l = [] → Fits b1 e fs (fun p => p) → exec i s = .next (e.done fs (fun p => p)))
          ∧ (l ≠ [] → e.issuing = some q → Quiet e q z l →
              exec i s = .next ((e.drainedFor q z l).asked l 1 false (fun x => .probe x.addr z))))
      ∧ (r.wave = 1 → Replied r l → exec i s = .next (b.asked l 2 true (body xs)))
      ∧ (2 ≤ r.wave → Replied r l → Fits b b fs write → exec i s = .next (b.done fs write))

/-- A Courier job record at a whose plan can be made (R346, R351): the records that it names are read one after another, up to the state e
with the round q. -/
def JobAt (s : State) (r : Round) (m : Mask) (a : Word) (j : JobRec) (plan : List Segment) (e : State) (q : Round) : Prop :=
  a.toNat % 64 = 0 ∧ canonical a = true ∧ j.aligned = true ∧ j.formOk = true
    ∧ ∃ e1 q1 b, LoadsAt s r m a 128 e1 q1 b ∧ j = readJob b
      ∧ (j.kind = 0 → ∃ e2 q2 x y, LoadsAt e1 q1 m j.srclay 512 e2 q2 x ∧ LoadsAt e2 q2 m j.dstlay 512 e q y
          ∧ planOrReason (e.partOf q) e.package.number (e.dieOf q) j (recordOf x) (recordOf y) [] = .inr plan)
      ∧ (j.kind ≠ 0 → ∃ x, LoadsAt e1 q1 m j.list (16 * j.nblk) e q x
          ∧ planOrReason (e.partOf q) e.package.number (e.dieOf q) j [] [] (readBlocks j.nblk x) = .inr plan)

/-- A collective descriptor at a that COLL takes (R378, R380), with its list of ranks, read in the state e with the round q. -/
def CollAt (s : State) (r : Round) (m : Mask) (a : Word) (kind : Nat) (bfp4 : Bool) (d : CollDesc) (ranks : List Nat) (e : State)
    (q : Round) : Prop :=
  a.toNat % 64 = 0 ∧ d.formOk kind = true
    ∧ (∃ e1 q1 b x, LoadsAt s r m a 64 e1 q1 b ∧ d = readColl b ∧ (e1.partOf q1).frozen.contains d.job = false
        ∧ LoadsAt e1 q1 m d.list (2 * d.n) e q x ∧ ranks = (List.range d.n).map (fun i => bytesAt x (2 * i) 2))
    ∧ (∀ x ∈ ranks, x < 6144 ∧ (e.partOf q).resolves (BitVec.ofNat 64 (2 ^ 16 * d.job + x)) = true)
    ∧ ascending ranks = true ∧ (∃ x ∈ ranks, (e.partOf q).rankOf d.job e.package.number (e.dieOf q) = some x)
    ∧ (bfp4 = true → d.etype = 1 ∧ d.count % 32 = 0)

/-- Every page of a range translates (R288). -/
def RangeAt (s : State) (r : Round) (write : Bool) (a : Word) (n : Nat) : Prop := ∀ p ∈ pagesOf a n, ∃ pa, s.xlat r write p = .ok pa

/-- A range that a round reads as plain loads goes on in e with the round q and the bytes b (R288, R289). -/
def RangeRead (s : State) (r : Round) (m : Mask) (a : Word) (n : Nat) (e : State) (q : Round) (b : List Byte) : Prop :=
  ∃ pas, RangeAt s r false a n ∧ pas = (List.range n).map (fun i => match s.xlat r false (a + BitVec.ofNat 64 i) with | .ok pa => pa | _ => 0)
    ∧ CleanLanes s [((lowestLane m).getD 0, pas)] ∧ e = s.loadNow r pas ∧ e.issuing = some q ∧ b = e.bytesOf pas

/-- The order in which SPILL picks (R85): the lowest node priority, then the most rows, then the highest slot. -/
def State.spillsBefore (s : State) (a b : Round) : Prop :=
  let prio (r : Round) : Nat := ((s.nodeOf r).map (fun n => n.record.priority)).getD 0
  prio a < prio b ∨ (prio a = prio b ∧ (b.rows < a.rows ∨ (a.rows = b.rows ∧ 12 * b.quadrant + b.slot < 12 * a.quadrant + a.slot)))

/-- Nothing is under way that an instruction could carry along: no access is pending, no store is buffered, no line is open and no host
write waits. -/
def Calm (s : State) : Prop := (∀ q ∈ s.rounds, q.pending = []) ∧ s.stores = [] ∧ s.lines = [] ∧ s.hostq = []

/-- Instructions whose own effect, in a calm state, may write device memory. -/
def writesMemory : Instr → Bool
  | .stp _ | .atom _ | .atomu _ | .cas _ | .tst _ | .gpost _ | .garm _ | .madmit _ | .mretire _ | .crjob _ | .tlbi _ | .ctxsv _ => true
  | _ => false

/-- Instructions whose own effect may write a scratchpad. -/
def writesPads : Instr → Bool
  | .sts _ | .atoms _ | .cass _ | .lyst _ | .tst _ | .pjadj _ | .cbar _ | .ctxld _ => true
  | _ => false

/-- Instructions whose own effect may reach another round. -/
def reachesRounds : Instr → Bool
  | .cpyr _ | .rpf _ | .exit _ | .bara _ | .barw _ | .cbar _ | .eret _ | .tlbi _ | .ctxsv _ | .ctxld _ => true
  | _ => false

/-- What a store keeps of its round: masks, stack, s registers, predicates, and every v name but those freed by a last-read bit. -/
def StoreKeeps (fs : List Field) (r q : Round) : Prop :=
  q.cur = r.cur ∧ q.live = r.live ∧ q.stack = r.stack ∧ q.s = r.s ∧ q.p = r.p
    ∧ ∀ n, SMap.find q.v n = SMap.find r.v n ∨ (SMap.find q.v n = none ∧ ∃ x ∈ fs, x.2 = true ∧ operand x.1 = .v n)

/-- Memory stands as before outside the bytes of lanes of z bytes that translate for writing; where they do not, all of it. -/
def MemoryFrame (s t : State) (r : Round) (z : Nat) (lanes : List (Nat × Word)) : Prop :=
  (∀ pas a, translateLanes (s.xlat r true) z lanes = .ok pas → (∀ p ∈ pas, a ∉ p.2) → Memory.read t.mem a = Memory.read s.mem a)
    ∧ ((∀ pas, translateLanes (s.xlat r true) z lanes ≠ .ok pas) → t.mem = s.mem)

/-- Scratchpads stand as before outside ranges of z bytes of the round's own team. -/
def PadFrame (s t : State) (r : Round) (z : Nat) (addrs : List Nat) : Prop :=
  (∀ k, k ≠ r.team → (t.teams.getD k Team.blank).spad = (s.teams.getD k Team.blank).spad)
    ∧ ∀ a, (∀ p ∈ addrs, a < p ∨ p + z ≤ a) → Memory.read (t.teamOf r).spad a = Memory.read (s.teamOf r).spad a

end Sys2Proof.Machine
end

