-- ==== Sys2Proof/Certificates/Slice0/Obligations.lean ====
section
/-! DEFINITION. What is claimed of the machine, for the provers. The statements follow the chapters of the spec: encodings and steps,
operands, each family of instructions, the events, and what every step keeps. -/
section

open Sys2Proof Sys2Proof.Machine

/-- Reading and encoding agree on words written out from R53 and R61: IADD.32x2 v3 = v1 + v2, MOVI s5 = 7
and LD.64 v6 at v4 + 16, each with guard p7. -/
def Obligations.DecodeSamples : Prop :=
  decode 16 false 0b0000000000_111_0_000_00000000011_00000000001_00000000010_11010001000_010
      = .ok (.iadd { g := { p := 7, inv := false, uni := false }, lra := false, lrb := false, lrc := false, d := 3, a := 1, b := 2
                     c := 1672, cmp := 2 })
    ∧ decode 16 false 0b0000101000_111_0_0_11000000101_11010001000_000_000000000000000000000111
      = .ok (.movi { g := { p := 7, inv := false, uni := false }, lra := false, d := 1541, a := 1672, cmp := 0, imm := 7 })
    ∧ decode 16 false 0b0100000000_111_0_00_00000000110_00000000100_00000_011_000000000000010000
      = .ok (.ld { g := { p := 7, inv := false, uni := false }, lrd := false, lra := false, d := 6, a := 4, ord := 0, sz := 3
                   ofs := 16 })

/-- Decoding an encoded instruction gives it back, for every instruction of the opcode map that passes the field and operand checks
(R53, R61, R63). -/
def Obligations.EncodeDecode : Prop :=
  ∀ (w : Nat) (i : Instr), i.hasWord = true → i.wf w = true → decode w (instrGuard i).uni (encode i) = .ok i

/-- An assigned word is the encoding of the instruction read from it, whatever its UNI bit: no bit of a word is dropped (R53). -/
def Obligations.DecodeEncode : Prop :=
  ∀ (uni : Bool) (w : Word) (i : Instr), decodeOpcode uni w = some i → encode i = w ∧ i.hasWord = true ∧ (instrGuard i).uni = uni

/-- A header that passes the header check reads back from its word, and its word is marked as a header (R40). -/
def Obligations.HeaderRoundTrip : Prop :=
  ∀ h : Header, h.cls < 8 → h.cnt < 16 → h.gap < 8 → (h.uni >>> (h.cnt + 1)) = 0 →
    isHeader (packHeader h) = true ∧ readHeader (packHeader h) = h ∧ headerFails (packHeader h) = []

/-- A step runs the turn that the agenda names: where that is the issue of round n, and word ix of its clause decodes to i, the step is exec
of i with n as the issuing round, while no other round of its quadrant stands unstalled in a clause (R44, R81), whether its access takes
effect at once or is left pending; where it is an event, the step is exec of the event (R389 leaves the order of independent steps open),
but that only time passes for a clause selection while the quadrant must complete a clause. The agenda is the model's own (DESIGN CHOICE,
log entries 2 and 3), and so is which stalled rounds must complete theirs first (DEDUCED, log entry 65). -/
def Obligations.StepRunsTurn : Prop :=
  (∀ (s : State) (n : Nat) (late : Bool) (ts : List Turn) (r : Round) (uni : Bool) (w : Word) (i : Instr),
    s.agenda = (if late then .late n else .issue n) :: ts → s.rounds[n]? = some r → r.nextWord = some (uni, w) → r.issues = true →
      s.quadrantBusy n r = false → decode r.width uni w = .ok i → step s = exec i { s with cur := n, late := late, agenda := ts })
  ∧ (∀ (s : State) (e : Instr) (ts : List Turn),
    let s1 : State := { s with agenda := ts }
    s.agenda = .event e :: ts → e.hasWord = false →
      ((∀ c q k, e = .clauseSelect c q k → s1.mustComplete c q = false) → step s = exec e s1)
        ∧ (∀ c q k, e = .clauseSelect c q k → s1.mustComplete c q = true → step s = .next (s1.tick k)))

/-- A word that the decoder does not admit traps when it issues, with ILLEGAL_OPCODE, ILLEGAL_FIELD or ILLEGAL_OPERAND (R63). The checks
of R63 come before a clause begins, so no run reaches this: that the word of a clause already begun traps so is the model's choice
(DEDUCED, log entry 27). -/
def Obligations.UndecodedTraps : Prop :=
  ∀ (s : State) (n : Nat) (ts : List Turn) (r : Round) (uni : Bool) (w : Word) (e : DecodeError),
    s.agenda = .issue n :: ts → s.rounds[n]? = some r → r.nextWord = some (uni, w) → r.issues = true → s.quadrantBusy n r = false →
      decode r.width uni w = .error e →
        ∃ t p, step s = .next t ∧ (t.rounds[n]?.map (fun q => q.status)) = some (.parked p) ∧ p.canStep = false
          ∧ p.trap.cause = (match e with | .illegalOpcode => 0x01 | .illegalField _ _ => 0x02 | .illegalOperand _ => 0x03)

/-- What reset leaves (R337, R342, R223): no partition, no node, no team and no round; no function ready; LIMIT 6,000, CLK 17 and NOW 0;
and every core's SPARE 16 with RETIRED 0. It meets the invariants that every step keeps: the ranges of LIMIT and CLK (R342), memory in its
canonical form, which is the model's, and the shape of every round. -/
def Obligations.ResetState : Prop :=
  State.reset.parts = [] ∧ State.reset.nodes = [] ∧ State.reset.teams = [] ∧ State.reset.rounds = []
    ∧ (∀ w b, State.reset.isReady w b = false)
    ∧ State.reset.package.limit = 6000 ∧ State.reset.package.clk = 17 ∧ State.reset.package.watts = 0
    ∧ (∀ c, (State.reset.core c).spare = 16 ∧ (State.reset.core c).retired = 0)
    ∧ MemoryOk State.reset ∧ PowerOk State.reset ∧ RoundsOk State.reset

/-- Reading an operand (R47, R83, R84): `zero` is 0 in every lane, `lane` the lane's number, an s register one value in every lane, and
a v register that holds no rows 0. -/
def Obligations.OperandReads : Prop :=
  ∀ (s : State) (r : Round) (c : Code) (l : Nat), l < 64 →
    (operand c = .zero → laneOf (readOperand s r c) l = 0)
      ∧ (operand c = .special .lane → laneOf (readOperand s r c) l = BitVec.ofNat 64 l)
      ∧ (∀ n, operand c = .s n → laneOf (readOperand s r c) l = r.s.getD n 0)
      ∧ (∀ n, operand c = .v n → laneOf (readOperand s r c) l = laneOf (r.readV n) l)
      ∧ (∀ n, operand c = .v n → SMap.find r.v n = none → laneOf (readOperand s r c) l = 0)
      ∧ (∀ n, operand c = .t n → laneOf (readOperand s r c) l = laneOf (r.t.getD n []) l)
      ∧ (∀ k, operand c = .walker k → laneOf (readOperand s r c) l = (r.walker k).address l)

/-- Writing an operand (R47, R48, R84, R107): a v register takes the written lanes and keeps the others, an s register takes the lowest
lane's value, `zero` discards, and a write in no lane changes nothing. -/
def Obligations.OperandWrites : Prop :=
  ∀ (m : Mask) (c : Code) (x : Lanes) (r : Round),
    (m = 0 → writeOperand m c x r = r)
      ∧ (operand c = .zero → writeOperand m c x r = r)
      ∧ (∀ n l, operand c = .v n → m ≠ 0 → l < 64 →
          laneOf ((writeOperand m c x r).readV n) l = if m.getLsbD l then laneOf x l else laneOf (r.readV n) l)
      ∧ (∀ n k, operand c = .v n → k ≠ n → (writeOperand m c x r).readV k = r.readV k)
      ∧ (∀ n l, operand c = .s n → n < r.s.length → lowestLane m = some l → (writeOperand m c x r).s = r.s.set n (laneOf x l)
          ∧ (writeOperand m c x r).s.getD n 0 = laneOf x l)

/-- The guard (R45) and predicate writes (R107, R117): p7 is true in every lane and discards writes; another predicate changes in the
written lanes only; an uninverted guard of p7 passes the current mask. -/
def Obligations.GuardAndPredicates : Prop :=
  ∀ (r : Round) (g : Guard) (n : Nat) (m x : Mask),
    r.pred 7 = BitVec.allOnes 64 ∧ r.setPred 7 m x = r
      ∧ (n < 7 → n < r.p.length → (r.setPred n m x).pred n = ((r.pred n &&& ~~~m) ||| (x &&& m)))
      ∧ (∀ k, k ≠ n → (r.setPred n m x).pred k = r.pred k)
      ∧ (g.uni = false → g.inv = false → g.p = 7 → r.passing g = r.cur)
      ∧ (g.uni = false → g.inv = true → g.p = 7 → r.passing g = 0)

/-- The integer instructions complete, each with the element results of R110 to R113, R115 and R119. -/
def Obligations.IntegerCompletes : Prop :=
  ∀ f : RForm,
    TwoSource (.iadd f) f (mapElems2 (iwBits f.cmp) (addE (iwBits f.cmp) (bit0 f.cmp)))
    ∧ TwoSource (.isub f) f (mapElems2 (iwBits f.cmp) (subE (iwBits f.cmp) (bit0 f.cmp)))
    ∧ TwoSource (.imul f) f (mapElems2 (iwBits f.cmp) (mulE (iwBits f.cmp) (bit0 f.cmp)))
    ∧ TwoSource (.imulh f) f (mapElems2 (iwBits f.cmp) (mulhE (iwBits f.cmp) (bit0 f.cmp)))
    ∧ ThreeSource (.imad f) f (mapElems3 (iwBits f.cmp) (madE (iwBits f.cmp) (bit0 f.cmp)))
    ∧ TwoSource (.imin f) f (mapElems2 (iwBits f.cmp) (minE (iwBits f.cmp) (bit0 f.cmp)))
    ∧ TwoSource (.imax f) f (mapElems2 (iwBits f.cmp) (maxE (iwBits f.cmp) (bit0 f.cmp)))
    ∧ OneSource (.iabs f) f (mapElems1 (iwBits f.cmp) (absE (iwBits f.cmp) (bit0 f.cmp)))
    ∧ TwoSource (.and f) f (fun a b => a &&& b)
    ∧ TwoSource (.or f) f (fun a b => a ||| b)
    ∧ TwoSource (.xor f) f (fun a b => a ^^^ b)
    ∧ TwoSource (.andn f) f (fun a b => a &&& ~~~b)
    ∧ OneSource (.not f) f (fun a => ~~~a)
    ∧ TwoSource (.shl f) f (mapElems2 (iwBits f.cmp) (shlE (iwBits f.cmp) (bit0 f.cmp)))
    ∧ TwoSource (.shr f) f (mapElems2 (iwBits f.cmp) (shrE (iwBits f.cmp)))
    ∧ TwoSource (.sar f) f (mapElems2 (iwBits f.cmp) (sarE (iwBits f.cmp)))
    ∧ TwoSource (.rol f) f (mapElems2 (iwBits f.cmp) (rolE (iwBits f.cmp)))
    ∧ OneSource (.popc f) f (mapElems1 (iwBits f.cmp) (popcE (iwBits f.cmp)))
    ∧ OneSource (.clz f) f (mapElems1 (iwBits f.cmp) (clzE (iwBits f.cmp)))
    ∧ OneSource (.ctz f) f (mapElems1 (iwBits f.cmp) (ctzE (iwBits f.cmp)))
    ∧ OneSource (.brev f) f (mapElems1 (iwBits f.cmp) (brevE (iwBits f.cmp)))
    ∧ TwoSource (.bfx f) f (mapElems2 (iwBits f.cmp) (bfxE (iwBits f.cmp) (bit0 f.cmp)))
    ∧ ThreeSource (.bfi f) f (mapElems3 (iwBits f.cmp) (bfiE (iwBits f.cmp)))
    ∧ ThreeSource (.lea f) f (mapElems3 (iwBits f.cmp) (fun a b c =>
        addE (iwBits f.cmp) false a (shlE (iwBits f.cmp) false b c)))
    ∧ OneSource (.mov f) f (fun a => a)
    ∧ ThreeSource (.bysel f) f bysel
    ∧ RegisterCompletes (.pick f) f.g [rA f] (regNames f.d 1) (fun _ m xs =>
        writeOperand m f.d (tab (fun _ => laneOf (arg xs 0) ((lowestLane m).getD 0))))
    ∧ RegisterCompletes (.sel f) f.g [rA f, rB f] (regNames f.d 1) (fun _ m xs r =>
        writeOperand m f.d (tab (fun l => if (r.predField f.c).getLsbD l then laneOf (arg xs 0) l else laneOf (arg xs 1) l)) r)

/-- The integer immediates complete (R62, R119): the immediate stands in every element in place of B. -/
def Obligations.ImmediateCompletes : Prop :=
  ∀ f : IForm,
    ImmediateOp (.iaddi f) f (mapElems1 (iwBits f.cmp) (fun a => addE (iwBits f.cmp) (bit0 f.cmp) a (immElem (iwBits f.cmp) f.imm)))
    ∧ ImmediateOp (.imuli f) f (mapElems1 (iwBits f.cmp) (fun a => mulE (iwBits f.cmp) (bit0 f.cmp) a (immElem (iwBits f.cmp) f.imm)))
    ∧ ImmediateOp (.andi f) f (fun a => a &&& immWord (iwBits f.cmp) f.imm)
    ∧ ImmediateOp (.ori f) f (fun a => a ||| immWord (iwBits f.cmp) f.imm)
    ∧ ImmediateOp (.xori f) f (fun a => a ^^^ immWord (iwBits f.cmp) f.imm)
    ∧ ImmediateOp (.shli f) f (mapElems1 (iwBits f.cmp) (fun a => shlE (iwBits f.cmp) (bit0 f.cmp) a (f.imm.toNat % 64)))
    ∧ ImmediateOp (.shri f) f (mapElems1 (iwBits f.cmp) (fun a => shrE (iwBits f.cmp) a (f.imm.toNat % 64)))
    ∧ ImmediateOp (.sari f) f (mapElems1 (iwBits f.cmp) (fun a => sarE (iwBits f.cmp) a (f.imm.toNat % 64)))
    ∧ RegisterCompletes (.movi f) f.g [] (regNames f.d 1) (fun _ m _ => writeOperand m f.d (tab (fun _ => immWord (iwBits f.cmp) f.imm)))
    ∧ ImmediateOp (.movk f) f (fun a => packElems 16 ((List.range 4).map (fun j =>
        if j = f.imm.toNat / 2 ^ 16 % 4 then f.imm.toNat % 2 ^ 16 else elem 16 a j)))

/-- The instructions that write predicates or count lanes complete (R116 to R118): ICMP and ICMPI hold where the condition holds in every
element; PCOMB looks the three source predicates up in its truth table; VOTE gives any, all or the ballot of the passing lanes. -/
def Obligations.PredicateCompletes : Prop :=
  ∀ (f : RForm) (k : IForm),
    RegisterCompletes (.icmp f) f.g [rA f, rB f] [] (fun _ m xs r => r.setPred (f.d.toNat % 8) m (maskOf (fun l =>
        allElems (iwBits f.cmp) (intCond (f.d.toNat / 8 % 8) (iwBits f.cmp) (bit0 f.cmp)) (laneOf (arg xs 0) l) (laneOf (arg xs 1) l))))
    ∧ RegisterCompletes (.icmpi k) k.g [iA k] [] (fun _ m xs r => r.setPred (k.d.toNat % 8) m (maskOf (fun l =>
        allElems (iwBits k.cmp) (intCond (k.d.toNat / 8 % 8) (iwBits k.cmp) (bit0 k.cmp)) (laneOf (arg xs 0) l)
          (immWord (iwBits k.cmp) k.imm))))
    ∧ RegisterCompletes (.pcomb f) f.g [] [] (fun _ m _ r => r.setPred (f.d.toNat % 8) m (maskOf (fun l =>
        f.d.getLsbD (3 + ((if (r.predField f.a).getLsbD l then 1 else 0) + (if (r.predField f.b).getLsbD l then 2 else 0)
          + (if (r.predField f.c).getLsbD l then 4 else 0))))))
    ∧ RegisterCompletes (.vote f) f.g [] (regNames f.d 1) (fun _ m _ r => writeOperand m f.d (tab (fun _ =>
        match f.cmp.toNat with
        | 0 => if m &&& r.predField f.a = 0 then 0 else 1
        | 1 => if m &&& r.predField f.a = m then 1 else 0
        | _ => m &&& r.predField f.a)) r)

/-- The element operations of R110 and R111 as arithmetic on e-bit words: sums, products and shifts wrap, and a shift by the width or
more leaves zeros or sign bits. -/
def Obligations.IntegerArithmetic : Prop :=
  ∀ e : Nat, (e = 8 ∨ e = 16 ∨ e = 32 ∨ e = 64) → ∀ a b c : BitVec e,
    addE e false a.toNat b.toNat = (a + b).toNat
      ∧ subE e false a.toNat b.toNat = (a - b).toNat
      ∧ mulE e false a.toNat b.toNat = (a * b).toNat
      ∧ madE e false a.toNat b.toNat c.toNat = (a * b + c).toNat
      ∧ mulhE e true a.toNat b.toNat = ((a.zeroExtend (2 * e) * b.zeroExtend (2 * e)).extractLsb' e e).toNat
      ∧ mulhE e false a.toNat b.toNat = ((a.signExtend (2 * e) * b.signExtend (2 * e)).extractLsb' e e).toNat
      ∧ minE e true a.toNat b.toNat = (if a.ult b then a else b).toNat
      ∧ minE e false a.toNat b.toNat = (if b.slt a then b else a).toNat
      ∧ maxE e true a.toNat b.toNat = (if a.ult b then b else a).toNat
      ∧ maxE e false a.toNat b.toNat = (if a.slt b then b else a).toNat
      ∧ absE e false a.toNat = (if a.msb then -a else a).toNat
      ∧ shlE e false a.toNat b.toNat = (a <<< b.toNat).toNat
      ∧ shrE e a.toNat b.toNat = (a >>> b.toNat).toNat
      ∧ sarE e a.toNat b.toNat = (a.sshiftRight b.toNat).toNat
      ∧ rolE e a.toNat b.toNat = (a.rotateLeft b.toNat).toNat

/-- Saturating arithmetic (R109, R110): `.sat` clamps the exact signed result to the element's range. -/
def Obligations.SaturatingArithmetic : Prop :=
  ∀ e : Nat, (e = 8 ∨ e = 16 ∨ e = 32 ∨ e = 64) → ∀ a b : BitVec e,
    (BitVec.ofNat e (addE e true a.toNat b.toNat)).toInt = max (-(2 ^ (e - 1))) (min (2 ^ (e - 1) - 1) (a.toInt + b.toInt))
      ∧ (BitVec.ofNat e (subE e true a.toNat b.toNat)).toInt = max (-(2 ^ (e - 1))) (min (2 ^ (e - 1) - 1) (a.toInt - b.toInt))
      ∧ (BitVec.ofNat e (mulE e true a.toNat b.toNat)).toInt = max (-(2 ^ (e - 1))) (min (2 ^ (e - 1) - 1) (a.toInt * b.toInt))
      ∧ (BitVec.ofNat e (absE e true a.toNat)).toInt = min (2 ^ (e - 1) - 1) a.toInt.natAbs

/-- The shifts (R111): the count is the unsigned value of the matching element of B; counts below the element's width shift, with SHL
wrapping or saturating the exact product and SAR rounding down, and greater counts leave 0, the limit with the sign, or the sign. -/
def Obligations.ShiftCounts : Prop :=
  (∀ f : RForm,
    TwoSource (.shl f) f (mapElems2 (iwBits f.cmp) (shlE (iwBits f.cmp) (bit0 f.cmp)))
    ∧ TwoSource (.shr f) f (mapElems2 (iwBits f.cmp) (shrE (iwBits f.cmp)))
    ∧ TwoSource (.sar f) f (mapElems2 (iwBits f.cmp) (sarE (iwBits f.cmp))))
  ∧ ∀ e : Nat, (e = 8 ∨ e = 16 ∨ e = 32 ∨ e = 64) → ∀ (x y : Word) (j : Nat), j < 64 / e →
    let a := elem e x j
    let sa := (BitVec.ofNat e a).toInt
    let n := elem e y j
    let signed (op : Nat → Nat → Nat) := (BitVec.ofNat e (elem e (mapElems2 e op x y) j)).toInt
    (n < e →
      elem e (mapElems2 e (shlE e false) x y) j = a * 2 ^ n % 2 ^ e
      ∧ signed (shlE e true) = max (-(2 ^ (e - 1))) (min (2 ^ (e - 1) - 1) (sa * 2 ^ n))
      ∧ elem e (mapElems2 e (shrE e) x y) j = a / 2 ^ n
      ∧ signed (sarE e) = sa / 2 ^ n)
    ∧ (e ≤ n →
      elem e (mapElems2 e (shlE e false) x y) j = 0
      ∧ signed (shlE e true) = (if sa = 0 then 0 else if sa < 0 then -(2 ^ (e - 1)) else 2 ^ (e - 1) - 1)
      ∧ elem e (mapElems2 e (shrE e) x y) j = 0
      ∧ signed (sarE e) = if sa < 0 then -1 else 0)

/-- The floating-point and block instructions complete (R121 to R136), each with its element operation; FCMP holds where the condition holds
in every element pair. That it does so with `.nan` too, as R123's sentence has it and not R123's example, is the model's reading (DEDUCED,
log entry 73). -/
def Obligations.FloatCompletes : Prop :=
  ∀ (ty : FTy) (f : RForm) (k : IForm),
    TwoSource (.fadd ty f) f (mapElems2 (fmtOf ty).width (fpAdd (fmtOf ty) (frMode f.cmp) (frSat f.cmp)))
    ∧ TwoSource (.fsub ty f) f (mapElems2 (fmtOf ty).width (fpSub (fmtOf ty) (frMode f.cmp) (frSat f.cmp)))
    ∧ TwoSource (.fmul ty f) f (mapElems2 (fmtOf ty).width (fpMul (fmtOf ty) (frMode f.cmp) (frSat f.cmp)))
    ∧ ThreeSource (.ffma ty f) f (mapElems3 (fmtOf ty).width (fpFma (fmtOf ty) (frMode f.cmp) (frSat f.cmp)))
    ∧ TwoSource (.fmin ty f) f (mapElems2 (fmtOf ty).width (fpMin (fmtOf ty)))
    ∧ TwoSource (.fmax ty f) f (mapElems2 (fmtOf ty).width (fpMax (fmtOf ty)))
    ∧ OneSource (.frnd ty f) f (mapElems1 (fmtOf ty).width (fpRnd (fmtOf ty) (Mode.ofCode (f.cmp.toNat % 4))))
    ∧ OneSource (.fneg ty f) f (mapElems1 (fmtOf ty).width (fun a => Nat.xor a (fmtOf ty).signBit))
    ∧ OneSource (.fabs ty f) f (mapElems1 (fmtOf ty).width (fun a => a % (fmtOf ty).signBit))
    ∧ ThreeSource (.fdot ty f) f (fun a b c => packElems 32 ((List.range 2).map (fun j =>
        fpDot (fmtOf ty) (frMode f.cmp) (frSat f.cmp) (elem 32 c j) (elem 16 a (2 * j)) (elem 16 b (2 * j))
          (elem 16 a (2 * j + 1)) (elem 16 b (2 * j + 1)))))
    ∧ OneSource (.fclass ty f) f (mapElems1 (fmtOf ty).width (fpClass (fmtOf ty)))
    ∧ ImmediateOp (.fcvt k) k (convElems (fmtCode (k.imm.toNat % 32)).width (fmtCode (k.imm.toNat / 256 % 32)).width
        (fpCvt (fmtCode (k.imm.toNat % 32)) (fmtCode (k.imm.toNat / 256 % 32)) (frMode k.cmp) (frSat k.cmp)))
    ∧ ImmediateOp (.f2i k) k (convElems (fmtCode (k.imm.toNat % 32)).width (itypeBits (k.imm.toNat / 256 % 16))
        (fpToInt (fmtCode (k.imm.toNat % 32)) (frMode k.cmp) (itypeBits (k.imm.toNat / 256 % 16)) (itypeUnsigned (k.imm.toNat / 256 % 16))))
    ∧ ImmediateOp (.i2f k) k (convElems (itypeBits (k.imm.toNat / 256 % 16)) (fmtCode (k.imm.toNat % 32)).width
        (intToFp (fmtCode (k.imm.toNat % 32)) (frMode k.cmp) (frSat k.cmp) (itypeBits (k.imm.toNat / 256 % 16))
          (itypeUnsigned (k.imm.toNat / 256 % 16))))
    ∧ RegisterCompletes (.qnt f) f.g [rA f] (regNames f.d 1) (fun _ m xs => writeOperand m f.d
        (packBlocks (Grid.ofCode (f.c.toNat % 32)) (f.cmp.getLsbD 0) (fun j => blockInputs (arg xs 0) j (fun l => m.getLsbD l))))
    ∧ RegisterCompletes (.dqnt f) f.g [rA f] (regNames f.d 1) (fun _ m xs => writeOperand m f.d
        (tab (dequantLane (f.c.toNat % 32) (fmtCode (f.c.toNat / 32 % 32)) (frMode f.cmp) (frSat f.cmp) (arg xs 0))))
    ∧ RegisterCompletes (.gcomp f) f.g [rA f, rB f] (regNames f.d 1) (fun _ m xs r =>
        writeOperand m f.b (tab (gcompResidual (Grid.ofCode (f.c.toNat % 32)) (f.cmp.getLsbD 0) m (arg xs 0) (arg xs 1)))
          (writeOperand m f.d (packBlocks (Grid.ofCode (f.c.toNat % 32)) (f.cmp.getLsbD 0) (gcompSums m (arg xs 0) (arg xs 1))) r))
    ∧ RegisterCompletes (.fcmp ty f) f.g [rA f, rB f] [] (fun _ m xs r => r.setPred (f.d.toNat % 8) m (maskOf (fun l =>
        allElems (fmtOf ty).width (fpCond (fmtOf ty) (f.d.toNat / 8 % 8)) (laneOf (arg xs 0) l) (laneOf (arg xs 1) l))))
    ∧ OneSource (.cvtw f) f (fun a => BitVec.ofNat 64 (cvtw (elem 32 a 0) + 2 ^ 24 * cvtw (elem 32 a 1)))
    ∧ OneSource (.wreb f) f (fun a => packElems 32 [wreb (bits a 23 0), wreb (bits a 47 24)])

/-- The lane instructions complete (R138 to R145), in a round of width w: element y of the flat numbering of A, or 0 beyond the round's
elements, the sums, extremes and ballots over the passing lanes, and the inclusive and exclusive scans. Two clauses are the model's choice
where the spec is silent: the scans take every prefix, the first lane's included, to its canonical form (DEDUCED, log entry 15), and
RMINX and RMAXX read C, for UNWR and its last-read bit, though every lane passes (DEDUCED, log entry 66). -/
def Obligations.LaneCompletes : Prop :=
  ∀ f : RForm,
    RegisterCompletes (.shfl f) f.g [rA f, rB f] (regNames f.d 1) (fun w m xs => writeOperand m f.d (tab (fun l =>
        packElems (esBits f.cmp) ((List.range (64 / esBits f.cmp)).map (fun k =>
          if bits (laneOf (arg xs 1) l) 15 0 + k < w * (64 / esBits f.cmp)
          then flat (esBits f.cmp) (arg xs 0) (bits (laneOf (arg xs 1) l) 15 0 + k) else 0)))))
    ∧ RegisterCompletes (.shflx f) f.g [rA f, rB f] (regNames f.d 1) (fun w m xs => writeOperand m f.d (tab (fun l =>
        packElems (esBits f.cmp) ((List.range (64 / esBits f.cmp)).map (fun k =>
          ((shflxSource (f.c.toNat % 4) (l * (64 / esBits f.cmp) + k) (bits (laneOf (arg xs 1) l) 15 0) (w * (64 / esBits f.cmp))).map
            (flat (esBits f.cmp) (arg xs 0))).getD 0)))))
    ∧ RegisterCompletes (.bcst f) f.g [rA f, rB f] (regNames f.d 1) (fun w m xs => writeOperand m f.d (tab (fun _ =>
        packElems (esBits f.cmp) (List.replicate (64 / esBits f.cmp)
          (if bits (laneOf (arg xs 1) ((lowestLane m).getD 0)) 15 0 < w * (64 / esBits f.cmp)
           then flat (esBits f.cmp) (arg xs 0) (bits (laneOf (arg xs 1) ((lowestLane m).getD 0)) 15 0) else 0)))))
    ∧ RegisterCompletes (.radd f) f.g [rA f] (regNames f.d 1) (fun w m xs => writeOperand m f.d (reduceAll (rtBits f.cmp) (fun j =>
        if rtKind f.cmp = 2 then
          treeSum (rtFmt f.cmp) (levels w) ((List.range w).map (fun l =>
            if m.getLsbD l then elem (rtBits f.cmp) (laneOf (arg xs 0) l) j else (rtFmt f.cmp).signed true 0))
        else (passingElems (rtBits f.cmp) j m (arg xs 0)).foldl (· + ·) 0 % 2 ^ rtBits f.cmp)))
    ∧ RegisterCompletes (.rmin f) f.g [rA f] (regNames f.d 1) (fun _ m xs => writeOperand m f.d (reduceAll (rtBits f.cmp) (fun j =>
        rtCanon f.cmp (fold1 (rtMin f.cmp) (passingElems (rtBits f.cmp) j m (arg xs 0))))))
    ∧ RegisterCompletes (.rmax f) f.g [rA f] (regNames f.d 1) (fun _ m xs => writeOperand m f.d (reduceAll (rtBits f.cmp) (fun j =>
        rtCanon f.cmp (fold1 (rtMax f.cmp) (passingElems (rtBits f.cmp) j m (arg xs 0))))))
    ∧ RegisterCompletes (.rminx f) f.g [rA f, rC f] (regNames f.d 1) (fun w m xs => writeOperand m f.d (extremeOf false w f.cmp m xs))
    ∧ RegisterCompletes (.rmaxx f) f.g [rA f, rC f] (regNames f.d 1) (fun w m xs => writeOperand m f.d (extremeOf true w f.cmp m xs))
    ∧ RegisterCompletes (.rbit f) f.g [rA f] (regNames f.d 1) (fun _ m xs => writeOperand m f.d (tab (fun _ =>
        match f.cmp.toNat with
        | 0 => ((lanesOf m).map (fun l => laneOf (arg xs 0) l)).foldl (· &&& ·) (BitVec.allOnes 64)
        | 1 => ((lanesOf m).map (fun l => laneOf (arg xs 0) l)).foldl (· ||| ·) 0
        | _ => ((lanesOf m).map (fun l => laneOf (arg xs 0) l)).foldl (· ^^^ ·) 0)))
    ∧ RegisterCompletes (.scana f) f.g [rA f] (regNames f.d 1) (fun _ m xs => writeOperand m f.d (scanned f.cmp rtAdd m (arg xs 0)))
    ∧ RegisterCompletes (.scanmin f) f.g [rA f] (regNames f.d 1) (fun _ m xs => writeOperand m f.d (scanned f.cmp rtMin m (arg xs 0)))
    ∧ RegisterCompletes (.scanmax f) f.g [rA f] (regNames f.d 1) (fun _ m xs => writeOperand m f.d (scanned f.cmp rtMax m (arg xs 0)))
    ∧ RegisterCompletes (.scanae f) f.g [rA f] (regNames f.d 1) (fun _ m xs => writeOperand m f.d (tab (fun l =>
        packElems (rtBits f.cmp) ((List.range (64 / rtBits f.cmp)).map (fun j =>
          if l = 0 then scanIdentity f.cmp
          else rtCanon f.cmp ((scanAt (rtAdd f.cmp) m (fun k => elem (rtBits f.cmp) (laneOf (arg xs 0) k) j) (l - 1)).getD
            (scanIdentity f.cmp)))))))
    ∧ RegisterCompletes (.matchLanes f) f.g [rA f] (regNames f.d 1) (fun _ m xs => writeOperand m f.d (tab (fun l =>
        maskOf (fun k => m.getLsbD k && elem (esBits f.cmp) (laneOf (arg xs 0) k) 0 == elem (esBits f.cmp) (laneOf (arg xs 0) l) 0))))

/-- The frame of the register instructions (R107): when one goes on to a next state, memory, the teams, the fabric and every other round
are as they were, and the cores too unless YIELD was executed in the clause, which then may end (R96); of its own round's state, the masks,
the join stack, the walkers' bindings, the batches, the engine's latches and every register that it does not write stay, the temporaries
and the pending accesses while the clause stays open (R87), but that a v name may be freed by a last-read bit (R46). A trap or a stall keeps
the same frame. The round's v names stand once each, as every step keeps them. -/
def Obligations.RegisterFrame : Prop :=
  ∀ (i : Instr) (s t : State) (r q : Round) (fs : List Field) (ds : List Code) (p : Option Nat),
    registerShape i = some (fs, ds, p) → s.issuing = some r → SMap.wf r.v = true → exec i s = .next t → t.issuing = some q →
      t.mem = s.mem ∧ t.lasting = s.lasting ∧ t.teams = s.teams ∧ t.gangs = s.gangs ∧ t.nodes = s.nodes
        ∧ (r.yields = false → t.cores = s.cores)
        ∧ t.dies = s.dies ∧ t.stores = s.stores ∧ t.lines = s.lines ∧ t.flights = s.flights ∧ t.package = s.package
        ∧ t.rounds.length = s.rounds.length ∧ (∀ n, n ≠ s.cur → t.rounds[n]? = s.rounds[n]?)
        ∧ q.cur = r.cur ∧ q.live = r.live ∧ q.stack = r.stack ∧ q.abase = r.abase ∧ q.openBatch = r.openBatch ∧ q.sealed = r.sealed
        ∧ q.window = r.window ∧ q.latch = r.latch ∧ q.fifo = r.fifo ∧ q.parts = r.parts ∧ q.epochs = r.epochs
        ∧ q.tokens = r.tokens ∧ q.drain = r.drain
        ∧ (∀ k, (q.walker k).bound = (r.walker k).bound ∧ (q.walker k).base = (r.walker k).base)
        ∧ (∀ n, (∀ d ∈ ds, operand d ≠ .s n) → q.s[n]? = r.s[n]?)
        ∧ (q.clause.isSome = true → q.pending = r.pending ∧ ∀ n, (∀ d ∈ ds, operand d ≠ .t n) → q.t[n]? = r.t[n]?)
        ∧ (∀ n, p ≠ some n → q.pred n = r.pred n)
        ∧ (∀ n, (∀ d ∈ ds, operand d ≠ .v n) →
            SMap.find q.v n = SMap.find r.v n ∨ (SMap.find q.v n = none ∧ ∃ f ∈ fs, f.2 = true ∧ operand f.1 = .v n))

/-- The loads complete (R154, R291, R296, R298, R299), where an access takes effect at once: with aligned addresses and pages that translate,
D receives the bytes of each passing lane, zero-extended. The round's earlier accesses to the bytes come first (R284); LD reads its core's
latest buffered write, else the home slice, after the promotion of an acquire-promote; LDS reads the scratchpad; LDH, behind the round's own
host writes and a trained link, reads the host, whose bytes are free values (DESIGN CHOICE, log entry 5). That an LD or an LDS takes effect
at the instant it issues, unless its turn leaves it pending, is the model's choice (DESIGN CHOICE, log entry 9). -/
def Obligations.LoadsComplete : Prop :=
  ∀ (s : State) (r : Round) (f : MForm),
    let z := szBytes f.sz
    let m := r.passing f.g
    let fs := [(f.a, f.lra)]
    let b := s.begun r f.g fs
    let addrs := offsetLanes m (arg (sources s r fs) 0) f.ofs
    (∀ pas,
      let bytes := pas.flatMap (fun p => p.2)
      let e1 := b.orderBefore s.cur false bytes
      let e2 := if ordSem f.ord = 3 then e1.promote r (s.effScope r (ordScope f.ord)) else e1
      let e := (e2.capture s.cur false bytes).noteServed s.cur r.core bytes
      let write := writeRun m f.d (loadedRegs (szRegs f.sz) (fun l => (pasOf pas l).map (e.coreRead r.core)))
      Starts s r fs (regNames f.d (szRegs f.sz)) → s.late = false → (∀ p ∈ addrs, orderedAlign (ordSem f.ord) z p.2 = true) →
        translateLanes (s.xlat r false) z addrs = .ok pas → CleanLanes s pas → Fits b e fs write →
          exec (.ld f) s = .next (e.done fs write))
    ∧ (let lanes := spadLanesOf z addrs
      let bytes := lanes.flatMap (fun p => p.2)
      let e1 := b.orderBefore s.cur true bytes
      let e := e1.capture s.cur true bytes
      let write := writeRun m f.d (loadedRegs (szRegs f.sz) (fun l => (pasOf lanes l).map (Memory.read (e1.teamOf r).spad)))
      Starts s r fs (regNames f.d (szRegs f.sz)) → s.late = false → SpadOk s r z addrs → Fits b e fs write →
        exec (.lds f) s = .next (e.done fs write))
    ∧ (let e : State := { b.issueHostWrites s.cur with free := s.free + 1 }
      let write := writeRun m f.d (loadedRegs 1 (fun l => (List.range z).map (fun i => Config.hostByte s.free (8 * l + i))))
      Starts s r fs (regNames f.d 1) →
        (∀ p ∈ addrs, p.2.toNat % min z 8 = 0 ∧ (hostTranslate (s.partOf r) false p.2).isSome = true) →
        (b.issueHostWrites s.cur).hostQuiet s.cur = true → s.linkReady (linkOf (s.teamOf r).part) = true → Fits b e fs write →
          exec (.ldh f) s = .next (e.done fs write))

/-- The stores complete (R154, R291, R295, R296, R297, R299), where an access takes effect at once: after the release of an ordered store,
ST enters one buffer entry with the bytes of the passing lanes, STS writes the scratchpad in lane order, STH queues posted host writes, and
STP writes both locations of each lane at their home slices at one instant, after the core's own earlier stores to those bytes; the round's
earlier accesses to the bytes come first (R284). That a release below system scope drains and acknowledges the round's earlier stores in the
store's own step is the model's choice (DEDUCED, log entry 10); so is that an STS takes effect as it issues, unless its turn leaves it
pending (DESIGN CHOICE, log entry 18). -/
def Obligations.StoresComplete : Prop :=
  ∀ (s : State) (r : Round) (f : MForm) (h : RForm),
    let z := szBytes f.sz
    let fs := (f.a, f.lra) :: runFields f.d (szRegs f.sz) f.lrd
    let b := s.begun r f.g fs
    let xs := sources s r fs
    let addrs := offsetLanes (r.passing f.g) (arg xs 0) f.ofs
    let e1 := b.semReleased r (ordSem f.ord == 2) (ordScope f.ord)
    (∀ pas,
      let e := e1.store r z (pas.map (fun p => placeBytes p.2 (storedBytes z (xs.drop 1) p.1)))
      Starts s r fs [] → (∀ p ∈ addrs, orderedAlign (ordSem f.ord) z p.2 = true) →
        translateLanes (s.xlat r true) z addrs = .ok pas → (ordSem f.ord = 2 → b.Releases r (ordScope f.ord) false) →
        Fits b e fs (fun q => q) → exec (.st f) s = .next (e.done fs (fun q => q)))
    ∧ (let e := e1.storeSpad r (spadBytes z addrs (xs.drop 1))
      Starts s r fs [] → s.late = false → SpadOk s r z addrs →
        (ordSem f.ord = 2 → b.Releases r (ordScope f.ord) false) → Fits b e fs (fun q => q) →
          exec (.sts f) s = .next (e.done fs (fun q => q)))
    ∧ (let fs := [(f.a, f.lra), (f.d, f.lrd)]
      let b := s.begun r f.g fs
      let xs := sources s r fs
      let addrs := offsetLanes (r.passing f.g) (arg xs 0) f.ofs
      let e1 := b.semReleased r (ordSem f.ord == 2) (ordScope f.ord)
      let e : State := { e1 with hostq := e1.hostq ++ addrs.filterMap (fun p => (hostTranslate (s.partOf r) true p.2).map (fun a =>
        ({ round := s.cur, part := (s.teamOf r).part, addr := a, data := storedBytes z (xs.drop 1) p.1 } : HostWrite))) }
      Starts s r fs [] →
        (∀ p ∈ addrs, p.2.toNat % min z 8 = 0 ∧ (hostTranslate (s.partOf r) true p.2).isSome = true) →
        (ordSem f.ord = 2 → b.Releases r (ordScope f.ord) false) → Fits b e fs (fun q => q) →
          exec (.sth f) s = .next (e.done fs (fun q => q)))
    ∧ (∀ pas,
      let z := 2 ^ h.cmp.toNat
      let m := r.passing h.g
      let fs := [rA h, rB h, (h.d, false)]
      let b := s.begun r h.g fs
      let xs := sources s r fs
      let bytes := (pairUp pas).flatMap (fun p =>
        placeBytes p.2.1 (storedBytes z (xs.drop 2) p.1) ++ placeBytes p.2.2 (storedBytes z (xs.drop 2) p.1))
      let at_ := bytes.map (fun x => x.1)
      let e := ((b.orderBefore s.cur false at_).sendEarlier r.core at_).writeBytes bytes
      Starts s r fs [] → s.late = false →
        (∀ l ∈ lanesOf m, (laneOf (arg xs 0) l).toNat % z = 0 ∧ (laneOf (arg xs 1) l).toNat % z = 0) →
        translateLanes (s.xlat r true) z ((lanesOf m).flatMap (fun l => [(l, laneOf (arg xs 0) l), (l, laneOf (arg xs 1) l)])) = .ok pas →
        (∀ q ∈ pairUp pas, homeDie (q.2.1.headD 0) = homeDie (q.2.2.headD 0)) → Fits b e fs (fun q => q) →
          exec (.stp h) s = .next (e.done fs (fun q => q)))

/-- The atomics complete (R58, R156, R294), where they take effect at once: ATOM and ATOMU with the operation of their OP field, signed and
unsigned, on values of ASZ bytes, CAS and CASS where the old value equals B, and ATOMS as ATOM on the scratchpad. The sign of a zero that
FADD gives is the model's choice (DEDUCED, log entry 37), and so is that a release below system scope takes effect in the atomic's own step
(DEDUCED, log entry 10). -/
def Obligations.AtomicsComplete : Prop :=
  ∀ (f : AForm) (h : RForm),
    MemoryAtomicCompletes (.atom f) f.g [(f.a, f.lra), (f.b, f.lrb)] f.d (aszBytes f.asz) (ordSem f.ord) (ordScope f.ord)
        (fun xs l old => atomicOp f.op.toNat (aszBytes f.asz) false old ((laneOf (arg xs 1) l).toNat % 2 ^ (8 * aszBytes f.asz)))
    ∧ MemoryAtomicCompletes (.atomu f) f.g [(f.a, f.lra), (f.b, f.lrb)] f.d (aszBytes f.asz) (ordSem f.ord) (ordScope f.ord)
        (fun xs l old => atomicOp f.op.toNat (aszBytes f.asz) true old ((laneOf (arg xs 1) l).toNat % 2 ^ (8 * aszBytes f.asz)))
    ∧ MemoryAtomicCompletes (.cas h) h.g [rA h, rB h, rC h] h.d 8 3 h.cmp.toNat
        (fun xs l old => if old = (laneOf (arg xs 1) l).toNat then (laneOf (arg xs 2) l).toNat else old)
    ∧ SpadAtomicCompletes (.atoms f) f.g [(f.a, f.lra), (f.b, f.lrb)] f.d (aszBytes f.asz) (ordSem f.ord) (ordScope f.ord)
        (fun xs l old => atomicOp f.op.toNat (aszBytes f.asz) false old ((laneOf (arg xs 1) l).toNat % 2 ^ (8 * aszBytes f.asz)))
    ∧ SpadAtomicCompletes (.cass h) h.g [rA h, rB h, rC h] h.d 8 3 h.cmp.toNat
        (fun xs l old => if old = (laneOf (arg xs 1) l).toNat then (laneOf (arg xs 2) l).toNat else old)

/-- Pending accesses (R81, R385, R389). A turn may leave a load, a scratchpad store, a pair or an atomic pending: it has then had its checks,
its release and the accesses that R284 puts before it, its destination names stay pending for the scoreboard, and its round goes on. Later,
a unit of it takes effect alone, of a read after the round's older reads of its bytes (R284); with its last unit the access is over and its
destination receives what its units obtained. The choice of when is the agenda's (DESIGN CHOICE, log entries 2 and 9). -/
def Obligations.PendingAccesses : Prop :=
  (∀ (s : State) (r : Round) (f : MForm) (pas : List (Nat × List Nat)),
    let z := szBytes f.sz
    let m := r.passing f.g
    let fs := [(f.a, f.lra)]
    let b := s.begun r f.g fs
    let addrs := offsetLanes m (arg (sources s r fs) 0) f.ofs
    let e := b.orderBefore s.cur false (pas.flatMap (fun p => p.2))
    let a := accessOf false .load f.d (szRegs f.sz) m (ordSem f.ord) (s.effScope r (ordScope f.ord)) (piecesOf z pas (fun _ => []))
    let write := fun (q : Round) =>
      { writeRun m f.d (List.replicate (szRegs f.sz) []) q with pending := q.pending ++ [{ a with id := e.nextId }] }
    Starts s r fs (regNames f.d (szRegs f.sz)) → s.late = true → m ≠ 0 → (∀ p ∈ addrs, orderedAlign (ordSem f.ord) z p.2 = true) →
      translateLanes (s.xlat r false) z addrs = .ok pas → CleanLanes s pas → Fits b { e with nextId := e.nextId + 1 } fs write →
        exec (.ld f) s = .next (({ e with nextId := e.nextId + 1 } : State).done fs write))
  ∧ (∀ (s : State) (n id : Nat) (units : Option (List Nat)) (r : Round) (a : Access),
    s.rounds[n]? = some r → r.pending.find? (fun x => x.id == id) = some a → (a.picks units).1 ≠ [] →
      let out := State.performPieces n r (s.promoteFor r a) a (a.picks units).1
      ∀ q, out.1.rounds[n]? = some q →
        ((a.picks units).2 = [] →
          s.performUnits n id units = out.1.setRoundAt n (out.2.deliver { q with pending := q.pending.filter (fun x => x.id != id) }))
        ∧ ((a.picks units).2 ≠ [] →
          s.performUnits n id units = out.1.setRoundAt n { q with
            pending := q.pending.map (fun x => if x.id == id then { out.2 with pieces := (a.picks units).2 } else x) }))
  ∧ (∀ (s : State) (n id : Nat) (units : Option (List Nat)) (r : Round) (a : Access),
    s.rounds[n]? = some r → r.pending.find? (fun x => x.id == id) = some a →
      (a.op ≠ .store → s.perform n id units = (s.serveReads n id a.spad (a.bytesOn units)).performUnits n id units)
      ∧ (a.op = .store → s.perform n id units = s.performUnits n id units))
  ∧ (∀ (s : State) (n : Nat) (r : Round) (a : Access) (p : Piece), a.op = .load → a.spad = false → a.path = 0 →
      s.performPiece n r a p = (s.noteServed n r.core p.addrs, p.addrs.map (s.coreRead r.core)))
  ∧ (∀ (s : State) (n : Nat) (r : Round) (a : Access) (p : Piece), a.op = .store → a.spad = false → a.path = 0 → p.b = 0 →
      s.performPiece n r a p = ((s.sendEarlier r.core p.addrs).writeBytes (p.addrs.zip p.data), p.data))
  ∧ (∀ (s : State) (n : Nat) (id : Nat) (units : Option (List Nat)) (ts : List Turn), s.agenda = .perform n id units :: ts →
      step s = .next (({ s with agenda := ts } : State).perform n id units))

/-- The fences and PREF complete (R292, R300, R301): FENCE once its release need not wait, FENCEX once both paths are quiet, and PREF
always, with no result. Two clauses are the model's choice: that the release of FENCE below system scope drains and acknowledges in its own
step and what later accesses then find (DEDUCED, log entry 10), and what counts as quiet on the FB path (DEDUCED, log entry 46). -/
def Obligations.FencesComplete : Prop :=
  ∀ (s : State) (r : Round),
    (∀ f : RForm, Starts s r [] [] → (s.begun r f.g []).Releases r f.cmp.toNat true →
      Fits (s.begun r f.g []) ((s.begun r f.g []).afterRelease r f.cmp.toNat true) [] (fun q => q) →
        exec (.fence f) s = .next (((s.begun r f.g []).afterRelease r f.cmp.toNat true).done [] (fun q => q)))
    ∧ (∀ (f : IForm) (q : Round),
      let x := f.imm.toNat % 8
      let y := f.imm.toNat / 8 % 8
      let e := ((s.begun r f.g []).pushPath s.cur x).pushPath s.cur y
      let t := e.shows s.cur [x, y] [x, y]
      Starts s r [] [] → e.issuing = some q → e.pathQuiet s.cur q x = true → e.pathQuiet s.cur q y = true →
        Fits e t [] (fun q => q) → exec (.fencex f) s = .next (t.done [] (fun q => q)))
    ∧ (∀ f : MForm, Starts s r [(f.a, f.lra)] [] →
      Fits (s.begun r f.g [(f.a, f.lra)]) (s.begun r f.g [(f.a, f.lra)]) [(f.a, f.lra)] (fun q => q) →
        exec (.pref f) s = .next ((s.begun r f.g [(f.a, f.lra)]).done [(f.a, f.lra)] (fun q => q)))

/-- The tag-table instructions complete in a team with a share (R158, R160), lane by lane in ascending order: TLOOK answers each lane's
slot or victim, TSET installs keys at slots of their own set, TCLR clears slots; the round's acquires come first (R161). -/
def Obligations.TagTableCompletes : Prop :=
  ∀ (s0 : State) (r : Round) (f : RForm),
    let s := s0.settleAcquires s0.cur
    (s.teamOf r).tagSets ≠ 0 →
    let m := r.passing f.g
    (let b := s.begun r f.g [rA f]
      let x := arg (sources s r [rA f]) 0
      let out := tagLookLanes (s.teamOf r) (laneValues m x)
      Starts s r [rA f] (regNames f.d 1) →
        Fits b (b.setTeam r.team out.1) [rA f] (writeOperand m f.d (oldLanes out.2)) →
          exec (.tlook f) s0 = .next ((b.setTeam r.team out.1).done [rA f] (writeOperand m f.d (oldLanes out.2))))
    ∧ (let b := s.begun r f.g [rA f, rB f]
      let xs := sources s r [rA f, rB f]
      let e := b.setTeam r.team ((lanesOf m).foldl (fun t l => tagInstall t (laneOf (arg xs 0) l) (laneOf (arg xs 1) l).toNat) (s.teamOf r))
      Starts s r [rA f, rB f] [] →
        (∀ l ∈ lanesOf m, (laneOf (arg xs 1) l).toNat < 4 * (s.teamOf r).tagSets
          ∧ (laneOf (arg xs 1) l).toNat / 4 = tagSet (s.teamOf r).tagSets (laneOf (arg xs 0) l)) →
        Fits b e [rA f, rB f] (fun q => q) → exec (.tset f) s0 = .next (e.done [rA f, rB f] (fun q => q)))
    ∧ (let b := s.begun r f.g [rA f]
      let x := arg (sources s r [rA f]) 0
      let e := b.setTeam r.team ((lanesOf m).foldl (fun t l => tagClear t (laneOf x l).toNat) (s.teamOf r))
      Starts s r [rA f] [] → (∀ l ∈ lanesOf m, (laneOf x l).toNat < 4 * (s.teamOf r).tagSets) →
        Fits b e [rA f] (fun q => q) → exec (.tclr f) s0 = .next (e.done [rA f] (fun q => q)))

/-- The copies complete when some lane passes (R163 to R166): each adds one member to the open batch with the next identifier, CPYR
also rows for its destination names, once no earlier instruction has yet to write them (R81, R258), CPYI after it has read its descriptor
as a plain LDS does (R157, R284), and CSEAL seals the open batch under the next number, which D receives. The last-read bits, the walkers and UNWR follow R46, R84 and R100. That bits [7:4] of the kinds byte of
CPYI's descriptor must be 0 is the model's choice (DESIGN CHOICE, log entry 69). -/
def Obligations.CopiesIssue : Prop :=
  ∀ (s : State) (r : Round) (f : PForm) (h : RForm),
    let m := r.passing f.g
    (let fs := [(f.a, f.lra), (f.b, f.lrb), (f.c, f.lrc)]
      let b := s.begun r f.g fs
      let xs := sources s r fs
      let dst := laneOf (arg xs 0) 0
      let src := laneOf (arg xs 1) 0
      let n := (laneOf (arg xs 2) 0).toNat
      let e : State := { b with nextId := s.nextId + 1 }
      let write := fun (q : Round) => q.enlist s.nextId (.copy (f.cmp.toNat / 4) src (f.cmp.toNat % 4) dst n)
      Starts s r fs [] → m ≠ 0 → n ≤ 2 ^ 30 → (f.cmp.toNat % 4 = 1 → AreaOk s r dst n) → (f.cmp.toNat / 4 = 1 → AreaOk s r src n) →
        Fits b e fs write → exec (.cpy f) s = .next (e.done fs write))
    ∧ (let fs := [(f.b, f.lrb), (f.c, f.lrc)]
      let b := s.begun r f.g fs
      let xs := sources s r fs
      let t := (laneOf (arg xs 1) 0).toNat
      let count := f.cmp.toNat + 1
      let names := (List.range count).map (fun k => f.a.toNat + k)
      let e : State := { b with nextId := s.nextId + 1 }
      let w : Work := .regs f.ls.toNat (arg xs 0) m f.a.toNat count t
      let here := fun (q : Round) => (allocate f.a.toNat count q).enlist s.nextId w
      let there := fun (q : Round) => q.enlist s.nextId w
      Starts s r fs [] → m ≠ 0 → t < (s.teamOf r).kernel.rounds →
        (f.ls.toNat = 1 → ∀ p ∈ laneValues m (arg xs 0), (s.teamOf r).shadowed p.2.toNat (8 * count) = false
          ∧ (s.teamOf r).holds p.2.toNat (8 * count) = true) →
        (b.roundOf r.team t = some s.cur → (∀ k ∈ names, k ∉ r.landing) → Fits b e fs here → exec (.cpyr f) s = .next (e.done fs here))
          ∧ (∀ n q, b.roundOf r.team t = some n → n ≠ s.cur → b.rounds[n]? = some q → (∀ k ∈ names, k ∉ q.landing) →
              q.status ≠ .ended → b.rowsFit n (allocate f.a.toNat count q) = true →
              Fits b (e.setRoundAt n (allocate f.a.toNat count q)) fs there →
                exec (.cpyr f) s = .next ((e.setRoundAt n (allocate f.a.toNat count q)).done fs there))
          ∧ (b.roundOf r.team t = none → Fits b e fs there → exec (.cpyr f) s = .next (e.done fs there)))
    ∧ (let fs := [(f.a, f.lra)]
      let b := s.begun r f.g fs
      let a := laneOf (arg (sources s r fs) 0) 0
      let e1 := b.readSpadNow (spadRange a 64)
      let l := (spadRange a 64).map (Memory.read (e1.teamOf r).spad)
      let d := readInterleave l
      let unpack := f.cmp.getLsbD 0
      let e : State := { e1 with nextId := e1.nextId + 1 }
      let write := fun (q : Round) => q.enlist e1.nextId (.interleave unpack d)
      Starts s r fs [] → m ≠ 0 → a.toNat % 64 = 0 → AreaOk s r a 64 → interleaveOk l = true →
        (d.dstKind = 1 → AreaOk s r d.dst (if unpack then d.plain else d.woven)) →
        (d.srcKind = 1 → AreaOk s r d.src (if unpack then d.woven else d.plain)) →
        Fits b e fs write → exec (.cpyi f) s = .next (e.done fs write))
    ∧ (let b := s.begun r h.g []
      let write := fun (q : Round) =>
        writeOperand (r.passing h.g) h.d (tab (fun _ => BitVec.ofNat 64 ((q.last + 1) % 2 ^ 16)))
          (Round.prune { q with
            last := (q.last + 1) % 2 ^ 16
            sealed := q.sealed ++ [{ q.openBatch with num := (q.last + 1) % 2 ^ 16 }]
            openBatch := { num := 0, members := [], fault := none, reported := false } })
      Starts s r [] (regNames h.d 1) → r.passing h.g ≠ 0 → r.unfinished ≠ 64 → Fits b b [] write →
        exec (.cseal h) s = .next (b.done [] write))

/-- The waits for batches (R167, R170): CWAIT completes once no batch from the named one back is unfinished, CWAITK once no more than the
named number are, and what the round's CP and TX paths find its other paths find from then on (R302); with a record to report, each traps
with COPY_FAULT and the record of the oldest, which is then reported. How the model keeps what a path finds is DEDUCED, log entry 10. That the
first information word is the batch's number with the kind above it is the model's choice (DEDUCED, log entry 7). -/
def Obligations.CopyWaits : Prop :=
  ∀ (s : State) (r : Round) (f : IForm),
    let fs := [iA f]
    let b := s.begun r f.g fs
    let v := ((laneOf (arg (sources s r fs) 0) 0).toNat + f.imm.toNat) % 2 ^ 16
    let e := (b.pushTx s.cur).shows s.cur [1, 2] otherPaths
    let named (p : Round) : List Batch := p.sealed.filter (fun x => r.back v ≤ p.back x.num)
    let done (p : Round) : List Batch := p.sealed.filter (fun x => x.members.isEmpty)
    let settled := 64 ≤ r.back v ∨ ∀ x ∈ named r, x.members = []
    let reports (i : Instr) (r : Round) (x : Batch) (y : FaultRec) : Prop :=
      ∃ t p q, exec i s = .next t ∧ t.issuing = some q ∧ q.status = .parked p ∧ p.trap.cause = 0x23
        ∧ p.trap.info0 = BitVec.ofNat 64 (x.num + 2 ^ 16 * y.kind) ∧ p.trap.info1 = y.addr ∧ p.trap.info2 = BitVec.ofNat 64 y.cause
        ∧ q.sealed = r.sealed.map (fun z => if z.num == x.num then { z with reported := true } else z)
    ∀ q1, Starts s r fs [] → e.issuing = some q1 →
      (settled → q1.oldestFault (named q1) = none → Fits b e fs Round.prune → exec (.cwait f) s = .next (e.done fs Round.prune))
      ∧ (r.unfinished ≤ v → q1.oldestFault (done q1) = none → Fits b e fs Round.prune →
        exec (.cwaitk f) s = .next (e.done fs Round.prune))
      ∧ (∀ x y, settled → q1.oldestFault (named q1) = some x → x.fault = some y → reports (.cwait f) q1 x y)
      ∧ (∀ x y, r.unfinished ≤ v → q1.oldestFault (done q1) = some x → x.fault = some y → reports (.cwaitk f) q1 x y)

/-- The copies' events (R164, R168, R169): a member that waits for no service, and whose accesses all succeed, moves the named destination
words, or all that remain, and finishes with the last of them; a source word that other destination words need too is read whole then, and
what a fence has shown to the member's path and the round's older reads of those bytes come first (R284, R302). A copy into registers lands in its destination round, in the
order in which copies into one register issued. -/
def Obligations.CopyEvents : Prop :=
  ∀ (s : State) (n id : Nat),
    (∀ (mv : Move) (src : Nat → Nat ⊕ Byte) (words : Option (List Nat)) (r1 : Round) (m m1 : Member) (s2 : State),
      let is := wordBytes mv words m.moved
      let s1 := (s.readyMember n m mv.srcKind (mv.reads src is)).readyWrite n m mv.dstKind (is.map (fun i => mv.dst + BitVec.ofNat 64 i))
      let m2 := if words.isNone then m1
        else s1.readWords (s1.agentOf n) [{ kind := mv.srcKind, base := mv.src, len := 2 ^ 64 - 1 }]
          (mv.reads src (wordBytes mv words m1.moved)) m1
      s.rounds[n]?.bind (fun r => r.member? id) = some m → m.service = none → m.work.move = some (mv, src) →
      (mv.usesHost = true → s.linkReady (linkOf (s.agentOf n).part) = true) →
      s1.rounds[n]? = some r1 → r1.member? id = some m1 →
      s1.moveBytes (s1.agentOf n) m2 mv src (wordBytes mv words m1.moved) = .done s2 →
        exec (.copyMemberComplete n id words) s = .next (advanceMember n m2 mv words s2))
    ∧ (∀ (sk : Nat) (addrs : Lanes) (mask : Mask) (reg count target k : Nat) (r1 q : Round) (m m1 : Member) (bytes : List Byte),
      let at_ := (lanesOf mask).flatMap (fun l => (List.range (8 * count)).map (fun i => laneOf addrs l + BitVec.ofNat 64 i))
      let s1 := s.readyMember n m sk at_
      let s2 := ({ s1 with free := s1.free + 1 } : State).setRoundAt n (r1.finishMember m1.id none).prune
      s.rounds[n]?.bind (fun r => r.member? id) = some m → m.work = .regs sk addrs mask reg count target →
      s1.rounds[n]? = some r1 → r1.member? id = some m1 → m1.service = none → m1.work = m.work →
      (∀ x ∈ s1.rounds, x.team = r1.team → ∀ y ∈ x.members, m1.id ≤ y.id) →
      gather (at_.map (s1.memberByte (s1.agentOf n) m1 sk)) = .ok bytes →
      s2.roundOf r1.team target = some k → s2.rounds[k]? = some q → q.status ≠ .ended →
        exec (.cpyrDataLand n id) s = .next (s2.setRoundAt k (landRegs mask reg (loadedRegs count (fun l =>
          (bytes.drop (8 * count * (lanesOf mask).idxOf l)).take (8 * count))) q)))

/-- The layout-register moves complete when some lane passes (R182, R185, R186): LYLD loads a record with its progress cleared, LYST
stores one, LYSET writes one of words 0 to 60 of a register with no plan in progress, and LYGET reads one of 64. The round's earlier
accesses to the bytes of a record come first (R284). -/
def Obligations.LayoutMoves : Prop :=
  ∀ (s : State) (r : Round) (f : PForm) (pas : List Nat),
    let m := r.passing f.g
    let b := s.begun r f.g [(f.a, f.lra)]
    let a := laneOf (arg (sources s r [(f.a, f.lra)]) 0) 0
    let spad := f.cmp.getLsbD 0
    m ≠ 0 →
    (let e1 := b.orderBefore s.cur spad pas
      let e2 := e1.capture s.cur spad pas
      let e3 := if spad then e2 else e2.noteServed s.cur r.core pas
      let bytes := if spad then pas.map (Memory.read (e1.teamOf r).spad) else pas.map (e1.coreRead r.core)
      let e := e3.modTeam r (fun t => t.setLayout f.ld.toNat { words := setWord (recordOf bytes) 61 0, plan := none })
      Starts s r [(f.a, f.lra)] [] → ((s.teamOf r).layout f.ld.toNat).busy = false → LayoutAt s r spad false m a pas →
        (spad = false → ∀ x ∈ pas, s.isLasting x = false) → Fits b e [(f.a, f.lra)] (fun q => q) →
          exec (.lyld f) s = .next (e.done [(f.a, f.lra)] (fun q => q)))
    ∧ (let bytes := pas.zip (recordBytes ((s.teamOf r).layout f.ls.toNat).words)
      let e := if spad then b.storeSpad r bytes else b.store r 8 [bytes]
      Starts s r [(f.a, f.lra)] [] → LayoutAt s r spad true m a pas → Fits b e [(f.a, f.lra)] (fun q => q) →
        exec (.lyst f) s = .next (e.done [(f.a, f.lra)] (fun q => q)))
    ∧ (let fs := [(f.a, f.lra), (f.b, f.lrb)]
      let b := s.begun r f.g fs
      let l := (lowestLane m).getD 0
      let w := (laneOf (arg (sources s r fs) 1) l).toNat
      let x := (s.teamOf r).layout f.ld.toNat
      let e := b.modTeam r (fun t => t.setLayout f.ld.toNat { x with words := setWord x.words w (laneOf (arg (sources s r fs) 0) l) })
      Starts s r fs [] → x.busy = false → w < 61 → Fits b e fs (fun q => q) → exec (.lyset f) s = .next (e.done fs (fun q => q)))
    ∧ (let fs := [(f.b, f.lrb)]
      let b := s.begun r f.g fs
      let w := (laneOf (arg (sources s r fs) 0) ((lowestLane m).getD 0)).toNat
      let write := writeOperand m f.a (tab (fun _ => recWord ((s.teamOf r).layout f.ls.toNat).words w))
      Starts s r fs (regNames f.a 1) → w < 64 → Fits b b fs write → exec (.lyget f) s = .next (b.done fs write))

/-- The element instructions complete when some lane passes (R187 to R189, R200, R201): LOC gives locations, TLD the elements as they
stand or, for a phantom index, the pad, TST writes the elements of the lanes whose index is no phantom, and PLQ describes the plan from one
record to another. TLD and TST take effect at once here; a late turn leaves them pending as a load or a store (DESIGN CHOICE, log entry 9). What
the round's TX path comes after has then taken effect, and before a TLD the round's older reads of its bytes (R284, R301). -/
def Obligations.LayoutElements : Prop :=
  ∀ (s : State) (r : Round) (f : PForm) (pas : List (Nat × List Nat)),
    let m := r.passing f.g
    let ws := ((s.teamOf r).layout f.ls.toNat).words
    let wd := ((s.teamOf r).layout f.ld.toNat).words
    m ≠ 0 →
    (let fs := [(f.b, f.lrb)]
      let b := s.begun r f.g fs
      let x := arg (sources s r fs) 0
      let slots := liveSlots ws (laneValues m x)
      let loc := writeOperand m f.a (tab (fun l => BitVec.ofNat 64 (locationOf ws (laneOf x l).toNat)))
      let got := fun (bytes : Nat → Nat → List Byte) => writeOperand m f.a (tab (fun l =>
        match slots.find? (fun p => p.1 == l) with
        | some p => BitVec.ofNat 64 (elementOf ws p.2 (bytes l p.2))
        | none => BitVec.ofNat 64 (recPad ws % 2 ^ recEs ws)))
      let at_ := fun (slot : Nat) => (List.range (elementBytes ws)).map (fun i => (slotAddress ws slot).toNat + i)
      let ready := fun (spad : Bool) (bytes : List Nat) =>
        (b.beforeElements spad bytes).readyReads s.cur 1 (b.beforeElements spad bytes).nextId spad bytes
      let e1 := ready true (slots.flatMap (fun p => at_ p.2))
      let e2 := ready false (slots.flatMap (fun p => pasOf pas p.1))
      let near := got (fun _ slot => (at_ slot).map (Memory.read (e1.teamOf r).spad))
      let far := got (fun l _ => (pasOf pas l).map (Memory.read e2.mem))
      Starts s r fs (regNames f.a 1) →
        (layoutReason { kinds := [], storage := false, alt := false } r.width ws = none → (∀ p ∈ laneValues m x, p.2.toNat < 2 ^ recN ws) →
          Fits b b fs loc → exec (.loc f) s = .next (b.done fs loc))
        ∧ (s.late = false → ElementsOk s r ws (laneValues m x) → recKind ws = 1 → Fits b e1 fs near → exec (.tld f) s = .next (e1.done fs near))
        ∧ (s.late = false → ElementsOk s r ws (laneValues m x) → recKind ws ≠ 1 →
          translateLanes (s.xlat r false) (elementBytes ws) (slots.map (fun p => (p.1, slotAddress ws p.2))) = .ok pas → CleanLanes s pas →
          Fits b e2 fs far → exec (.tld f) s = .next (e2.done fs far)))
    ∧ (let fs := [(f.a, f.lra), (f.b, f.lrb)]
      let b := s.begun r f.g fs
      let xs := sources s r fs
      let slots := liveSlots wd (laneValues m (arg xs 1))
      let at_ := fun (slot : Nat) => spadRange (slotAddress wd slot) (elementBytes wd)
      let near := slots.foldl (fun (e : State) p => e.modTeam r (fun t => t.writeSpad ((at_ p.2).zip
          (elementInto wd p.2 (laneOf (arg xs 0) p.1).toNat ((at_ p.2).map (Memory.read t.spad))))))
        (b.beforeElements true (slots.flatMap (fun p => at_ p.2)))
      let far := slots.foldl (fun (e : State) p => e.writeBytes ((pasOf pas p.1).zip
          (elementInto wd p.2 (laneOf (arg xs 0) p.1).toNat ((pasOf pas p.1).map (Memory.read e.mem)))))
        (b.beforeElements false (slots.flatMap (fun p => pasOf pas p.1)))
      Starts s r fs [] → s.late = false → ((s.teamOf r).layout f.ld.toNat).busy = false → ElementsOk s r wd (laneValues m (arg xs 1)) →
          (recKind wd = 1 → Fits b near fs (fun q => q) → exec (.tst f) s = .next (near.done fs (fun q => q)))
          ∧ (recKind wd ≠ 1 →
            translateLanes (s.xlat r true) (elementBytes wd) (slots.map (fun p => (p.1, slotAddress wd p.2))) = .ok pas →
            Fits b far fs (fun q => q) → exec (.tst f) s = .next (far.done fs (fun q => q))))
    ∧ (let b := s.begun r f.g []
      let write := writeOperand m f.a (tab (fun _ => plqValue wd ws))
      Starts s r [] (regNames f.a 1) →
        layoutReason { kinds := [0, 1, 2], storage := true, alt := recKind wd != 2 } r.width wd = none → sourceReason wd ws = none →
        Fits b b [] write → exec (.plq f) s = .next (b.done [] write))

/-- PLACE (R193, R194, R198): with no passing lane it does nothing; from invertible records, a plan with no pass ends at once, and a plan in
a buffer becomes a member of the open batch; a plan over registers makes its first pass, and stands at each pass boundary until its last
pass, after which it goes on; a .STEP on a record whose plan stands still lists one more pass of it; singular records of the .NF form only
clear the predicate. That .NF sets the predicate on a .STEP that continues a plan is the model's choice (DESIGN CHOICE, log entry 75). -/
def Obligations.PlacementCompletes : Prop :=
  ∀ (s : State) (r : Round) (f : PForm),
    let m := r.passing f.g
    let kd := f.ld.toNat
    let kind := if f.cmp.toNat % 4 = 0 then 2 else if f.cmp.toNat % 4 = 1 then 1 else 0
    let x := (s.teamOf r).layout kd
    let w := x.words
    let src := ((s.teamOf r).layout f.ls.toNat).words
    let b := s.begun r f.g []
    let good := fun (q : Round) => if f.cmp.getLsbD 3 then q.setPred (f.a.toNat % 8) m (BitVec.allOnes 64) else q
    let x1 := startPlan w src (planOf w src) (kind != 2)
    let e1 := b.modTeam r (fun t => t.setLayout kd x1)
    let onePass := fun (b : State) (x : LayoutReg) (pl : Plan) (ps : Pass) =>
      let r1 := passRegisters ps x.words r
      let x2 := finishPass x pl ps false
      let e := (b.setRound r1).modTeam r1 (fun t => t.setLayout kd x2)
      b.rowsFit s.cur r1 = true →
        (x2.plan = none → Fits e e [] good → exec (.place f) s = .next (e.done [] good))
          ∧ (x2.plan ≠ none → exec (.place f) s = .next (e.setRound { r1 with status := .waiting .pass }))
    Starts s r [] [] →
      (m = 0 → Fits b b [] (fun q => q) → exec (.place f) s = .next (b.done [] (fun q => q)))
      ∧ (m ≠ 0 → r.status = .waiting .pass → ∀ pl ps, x.plan = some pl → pl.passes[progDone w]? = some ps → onePass b x pl ps)
      ∧ (m ≠ 0 → r.status ≠ .waiting .pass → x.busy = true → f.cmp.getLsbD 2 = true → progRunning w = false →
          let e := ({ b with nextId := s.nextId + 1 } : State).modTeam r (fun t =>
            t.setLayout kd { x with words := setWord w 61 (progressWord (progCount w) (progDone w) true true false 0) })
          let write := fun (q : Round) => good (q.enlist s.nextId (.place kd true))
          Fits b e [] write → exec (.place f) s = .next (e.done [] write))
      ∧ (m ≠ 0 → r.status ≠ .waiting .pass → x.busy = false →
        layoutReason { kinds := [kind], storage := true, alt := kind != 2 } r.width w = none → sourceReason w src = none →
        (kind = 1 → AreaOk s r (recBase w) (recSpan w) ∧ AreaOk s r (recAlt w) (recSpan w)) →
          ((gfRank (recN w) (recMatrix w) < recN w ∨ gfRank (recN w) (recMatrix src) < recN w) → f.cmp.getLsbD 3 = true →
              Fits b b [] (fun q => q.setPred (f.a.toNat % 8) m 0) →
              exec (.place f) s = .next (b.done [] (fun q => q.setPred (f.a.toNat % 8) m 0)))
          ∧ (recN w ≤ gfRank (recN w) (recMatrix w) → recN w ≤ gfRank (recN w) (recMatrix src) →
            (planOf w src = [] → Fits b e1 [] good → exec (.place f) s = .next (e1.done [] good))
            ∧ (planOf w src ≠ [] → kind ≠ 2 →
                let e : State := { e1 with nextId := s.nextId + 1 }
                let write := fun (q : Round) => good (q.enlist s.nextId (.place kd (f.cmp.getLsbD 2)))
                Fits b e [] write → exec (.place f) s = .next (e.done [] write))
            ∧ (∀ pl ps, x1.plan = some pl → pl.passes[progDone x1.words]? = some ps → kind = 2 →
                (∀ j < 2 ^ recRho w, recVbase w + j ∉ b.pendingNames s.cur r) →
                b.rowsFit s.cur (passRegisters (pl.passes.headD { isX := true, rows := [], off := 0 }) w r) = true → onePass e1 x1 pl ps)))

/-- A pass that runs, once its remaining parcels all move, completes as one event (R195, R196): the record holds the placement reached, and
the member finishes after its step or after the plan's last pass. -/
def Obligations.PassEvent : Prop :=
  ∀ (s : State) (n id k : Nat) (step : Bool) (r r1 : Round) (m m1 : Member) (pl : Plan) (ps : Pass) (s2 : State),
    let x := (s.teamOf r).layout k
    let all := List.range (passParcels x.words)
    let at_ := parcelOffsets x.words all
    let s1 := (s.readyMember n m (recKind x.words) (at_.flatMap (passReads ps x.words))).readyWrite n m (recKind x.words)
      (at_.map (fun i => recAlt x.words + BitVec.ofNat 64 i))
    let x1 := finishPass x pl ps (!step && mayBegin s1 r1)
    s.rounds[n]? = some r → r.member? id = some m → m.service = none → m.work = .place k step → m.moved = [] →
      x.plan = some pl → pl.passes[progDone x.words]? = some ps → progRunning x.words = true →
      s1.rounds[n]? = some r1 → r1.member? id = some m1 → m1.moved = [] →
      movePass s1 (s1.agentOf n) m1 ps x.words all = .done s2 →
        exec (.passComplete n id none) s =
          .next ((s2.setLayoutOf r1 k x1).setRoundAt n
            (if step || x1.plan.isNone then (r1.finishMember id none).prune else r1.setMember { m1 with moved := [], read := [] }))

/-- The matrix engine's instructions complete when some lane passes (R207, R211, R214 to R218, R229, R246): MMAH writes its slot, MMAB its
partial slot, SPUSH appends 8 bytes a lane to the FIFO, SCACC adds the scaled partial values and consumes 128 bytes, SCHK passes with
nothing outstanding, and PJADJ reads as plain LDS instructions do and writes the adjoint. That a sum of SCACC which underflows, negative or
not, leaves +0 is read from R30 (DEDUCED, log entry 74), and PJADJ's one instant is the model's choice (DESIGN CHOICE, log entry 9). -/
def Obligations.MatrixCompletes : Prop :=
  ∀ (s : State) (r : Round) (f : XForm) (h : RForm) (slot : Nat) (p : PartialSlot),
    let m := r.passing f.g
    let fs : List Field := [(f.b, false)]
    let b := s.begun r f.g fs
    let q0 := r.noted f.g fs
    let a := laneOf (arg (sources s r fs) 0) 0
    let t := s.teamOf r
    let fa := f.fa.toNat
    let fb := f.fb.toNat
    let ka := f.imm.toNat % 8
    let kb := f.imm.toNat / 8 % 8
    (let count := fragRegs 16 r.width
      let e1 := b.readyBlock a.toNat 4096
      let t1 := e1.teamOf r
      let e := e1.setTile r slot ((t1.tile (slotKey t1 r slot)).write (mmahVals f r.width
        (q0.fragment f.ru f.a.toNat (8 + fa) 0 count).1 (Memory.readList t1.spad a.toNat 4096) (t1.tile (slotKey t1 r slot))))
      let write := fun (q : Round) => (q.fragment f.ru f.a.toNat (8 + fa) 0 count).2
      Starts s r fs (fragNames f.a.toNat count) → m ≠ 0 → SlotsOk s r f.h.toNat 1 [slot] → TileAt s r a 4096 → Fits b e fs write →
        exec (.mmah f) s = .next (e.done fs write))
    ∧ (let count := fragRegs (fragBits fa ka) r.width
      let n := 256 * mmabWidth fb kb
      let e := b.readyBlock a.toNat n
      let vals := mmabVals f r.width (q0.fragment f.ru f.a.toNat fa ka count).1 (Memory.readList (e.teamOf r).spad a.toNat n) p
      let write := fun (q : Round) => ({ (q.fragment f.ru f.a.toNat fa ka count).2 with
        parts := (q.fragment f.ru f.a.toNat fa ka count).2.parts.set f.h.toNat
          { pending := true, fa := fa, fb := fb, ka := ka, kb := kb, vals := vals } } : Round)
      Starts s r fs (fragNames f.a.toNat count) → m ≠ 0 → PartialAt s r f.h.toNat p → TileAt s r a n →
        (p.pending = true → f.z = false ∧ p.sameFormat fa fb ka kb) → Fits b e fs write →
          exec (.mmab f) s = .next (e.done fs write))
    ∧ (let b := s.begun r f.g []
      let e := b.setTile r slot ((t.tile (slotKey t r slot)).write (scaccVals fa fb r.fifo p (t.tile (slotKey t r slot))))
      let write := fun (q : Round) => ({ q with
        fifo := q.fifo.drop 128,
        parts := q.parts.set (f.imm.toNat / 64 % 2) { pending := false, fa := 0, fb := 0, ka := 0, kb := 0, vals := [] } } : Round)
      Starts s r [] [] → m ≠ 0 → SlotsOk s r f.h.toNat 1 [slot] → PartialAt s r (f.imm.toNat / 64 % 2) p → p.pending = true →
        128 ≤ r.fifo.length → p.sameFormat fa fb ka kb → Fits b e [] write → exec (.scacc f) s = .next (e.done [] write))
    ∧ (let b := s.begun r h.g [rA h]
      let write := fun (q : Round) => ({ q with
        fifo := q.fifo ++ (List.range r.width).flatMap (fun l => toBytes 8 (laneOf (arg (sources s r [rA h]) 0) l).toNat) } : Round)
      Starts s r [rA h] [] → r.passing h.g ≠ 0 → r.fifo.length + 8 * r.width ≤ 2048 → Fits b b [rA h] write →
        exec (.spush h) s = .next (b.done [rA h] write))
    ∧ (let b := s.begun r h.g []
      Starts s r [] [] → r.fifo = [] → r.pendingMask = 0 → Fits b b [] (fun q => q) → exec (.schk h) s = .next (b.done [] (fun q => q)))
    ∧ (∀ rec_ y e1 q,
      let fs : List Field := [(h.a, false), (h.b, false), (h.c, false), (h.d, false)]
      let b := s.begun r h.g fs
      let x (i : Nat) := laneOf ((sources s r fs).getD i []) 0
      let l := rec_.l
      let out := (adjoint rec_ (words32 l y) (words32 l (y.drop (4 * l)))).flatMap (toBytes 4)
      let e := e1.storeSpad q (out.zipIdx.map (fun p => ((x 3).toNat + p.2, p.1)))
      Starts s r fs [] → r.passing h.g ≠ 0 → AdjointRead b (r.noted h.g fs) (x 0) (x 1) (x 2) (x 3) rec_ y e1 q → Fits b e fs (fun q => q) →
        exec (.pjadj h) s = .next (e.done fs (fun q => q)))

/-- The accumulator instructions complete (R208, R220 to R222): AZERO clears its slot, ALD loads 4,096 elements, ACHK verifies and
classifies, AREL empties the latch, and ASET sets the base from the lowest passing lane. That AZERO keeps the stuck bits of its slot's
storage is the model's choice (DEDUCED, log entry 39), and so is how a fault's class is found (DEDUCED, log entry 41). -/
def Obligations.AccumulatorCompletes : Prop :=
  ∀ (s : State) (r : Round) (f : XForm) (h : RForm) (k : IForm) (slot : Nat),
    let t := s.teamOf r
    let tile := t.tile (slotKey t r slot)
    (SlotsOk s r f.h.toNat 1 [slot] → r.passing f.g ≠ 0 →
      (let e := (s.begun r f.g []).setTile r slot { Tile.zero with stuck := tile.stuck };
        Starts s r [] [] → Fits (s.begun r f.g []) e [] (fun q => q) → exec (.azero f) s = .next (e.done [] (fun q => q)))
      ∧ (let fs : List Field := [(f.b, false)];
        let a := laneOf (arg (sources s r fs) 0) 0;
        let e1 := (s.begun r f.g fs).readyBlock a.toNat 16384;
        let t1 := e1.teamOf r;
        let e := e1.setTile r slot ((t1.tile (slotKey t1 r slot)).write
          (tileVals (fun i n => bytesAt (Memory.readList t1.spad a.toNat 16384) (4 * (64 * i + n)) 4)));
        Starts s r fs [] → TileAt s r a 16384 → Fits (s.begun r f.g fs) e fs (fun q => q) →
          exec (.ald f) s = .next (e.done fs (fun q => q)))
      ∧ (let e := (s.begun r f.g []).classify r slot (s.verdict r slot);
        Starts s r [] [] → (∀ rows cols, s.verdict r slot ≠ .bad rows cols) → Fits (s.begun r f.g []) e [] (fun q => q) →
          exec (.achk f) s = .next (e.done [] (fun q => q))))
    ∧ (Starts s r [] [] → r.passing h.g ≠ 0 → Fits (s.begun r h.g []) (s.begun r h.g []) [] (fun q => { q with latch := none }) →
        exec (.arel h) s = .next ((s.begun r h.g []).done [] (fun q => { q with latch := none })))
    ∧ (∀ l, lowestLane (r.passing k.g) = some l →
      let b := s.begun r k.g [iA k]
      let write := fun (q : Round) => ({ q with abase := laneOf (arg (sources s r [iA k]) 0) l + k.imm.signExtend 64 } : Round)
      Starts s r [iA k] [] → Fits b b [iA k] write → exec (.aset k) s = .next (b.done [iA k] write))

/-- The checksums of a slot (R222, R267): a slot written whole verifies clean; with an armed flip of one bit in its first read, the second
read is good, and the elements are those written. -/
def Obligations.ChecksumProcedure : Prop :=
  ∀ (t : Tile) (vals : List (BitVec 32)) (x : Flip), t.stuck = [] → vals.length = 4096 → x.elem < 4096 → x.bit < 32 →
    verify (t.write vals) none = .clean vals ∧ verify (t.write vals) (some x) = .reread vals

/-- The drain (R224 to R229): DRN reads its descriptor as a plain LDS does, reads and verifies its slots, clears them unless told to keep
them, and waits, its residual read after the round's older reads of it; DRAIN_COMPLETE makes the writes visible, each of one 8-byte word; the
round goes on once none remains, and its other paths then find what its MX path finds. -/
def Obligations.DrainCompletes : Prop :=
  ∀ (s : State) (r : Round) (f : XForm),
    let fs : List Field := [(f.b, false)]
    let b := s.begun r f.g fs
    let shown := b.shows s.cur [3] otherPaths
    (∀ desc slots s1 r1 s2 tiles q,
      let a := laneOf (arg (sources s r fs) 0) 0
      let d := readDrain desc
      let s3 := (if f.imm.getLsbD 0 then s2 else slots.foldl (fun s x => s.clearTile r1 x) s2).readyResidual r1 d
      Starts s r fs [] → r.status ≠ .waiting .drain → r.passing f.g ≠ 0 → TileAt b (r.noted f.g fs) a 64 →
        SpadRead b (spadRange a 64) s1 r1 desc → DrainOk s1 r1 f.h.toNat d slots →
        drainReads s1 r1 slots = (s2, none, tiles) → s3.issuing = some q →
          exec (.drn f) s = .next (s3.setRound { q with drain := drainWrites s3 r1 d tiles, status := .waiting .drain }))
    ∧ (Starts s r fs [] → r.status = .waiting .drain → r.drain = [] → Fits b shown fs (fun q => q) →
        exec (.drn f) s = .next (shown.done fs (fun q => q)))
    ∧ (∀ n x q, s.rounds[n]? = some x →
        let t := x.drain.foldl (fun s w => s.drainWrite n w) s
        t.rounds[n]? = some q → exec (.drainComplete n none) s = .next (t.setRoundAt n { q with drain := [] }))
    ∧ (∀ d tiles, ∀ w ∈ drainWrites s r d tiles, ∀ p ∈ w.2, ∀ q ∈ w.2, p.1 / 8 = q.1 / 8)

/-- The special-function queue (R258, R259): SFQ takes a free token, its register holds rows, and its passing lanes' values are kept; the
result lands in those lanes and frees the token; a busy token traps whatever the guard, and before anything that is pending; SFWAIT completes
once its tokens are free and every path is quiet, and each path then finds what the others find; SFPOLL tells. -/
def Obligations.SpecialFunctionsComplete : Prop :=
  ∀ (s : State) (r : Round) (f : IForm),
    (let fs := [iA f]
      let b := s.begun r f.g fs
      let m := r.passing f.g
      let write := fun (q : Round) =>
        let q1 := writeOperand m f.d (q.readV f.d.toNat) q
        ({ q1 with tokens := q1.tokens ++ [{ token := f.imm.toNat % 16, fn := f.imm.toNat / 16 % 16, dst := f.d.toNat, mask := m, vals := arg (sources s r fs) 0 }] } : Round)
      Starts s r fs (regNames f.d 1) → r.tokenBusy (f.imm.toNat % 16) = false → m ≠ 0 → b.sfqUsed r + r.width / 16 ≤ 32 →
        Fits b b fs write → exec (.sfq f) s = .next (b.done fs write))
    ∧ (s.issuing = some r → r.tokenBusy (f.imm.toNat % 16) = true →
        exec (.sfq f) s = .next (parkTrap s r
          { cause := 0x10, index := r.ix, h := r.h, info0 := BitVec.ofNat 64 (f.imm.toNat % 16), info1 := 0, info2 := 0, mask := r.passing f.g }
          true r.ix))
    ∧ (∀ q,
      let e := allPaths.foldl (fun s p => s.pushPath s.cur p) (s.begun r f.g [])
      Starts s r [] [] → r.tokensFree f.imm.toNat = true → e.issuing = some q →
        (∀ p ∈ allPaths, e.pathQuiet s.cur q p = true) → Fits e (e.shows s.cur allPaths otherPaths) [] (fun q => q) →
          exec (.sfwait f) s = .next ((e.shows s.cur allPaths otherPaths).done [] (fun q => q)))
    ∧ RegisterCompletes (.sfpoll f) f.g [] [] (fun _ m _ q =>
        q.setPred (f.d.toNat % 8) m (if q.tokensFree f.imm.toNat then BitVec.allOnes 64 else 0))
    ∧ (∀ n x t, s.rounds[n]? = some x → x.tokens.find? (fun y => y.token == t.token) = some t →
        exec (.sfqResultLand n t.token) s = .next (s.setRoundAt n { x with
          v := SMap.set x.v t.dst (mergeLanes t.mask (sfqResult t) (x.readV t.dst)),
          tokens := x.tokens.filter (fun y => y.token != t.token) }))

/-- The branches, calls and joins complete (R90 to R94): each lands on a clause header; the join stack keeps the lanes that go another
way; RET lets the passing lanes leave the topmost call; MJOIN pushes a join entry and JOIN pops the top one. -/
def Obligations.FlowCompletes : Prop :=
  ∀ (s : State) (r : Round), s.issuing = some r →
    (∀ f : JForm,
      BranchesTo (.bra f) s r (r.guarded f.g) (jTarget r f)
      ∧ ((r.walker (f.aux.toNat / 2 ^ 7)).bound = true → BranchesTo (.brw f) s r
          (if (r.walker (f.aux.toNat / 2 ^ 7)).wrap.getLsbD (f.aux.toNat / 2 ^ 5 % 4) then r.guarded f.g else 0) (jTarget r f))
      ∧ CallsTo (.call f) s s r (r.guarded f.g) (jTarget r f)
      ∧ (r.guarded f.g ≠ 0 → HeaderAt s r (jTarget r f) → r.stack.length < 32 →
          let write := fun (q : Round) => ({ q with stack := { kind := .join, addr := jTarget r f, mask := q.cur } :: q.stack } : Round)
          Fits s s [] write → exec (.mjoin f) s = .next (s.done [] write)))
    ∧ (∀ f : RForm,
      (Starts s r [(f.a, false)] [] → f.g.uni = false →
        CallsTo (.callx f) s (s.begun r f.g [(f.a, false)]) (r.noted f.g [(f.a, false)]) (r.guarded f.g)
          (laneOf (arg (sources s r [(f.a, false)]) 0) 0))
      ∧ (r.guarded f.g ≠ 0 → r.stack.any (fun e => e.kind == .call) = true →
          exec (.ret f) s = .next (s.stand (afterLanes s.now
            { r with cur := r.cur &&& ~~~(r.guarded f.g), stack := leaveCall (r.guarded f.g) r.stack })))
      ∧ (∀ e es, r.guarded f.g ≠ 0 → hasJoin r.stack = true → r.stack = e :: es →
          (e.mask &&& r.live ≠ 0 →
            exec (.join f) s = .next (s.stand (endClause s.now e.addr { r with stack := es, cur := e.mask &&& r.live })))
          ∧ (e.mask &&& r.live = 0 → exec (.join f) s = .next (s.stand (afterLanes s.now { r with stack := es, cur := 0 }))))
      ∧ (∀ g0 others,
          let fs := [rA f]
          let taken := r.passing f.g
          let l := laneValues taken (arg (sources s r fs) 0)
          let rest := r.cur &&& ~~~taken
          let q := settled r f.g fs
          let below := if rest = 0 then q.stack else { kind := .path, addr := q.fallThrough, mask := rest } :: q.stack
          Starts s r fs [] → taken ≠ 0 → (∀ p ∈ l, HeaderAt s r p.2) → targetGroups l = g0 :: others →
            r.stack.length + (if rest = 0 then 0 else 1) + others.length ≤ 32 →
              exec (.brx f) s = .next (s.stand (endClause s.now g0.1
                { q with stack := others.map (fun g => { kind := .path, addr := g.1, mask := g.2 }) ++ below, cur := g0.2 }))))

/-- EXIT (R89, R95, R218, R372): the passing lanes leave the live mask and every stack entry; the round goes on with the lanes that remain
or the next path. Where none is left live, with a scale outstanding it traps with SCALE_DESYNC; else its round's lines leave, it waits until
its packets are answered, and then it ends with no failure kept, and its barriers are tested; with a failure kept it traps, in its stead, with
that failure, which is then no longer kept. The current mask lies within the live mask in every state that a run reaches (RoundsOk, which
every step keeps). That the wait stands at this EXIT is read from the spec's worked program (DEDUCED, log entry 67). -/
def Obligations.ExitCompletes : Prop :=
  ∀ (s : State) (r : Round) (f : RForm), s.issuing = some r → r.guarded f.g ≠ 0 →
    let taken := r.guarded f.g
    let without (r : Round) : Round := { r with
      live := r.live &&& ~~~taken, cur := r.cur &&& ~~~taken, stack := r.stack.map (fun e => { e with mask := e.mask &&& ~~~taken }) }
    let q := afterLanes s.now (without r)
    (r.live &&& ~~~taken ≠ 0 → exec (.exit f) s = .next (s.stand q))
      ∧ (r.live &&& ~~~taken = 0 → r.desync = true →
          ∃ t p, exec (.exit f) s = .next t ∧ t.issuing = some { r with replies := [], remote := [], wave := 0, status := .parked p }
            ∧ p.trap.cause = 0x40 ∧ p.trap.info0 = BitVec.ofNat 64 r.fifo.length ∧ p.trap.mask = taken)
      ∧ (∀ r1,
        let s1 := s.drainLines (fun x => x.round == s.cur)
        let q1 := afterLanes s1.now (without r1)
        r.live &&& ~~~taken = 0 → r.desync = false → s1.issuing = some r1 →
        (r.cur &&& ~~~r.live = 0 → r1.sysCtr = 0 → r1.kept = none →
          exec (.exit f) s = .next ((s1.stand q1).lanesGone q1) ∧ q1.status = .ending ∧ q1.live = 0)
        ∧ (r1.sysCtr ≠ 0 → exec (.exit f) s = .next (s1.setRound { r1 with status := .waiting .engine }))
        ∧ (∀ x, r1.sysCtr = 0 → r1.kept = some x →
          ∃ t p, exec (.exit f) s = .next t
            ∧ t.issuing = some { r1 with kept := none, replies := [], remote := [], wave := 0, status := .parked p }
            ∧ p.trap.cause = (if x.timeout then 0x82 else 0x81) ∧ p.trap.info0 = x.rankWord ∧ p.trap.info1 = x.addr
            ∧ p.trap.info2 = BitVec.ofNat 64 x.cause ∧ p.trap.mask = taken))

/-- The small instructions complete (R46, R82, R86, R96, R97, R99, R101, R103, R104, R326, R339): NOP does nothing; YIELD and SLEEP 0 have
the round give way, as its quadrant's last issuer, once their clause has ended; SLEEP of n cycles begins at the clause's end, and the longest of
a clause's sleeps counts; RPF and RDROP
change the operand window, RPF within the quadrant's operand buffer; WBIND binds, reading its descriptor as a plain LDS does, or unbinds; WSTAT, RDSR and CAPRD read; RDSR of RSTAT
clears what it returned. Two clauses are the model's choice: that a window's names leave the full buffer in the order in which they
entered (DEDUCED, log entry 70), and that only the operand `zero` unbinds, so that an s register holding 0 binds at address 0 (DEDUCED, log
entry 35). -/
def Obligations.SmallCompletes : Prop :=
  ∀ (s : State) (r : Round) (f : IForm) (h : RForm),
    let b := s.begun r f.g []
    let m := r.passing f.g
    let way := fun (q : Round) => ({ q with yields := true } : Round)
    (Starts s r [] [] →
      (Fits (s.begun r h.g []) (s.begun r h.g []) [] (fun q => q) → exec (.nop h) s = .next ((s.begun r h.g []).done [] (fun q => q)))
      ∧ (r.passing h.g ≠ 0 → Fits (s.begun r h.g []) (s.begun r h.g []) [] way → exec (.yield h) s = .next ((s.begun r h.g []).done [] way))
      ∧ (m ≠ 0 → f.imm = 0 → Fits b b [] way → exec (.sleep f) s = .next (b.done [] way))
      ∧ (∀ q c, q.yields = true → (q.clause = none → s.stand q = (s.lastIssuer q).setRound { q with yields := false, giveway := true })
          ∧ (q.clause = some c → s.stand q = s.setRound q))
      ∧ (m ≠ 0 → f.imm ≠ 0 → Fits b b [] (fun q => { q with sleep := max q.sleep f.imm.toNat }) →
          exec (.sleep f) s = .next (b.done [] (fun q => { q with sleep := max q.sleep f.imm.toNat })))
      ∧ (let new := (List.range (f.imm.toNat % 128)).map (fun i => f.a.toNat + i);
        let all := r.window.filter (fun x => !new.contains x.1) ++ new.zipIdx.map (fun x => (x.1, s.nextId + x.2));
        let e1 := ({ b with nextId := s.nextId + new.length } : State).setRound { r with window := all.drop (all.length - 64) };
        let e := e1.trimWindows r.core r.quadrant;
        Fits b e [] (fun q => q) → exec (.rpf f) s = .next (e.done [] (fun q => q)))
      ∧ (let write := fun (q : Round) => ({ q with
          window := q.window.filter (fun x => !(decide (f.a.toNat ≤ x.1) && decide (x.1 < f.a.toNat + f.imm.toNat % 128))) } : Round);
        Fits b b [] write → exec (.rdrop f) s = .next (b.done [] write)))
    ∧ (let b := s.begun r f.g [(f.a, false)]
      let a := laneOf (arg (sources s r [(f.a, false)]) 0) 0
      Starts s r [(f.a, false)] [] →
        (operand f.a = .zero → Fits b b [] (fun q => { q with walkers := q.walkers.set (f.imm.toNat % 8) Walker.unbound }) →
          exec (.wbind f) s = .next (b.done [] (fun q => { q with walkers := q.walkers.set (f.imm.toNat % 8) Walker.unbound })))
        ∧ (∀ w e q desc, operand f.a ≠ .zero → TileAt b (r.noted f.g [(f.a, false)]) a 64 → SpadRead b (spadRange a 64) e q desc →
          readWalker desc = some w → Fits b e [] (fun q => { q with walkers := q.walkers.set (f.imm.toNat % 8) w }) →
            exec (.wbind f) s = .next (e.done [] (fun q => { q with walkers := q.walkers.set (f.imm.toNat % 8) w }))))
    ∧ (Starts s r [] (regNames f.d 1) →
      (let write := writeOperand m f.d (tab (fun _ => wstatValue (r.walker (f.imm.toNat % 8))));
        Fits b b [] write → exec (.wstat f) s = .next (b.done [] write))
      ∧ (let n := f.imm.toNat % 2 ^ 12;
        let write := fun (q : Round) => writeOperand m f.d (tab (fun _ => readStatus s r n)) (if n = 0 then q.clearRstat else q);
        (isPrivileged n = true → r.priv = true) → Fits b b [] write → exec (.rdsr f) s = .next (b.done [] write)))
    ∧ (let b := s.begun r f.g [(f.a, false)]
      let w := (lowValue m (sources s r [(f.a, false)]) 0).toNat
      let write := writeOperand m f.d (tab (fun _ => if f.imm.getLsbD 0 then readyWord s w else capWord s r w))
      Starts s r [(f.a, false)] (regNames f.d 1) → Fits b b [] write → exec (.caprd f) s = .next (b.done [] write))

/-- TRAP and BKPT (R102, R106, R321, R322): with a passing lane the round parks with cause 0x08 or 0x09, the passing lanes and the
immediate, to resume at the following instruction, which is the fall-through when they are last in the clause; a user round's partition
receives one queue entry. With no passing lane they do nothing. -/
def Obligations.SoftTraps : Prop :=
  ∀ (s : State) (r : Round) (f : IForm), Starts s r [] [] →
    let b := s.begun r f.g []
    let q := r.noted f.g []
    let t (cause : Nat) : TrapRec :=
      { cause := cause, index := r.ix, h := r.h, info0 := 0, info1 := 0, info2 := f.imm.setWidth 64, mask := r.passing f.g }
    (r.passing f.g ≠ 0 →
      exec (.trap f) s = .next (parkTrap b q (t 0x08) true (r.ix + 1)) ∧ exec (.bkpt f) s = .next (parkTrap b q (t 0x09) true (r.ix + 1)))
    ∧ (∀ c now, r.clause = some c → (r.ix + 1 ≤ c.cnt → (returnTo now (r.ix + 1) r).clause = some { c with idx := r.ix + 1 })
        ∧ (c.cnt < r.ix + 1 → returnTo now (r.ix + 1) r = endClause now r.fallThrough r))
    ∧ (r.passing f.g = 0 → Fits b b [] (fun q => q) →
      exec (.trap f) s = .next (b.done [] (fun q => q)) ∧ exec (.bkpt f) s = .next (b.done [] (fun q => q)))

/-- Taking a trap (R106, R321, R322): the round parks with the cause, its header address and index, the information words and the mask; a
user round's partition receives one entry at the end of its queue; memory, the teams and the other rounds are as they were. That an image
round's trap enters no queue, since the hypervisor takes it, is the model's choice (DEDUCED from R304, log entry 26). -/
def Obligations.TrapTaken : Prop :=
  ∀ (s : State) (r : Round) (t : TrapRec) (canStep : Bool) (resume : Nat), s.issuing = some r →
    let u := parkTrap s r t canStep resume
    u.issuing = some { r with
        replies := [], remote := [], wave := 0
        status := .parked { service := false, trap := t, die := s.dieOf r, pages := [], asked := [], canStep := canStep, resume := resume } }
      ∧ u.mem = s.mem ∧ u.teams = s.teams ∧ u.cores = s.cores ∧ u.now = s.now ∧ (∀ n, n ≠ s.cur → u.rounds[n]? = s.rounds[n]?)
      ∧ (r.priv = true → u.parts = s.parts)
      ∧ (r.priv = false → s.parts.any (fun p => p.num == (s.teamOf r).part) = true →
          (u.part (s.teamOf r).part).queue = (s.part (s.teamOf r).part).queue ++
            [[queueEntry 0 t.cause t.index 1 r.handle (s.nodeHandle (s.teamOf r).node) (s.teamOf r).tix t.h t.info0 t.info1 t.mask t.info2
              (s.die (s.dieOf r)).clock]])

/-- The named barriers (R251 to R253): an arrival releases at team scope; the last arrival of a phase ends it, clears it and turns its
parity; an earlier one at BARA goes on, at BARW waits; a waiting round goes on once it is no longer held; BARQ reads. -/
def Obligations.BarriersComplete : Prop :=
  ∀ (s : State) (r q : Round) (f : SForm),
    let b := f.bar.toNat
    let c := barCount s r f
    let e := s.afterRelease r 1 false
    let y := ((e.teamOf q).bar b).arrival q.rix c
    s.issuing = some r →
      (MayArrive s r b c → s.countPending r f = false → e.issuing = some q →
        (let e1 := e.modTeam q (fun t => t.setBar b { y.cleared with parity := !y.parity });
          y.arrivals = c → Fits e e1 [] (fun q => q) →
            exec (.bara f) s = .next (e1.done [] (fun q => q)) ∧ exec (.barw f) s = .next (e1.done [] (fun q => q)))
        ∧ (let e1 := e.modTeam q (fun t => t.setBar b y);
          y.arrivals ≠ c → e1.unsat q.team y = false →
            (Fits e e1 [] (fun q => q) → exec (.bara f) s = .next (e1.done [] (fun q => q)))
            ∧ exec (.barw f) s = .next ((e.modTeam q (fun t => t.setBar b (holdAt y q.rix))).setRound
                { q with status := .waiting (.barrier b) })))
      ∧ (r.status = .waiting (.barrier b) → ((s.teamOf r).bar b).waiters.getLsbD r.rix = false → Fits s s [] (fun q => q) →
          exec (.barw f) s = .next (s.done [] (fun q => q)))
      ∧ (∀ k : IForm,
          let write := writeOperand (r.passing k.g) k.d (tab (fun _ => barqValue ((s.teamOf r).bar (k.imm.toNat % 16))))
          Starts s r [] (regNames k.d 1) → Fits (s.begun r k.g []) (s.begun r k.g []) [] write →
            exec (.barq k) s = .next ((s.begun r k.g []).done [] write))

/-- The cluster barrier (R272 to R274): an arrival, once the round's items and its team's window changes have landed, releases at cluster
scope; the last one of a phase exchanges the banks where asked, clears the phase and turns its parity; an earlier one waits. -/
def Obligations.ClusterBarrierCompletes : Prop :=
  ∀ (s : State) (r q : Round) (f : SForm),
    let g := (s.teamOf r).gang
    let x := s.gang g
    let c := barCount s r f
    let e := s.afterRelease r 3 false
    let z := e.gang (e.teamOf q).gang
    let y : Gang := { z with count := c, swap := f.bar.getLsbD 0, arrived := z.arrived ++ [e.cur] }
    s.issuing = some r →
      (MayArriveAtGang s r f → e.issuing = some q →
          (let e1 := (if y.swap then e.swapBanks (e.teamOf q).gang else e).setGang (e.teamOf q).gang { y.cleared with parity := !y.parity };
            y.arrived.length = c → Fits e e1 [] (fun q => q) → exec (.cbar f) s = .next (e1.done [] (fun q => q)))
          ∧ (y.arrived.length ≠ c → (e.setGang (e.teamOf q).gang y).gangUnsat (e.teamOf q).gang y = false →
              exec (.cbar f) s = .next ((e.setGang (e.teamOf q).gang { y with waiters := y.waiters ++ [e.cur] }).setRound
                { q with status := .waiting .cluster })))
      ∧ (r.status = .waiting .cluster → x.waiters.contains s.cur = false → Fits s s [] (fun q => q) →
          exec (.cbar f) s = .next (s.done [] (fun q => q)))

/-- The exchange (R269 to R271, R275 to R278): XWIN sends a window change, XST and XADD send an item for each passing lane; an item lands
in its peer's window after its round's earlier items to that peer, and after accesses behind a release to its bytes; a change takes effect once
the window's items have landed, and what its team had issued to the bytes that become shadow addresses (R270; DEDUCED, log entry 42). -/
def Obligations.ExchangeCompletes : Prop :=
  ∀ (s : State) (r : Round) (f : RForm) (h : AForm),
    (let fs : List Field := [(f.a, false), (f.b, false), (f.c, false)]
      let b := s.begun r f.g fs
      let base := (laneOf (arg (sources s r fs) 0) 0).toNat
      let n := (laneOf (arg (sources s r fs) 1) 0).toNat
      let w := (laneOf (arg (sources s r fs) 2) 0).toNat
      let t := s.teamOf r
      let e : State := { b with
        updates := s.updates ++ [{ id := s.nextId, team := r.team, window := w, base := base, size := n }], nextId := s.nextId + 1 }
      Starts s r fs [] → r.passing f.g ≠ 0 → (∀ u ∈ s.updates, u.team ≠ r.team) → w ≤ 3 →
        (n ≠ 0 → n % 4096 = 0 ∧ n ≤ 262144 ∧ base % 4096 = 0 ∧ base + 2 * n ≤ t.spadSize ∧ (t.win w).declared = false
          ∧ ∀ x ∈ t.windows, x.declared = true → x.base + 2 * x.size ≤ base ∨ base + 2 * n ≤ x.base) →
        Fits b e fs (fun q => q) → exec (.xwin f) s = .next (e.done fs (fun q => q)))
    ∧ (let fs : List Field := [rA f, rB f, (f.c, false), (f.d, false)]
      let b := s.begun r f.g fs
      let xs := sources s r fs
      let l : List Target := (lanesOf (r.passing f.g)).map (fun i =>
        { lane := i, peer := laneOf (arg xs 1) i, win := laneOf (arg xs 2) i, off := laneOf (arg xs 0) i })
      let e := b.sendItems r 0 l (laneOf (arg xs 3))
      Starts s r fs [] → TargetsOk s r 8 l → Fits b e fs (fun q => q) →
        exec (.xst f) s = .next (e.done fs (fun q => q)))
    ∧ (let fs : List Field := [(h.a, false), (h.a + 1, false), (h.b, false)]
      let b := s.begun r h.g fs
      let xs := sources s r fs
      let l : List Target := (lanesOf (r.passing h.g)).map (fun i =>
        { lane := i, peer := BitVec.ofNat 64 (bits (laneOf (arg xs 1) i) 2 0), win := BitVec.ofNat 64 (bits (laneOf (arg xs 1) i) 9 8)
          off := laneOf (arg xs 0) i })
      let e := b.sendItems r (xaddOp h) l (laneOf (arg xs 2))
      Starts s r fs [] → TargetsOk s r (if h.asz = 2 then 2 else 4) l → Fits b e fs (fun q => q) →
        exec (.xadd h) s = .next (e.done fs (fun q => q)))
    ∧ (∀ x, s.items.find? (fun i => i.id == x.id) = some x → (∀ i ∈ s.items, i.round = x.round → i.team = x.team → x.id ≤ i.id) →
        let at_ := itemPlace (s.teams.getD x.team Team.blank) x
        let s1 := s.performOn (fun _ q a => a.released && q.team == x.team) true ((List.range at_.2).map (fun i => at_.1 + i))
        exec (.exchangeItemLand x.id) s =
          .next (({ s1 with items := s1.items.filter (fun i => i.id != x.id) } : State).setTeam x.team
            (landItem (s1.teams.getD x.team Team.blank) x)))
    ∧ (∀ u, s.updates.find? (fun v => v.id == u.id) = some u → (∀ i ∈ s.items, i.team = u.team → i.window ≠ u.window) →
        (∀ v ∈ s.updates, v.team = u.team → u.id ≤ v.id) → s.writesIn u.team (u.base + u.size) (u.base + 2 * u.size) = false →
        let s1 := s.performAll (fun _ q a => a.spad && q.team == u.team && a.within (u.base + u.size) (u.base + 2 * u.size))
        let t := s1.teams.getD u.team Team.blank
        exec (.windowTableUpdate u.id) s =
          .next (({ s1 with updates := s1.updates.filter (fun v => v.id != u.id) } : State).setTeam u.team
            (if u.size = 0 then { t with windows := t.windows.set u.window Window.reset }
             else { t with
              windows := t.windows.set u.window { declared := true, base := u.base, size := u.size, bank := false },
              spad := Memory.writeList t.spad (u.base + u.size) (List.replicate u.size 0) })))

/-- Semaphores and the dispatch graph (R305 to R307, R314 to R319): SEMP adds to a counter after a release; SEMW takes from it when the round
is the first of its queue and the counter holds enough, and queues otherwise; GPOST reads a node record as plain loads do, and enters a node where the
record passes every check; GARM arms a
node or ends its standing, and then removes it where it is leaving and its manifest can be reached; GWAIT delivers the count of completions,
all ones for a handle that is not live; GRDY marks the round's node. -/
def Obligations.GraphCompletes : Prop :=
  ∀ (s : State) (r : Round) (f : RForm),
    let m := r.passing f.g
    (let fs := [rA f, rB f]
      let b := s.begun r f.g fs
      let a := lowValue m (sources s r fs) 0
      let n := lowValue m (sources s r fs) 1
      m ≠ 0 →
        (∀ die c, Starts s r fs [] → SemAt s r a n die c →
          (let e1 := b.afterRelease r 5 false;
            let d := e1.die die;
            let e := e1.setDie die { d with sems := SMap.set d.sems c (d.sem c + n.toNat) };
            (b.die die).sem c + n.toNat < 2 ^ 32 → Fits b e fs (fun q => q) → exec (.semp f) s = .next (e.done fs (fun q => q)))
          ∧ (let mine := fun (w : SemWait) => w.counter == c && w.round == s.cur;
            let d := b.die die;
            let d1 : Die := if d.semq.any mine then d else { d with semq := d.semq ++ [{ counter := c, round := s.cur }] };
            let e := b.setDie die { d1 with sems := SMap.set d1.sems c (d1.sem c - n.toNat), semq := d1.semq.filter (fun w => !mine w) };
            (n = 0 → Fits b b fs (fun q => q) → exec (.semw f) s = .next (b.done fs (fun q => q)))
            ∧ (n ≠ 0 → d1.firstWaiter c = some s.cur → n.toNat ≤ d1.sem c → Fits b e fs (fun q => q) →
              exec (.semw f) s = .next (e.done fs (fun q => q)))
            ∧ (n ≠ 0 → ¬(d1.firstWaiter c = some s.cur ∧ n.toNat ≤ d1.sem c) →
              exec (.semw f) s = .next ((b.setDie die d1).setRound { r.noted f.g fs with status := .waiting .semaphore }))))
        ∧ (∀ k x, Starts s r fs [] → s.liveNode (s.teamOf r).part a.toNat = some k → s.nodes[k]? = some x →
          (let e := (b.modNode k (fun y => { y with remaining := y.remaining - 1 })).refresh;
            n = 0 → Fits b e fs (fun q => q) → exec (.garm f) s = .next (e.done fs (fun q => q)))
          ∧ (let e1 := b.modNode k (fun y => { y with standing := false });
            let y : Node := { x with standing := false };
            let e := if y.leaving then e1.tryRemove k y else e1;
            n = 1 → Fits b e fs (fun q => q) → exec (.garm f) s = .next (e.done fs (fun q => q))))
        ∧ (Starts s r fs (regNames f.d 1) →
          (let write := writeOperand m f.d (tab (fun _ => BitVec.allOnes 64));
            s.liveNode (s.teamOf r).part a.toNat = none → Fits b b fs write → exec (.gwait f) s = .next (b.done fs write))
          ∧ (∀ k x, s.liveNode (s.teamOf r).part a.toNat = some k → s.nodes[k]? = some x →
            (let write := writeOperand m f.d (tab (fun _ => BitVec.ofNat 64 x.completions));
              n.toNat < x.completions → Fits b b fs write → exec (.gwait f) s = .next (b.done fs write))
            ∧ (x.completions ≤ n.toNat → (s.teamOf r).node ≠ some k →
              exec (.gwait f) s = .next (b.setRound { r.noted f.g fs with status := .waiting (.node a.toNat) })))))
    ∧ (let fs := [rA f]
      let b := s.begun r f.g fs
      let a := lowValue m (sources s r fs) 0
      ∀ rb kb owner e1 q,
        let rec_ := readNodeRecord rb
        let k := if rec_.kind = 0 then readKernel (s.partOf r) rec_.kernel kb else Kernel.none
        let e := e1.enterNode (s.partOf r) rec_ k owner
        let write := writeOperand m f.d (tab (fun _ => e.2))
        Starts s r fs (regNames f.d 1) → m ≠ 0 → Postable b (r.noted f.g fs) m a rb kb owner e1 q → Fits e1 e.1 fs write →
          exec (.gpost f) s = .next (e.1.done fs write))
    ∧ (∀ k, let e := (s.modNode k (fun x => { x with grdy := true })).refresh;
        Starts s r [] [] → m ≠ 0 → (s.teamOf r).node = some k → Fits s e [] (fun q => q) → exec (.grdy f) s = .next (e.done [] (fun q => q)))

/-- The manifest instructions (R313, R314, R317) act at the home slice after a release: MADMIT fills the lowest free slot with its two
words, marks it a member and counts it; MRETIRE frees a member, or marks it retiring while the owner's dispatch holds it; MREAD reads the
snapshot of the round's dispatch. -/
def Obligations.ManifestCompletes : Prop :=
  ∀ (s : State) (r : Round) (f : RForm) (pas : List Nat),
    let m := r.passing f.g
    let at_ := fun (i : Nat) => pas.getD i 0
    m ≠ 0 →
    (let fs := [rA f, rB f, rC f]
      let b := s.begun r f.g fs
      let xs := sources s r fs
      let e := b.atManifest r pas
      let read := fun (i : Nat) => Memory.read e.mem (at_ i)
      Starts s r fs (regNames f.d 1) → PagesAt s r true ((lowestLane m).getD 0) (lowValue m xs 0) manifestSize pas →
        (∀ k,
          let cells := (toBytes 8 (lowValue m xs 1).toNat ++ toBytes 8 (lowValue m xs 2).toNat).zipIdx.map (fun p =>
              (at_ (2048 + 16 * k + p.2), p.1))
            ++ [(at_ (64 + k / 4), withSlotState (read (64 + k / 4)) k 1)]
            ++ (toBytes 2 ((read 0).toNat + 256 * (read 1).toNat + 1)).zipIdx.map (fun p => (at_ p.2, p.1))
          let write := writeOperand m f.d (tab (fun _ => BitVec.ofNat 64 k))
          k < manifestSlots → slotState read k = 0 → (∀ j < k, slotState read j ≠ 0) → Fits b (e.writeBytes cells) fs write →
            exec (.madmit f) s = .next ((e.writeBytes cells).done fs write))
        ∧ (let write := writeOperand m f.d (tab (fun _ => BitVec.allOnes 64));
          (∀ k < manifestSlots, slotState read k ≠ 0) → Fits b e fs write → exec (.madmit f) s = .next (e.done fs write)))
    ∧ (let fs := [rA f, rB f]
      let b := s.begun r f.g fs
      let xs := sources s r fs
      let k := (lowValue m xs 1).toNat
      let e := b.atManifest r pas
      let read := fun (i : Nat) => Memory.read e.mem (at_ i)
      let new := if e.ownerHolds (e.teamOf r).part (ofBytes ((List.range 4).map (fun i => read (8 + i)))) k then 2 else 0
      let cells := (at_ (64 + k / 4), withSlotState (read (64 + k / 4)) k new)
        :: (toBytes 2 ((read 0).toNat + 256 * (read 1).toNat + 2 ^ 16 - 1)).zipIdx.map (fun p => (at_ p.2, p.1))
      Starts s r fs [] → PagesAt s r true ((lowestLane m).getD 0) (lowValue m xs 0) manifestSize pas → k < manifestSlots →
        (slotState read k = 1 → Fits b (e.writeBytes cells) fs (fun q => q) →
          exec (.mretire f) s = .next ((e.writeBytes cells).done fs (fun q => q)))
        ∧ (slotState read k ≠ 1 → Fits b e fs (fun q => q) → exec (.mretire f) s = .next (e.done fs (fun q => q))))
    ∧ (∀ node snap,
      let fs := [rA f]
      let b := s.begun r f.g fs
      let w := (lowValue m (sources s r fs) 0).toNat
      let e := b.afterRelease r 5 false
      let write := writeOperand m f.d (tab (fun _ => snapshotWord snap w))
      Starts s r fs (regNames f.d 1) → s.nodeOf r = some node → node.snapshot = some snap → w ≤ 65 → Fits b e fs write →
        exec (.mread f) s = .next (e.done fs write))

/-- The remote accesses complete (R368 to R371, R374, R391) where the rank words resolve, name no job under migration, and the addresses are
good; the round's acquires have then taken effect, and the instruction keeps the entries that its words named (R364). RLD and the atomics run in turns: once the core's lines and packets that write bytes of
theirs are acknowledged they send their requests, one for each lane, and wait; when every lane has its reply RLD delivers the bytes,
zero-extended, while RATOM and RCAS, whose first requests ask for the pages alone, send their steps and deliver the old values with the
second. RST writes its round's lines, of which full ones leave, or, with release semantics, sends its packets after a release at system
scope. -/
def Obligations.RemoteAccessCompletes : Prop :=
  (∀ (s : State) (r : Round) (f : MForm),
    let fs : List Field := [(f.a, f.lra), (f.a + 1, false)]
    let z := szBytes f.sz
    let n := szRegs f.sz
    let s0 := s.settleAcquires s.cur
    let b := s0.begun r f.g fs
    let xs := sources s0 r fs
    let l := remoteLanes b (r.noted f.g fs) (r.passing f.g) (arg xs 0) (arg xs 1) (f.ofs.signExtend 64)
    let r1 := (r.noted f.g fs).latched l
    let b1 := b.setRound r1
    let write := fun (p : Round) => (writeRun (r.passing f.g) f.d (loadedRegs n r.replyData) p).noRemote
    Starts s0 r fs (regNames f.d n) →
      (r.wave = 0 → RanksOk b r (if ordSem f.ord = 0 then 1 else min z 8) l →
        (l = [] → Fits b b fs write → exec (.rld f) s = .next (b.done fs write))
        ∧ (l ≠ [] → Quiet b1 r1 z l → exec (.rld f) s = .next ((b1.drainedFor r1 z l).asked l 1 false (fun x => .read x.addr z))))
      ∧ (r.wave ≠ 0 → Replied r l → Fits b b fs write → exec (.rld f) s = .next (b.done fs write)))
  ∧ (∀ f : AForm, RemoteAtomicCompletes (.ratom f) f.g [(f.a, f.lra), (f.a + 1, false), (f.b, f.lrb)] f.d (aszBytes f.asz)
      (2 ≤ ordSem f.ord) (fun xs x => .atomic x.addr (aszBytes f.asz) f.op.toNat (laneOf (arg xs 2) x.lane) 0))
  ∧ (∀ f : RForm, RemoteAtomicCompletes (.rcas f) f.g [(f.a, f.lra), (f.a + 1, false), (f.b, f.lrb), (f.d, false)] f.d 8 true
      (fun xs x => .atomic x.addr 8 compareOp (laneOf (arg xs 2) x.lane) (laneOf (arg xs 3) x.lane)))
  ∧ (∀ (s : State) (r : Round) (f : MForm),
    let z := szBytes f.sz
    let fs : List Field := (f.a, f.lra) :: (f.a + 1, false) :: runFields f.d (szRegs f.sz) f.lrd
    let s0 := s.settleAcquires s.cur
    let b := s0.begun r f.g fs
    let xs := sources s0 r fs
    let l := remoteLanes b (r.noted f.g fs) (r.passing f.g) (arg xs 0) (arg xs 1) (f.ofs.signExtend 64)
    let b1 := b.setRound ((r.noted f.g fs).latched l)
    let parts := l.flatMap (fun x => storeRanges x (storedBytes z (xs.drop 2) x.lane))
    Starts s0 r fs [] →
      (let e1 := parts.foldl (fun e p => e.writeLine e.cur r.core p) b1;
        let e := e1.drainLines (fun x => x.round == s0.cur && x.bytes.length == 256);
        ordSem f.ord ≠ 2 → RanksOk b r 1 l → Fits b1 e fs Round.noRemote → exec (.rst f) s = .next (e.done fs Round.noRemote))
      ∧ (let e1 := b1.afterRelease r 6 false;
        let e := (gatherRanges parts).foldl (fun e p => e.sendStore e.cur p.word p.entry p.cells p.base .sent) e1;
        ordSem f.ord = 2 → RanksOk b r (min z 8) l → b1.Releases r 6 false → Fits e1 e fs Round.noRemote →
          exec (.rst f) s = .next (e.done fs Round.noRemote)))

/-- The other fabric instructions complete (R367, R375 to R377) where they name no job under migration: RREL, once the round's acquires have
taken effect, drains the round's lines to each lane's rank and sends its flag, the last packet of the epoch; RFLUSH drains lines, sets the
ageing time where one is given, and completes once the round's system counter is zero with no failure kept, its checks made once, at issue;
RANKQ describes a rank. That RFLUSH waits for the whole counter even where it names one rank is the model's reading (DEDUCED, log entry 51). -/
def Obligations.FabricCompletes : Prop :=
  ∀ (s : State) (r : Round) (f : RForm),
    let m := r.passing f.g
    (let fs : List Field := [(f.a, f.lra), (f.a + 1, false), (f.d, false)]
      let s0 := s.settleAcquires s.cur
      let b := s0.begun r f.g fs
      let xs := sources s0 r fs
      let l := remoteLanes b (r.noted f.g fs) m (arg xs 0) (arg xs 1) 0
      let b1 := b.setRound ((r.noted f.g fs).latched l)
      let e := l.foldl (fun (e : State) x =>
        (e.drainLines (fun y => y.round == e.cur && y.rankWord == x.word)).sendPacket e.cur x.word x.entry
          (fun p => .flag x.addr (laneOf (arg xs 2) x.lane) p.epoch p.sent)
          (fun p => { p with epoch := (p.epoch + 1) % 2 ^ 16, sent := 0, unacked := p.unacked + 1 }) noRange x.lane true .sent) b1
      Starts s0 r fs [] → RanksOk b r 8 l →
        (∀ x ∈ l, (r.epochOf x.word).unacked + (l.filter (fun y => y.word == x.word)).length ≤ 256) → Fits b1 e fs Round.noRemote →
          exec (.rrel f) s = .next (e.done fs Round.noRemote))
    ∧ (∀ q,
      let fs : List Field := [(f.a, false), (f.b, false)]
      let b := s.begun r f.g fs
      let a := lowValue m (sources s r fs) 0
      let n := (lowValue m (sources s r fs) 1).toNat
      let all := a == BitVec.allOnes 64
      let q0 := r.noted f.g fs
      let q1 : Round := if r.remote = [] then { q0 with remote := [(0, a, 0)], ageing := if n = 0 then q0.ageing else n } else q0
      let e := (b.setRound q1).drainLines (fun x => x.round == s.cur && (all || x.rankWord == a))
      Starts s r fs [] → m ≠ 0 →
        (r.remote ≠ [] ∨ (n ≤ 64 ∧ (all = true ∨ (jobOfWord a ∉ (s.partOf r).frozen ∧ (s.partOf r).resolves a = true)))) →
        e.issuing = some q → q.sysCtr = 0 → q.kept = none → Fits e e fs Round.noRemote →
          exec (.rflush f) s = .next (e.done fs Round.noRemote))
    ∧ (let fs : List Field := [(f.a, f.lra)]
      let b := s.begun r f.g fs
      let x := arg (sources s r fs) 0
      let write := writeOperand m f.d (tab (fun l => rankqValue b (r.noted f.g fs) (laneOf x l)))
      Starts s r fs (regNames f.d 1) → (∀ l ∈ lanesOf m, jobOfWord (laneOf x l) ∉ (s.partOf r).frozen) → Fits b b fs write →
        exec (.rankq f) s = .next (b.done fs write))

/-- Collectives and Courier jobs (R346 to R356, R378 to R383): COLL and CRJOB read their records as plain loads do, and enter a collective or a
job under the next number, a job with its cursor written; CRJOB.RESUME reads the cursor first, and where it is complete the job is complete
and the cursor stays as it is; COLLW and CRWAIT complete once those named have finished without an unreported failure, and the round's other
paths then find what its FB or CR path finds; CRSTAT tells how a job stands; CRPLAN counts the segments of a plan. That a record is read once a
place is free, and that CRJOB asks for a cursor page that users may write as it issues, is the model's reading (DEDUCED, log entry 47). -/
def Obligations.JobsComplete : Prop :=
  ∀ (s : State) (r : Round) (f : RForm),
    let fs : List Field := [(f.a, false)]
    let m := r.passing f.g
    (let b := s.begun r f.g fs
      let a := lowValue m (sources s r fs) 0
      Starts s r fs (regNames f.d 1) → m ≠ 0 →
      (∀ d ranks own e1 q,
        let n := (q.clast + 1) % 2 ^ 16
        let c : Coll :=
          { id := e1.nextId, round := e1.cur, num := n, part := (e1.teamOf q).part, die := e1.dieOf q, rank := own, kind := f.cmp.toNat % 4,
            bfp4 := f.cmp.getLsbD 2, collid := d.collid, etype := d.etype, table := d.job, ranks := ranks,
            entries := ranks.map (fun x => (e1.partOf q).named (BitVec.ofNat 64 (2 ^ 16 * d.job + x))), owed := [], src := d.src,
            dst := d.dst, count := d.count, root := d.root, state := .waiting, desc := a, cause := 0, addr := 0, remote := 0, tcause := 0,
            read := [], out := none, reported := false }
        let e : State := { e1 with colls := e1.colls ++ [c], nextId := e1.nextId + 1 }
        let write := fun (p : Round) => writeOperand m f.d (tab (fun _ => BitVec.ofNat 64 n)) { p with clast := n }
        b.collReady (s.dieOf r) = true → b.unfinishedColls s.cur < 8 →
          CollAt b (r.noted f.g fs) m a (f.cmp.toNat % 4) (f.cmp.getLsbD 2) d ranks e1 q →
          (e1.partOf q).rankOf d.job e1.package.number (e1.dieOf q) = some own → Fits b e fs write →
            exec (.coll f) s = .next (e.done fs write))
      ∧ (∀ j plan pas e1 q,
        let n := (q.jlast + 1) % 2 ^ 16
        let fresh (id : Nat) : CourierJob :=
          { newJob j plan with id := id, round := some e1.cur, num := n, part := (e1.teamOf q).part, die := e1.dieOf q }
        let at_ := pas.flatMap (fun p => p.2)
        let cursorAt (e : State) (q : Round) (write : Bool) : Prop :=
          translateLanes (fun va => Machine.translate e q.core (e.partOf q) { write := write, fetch := false, user := true } va) 64
            [((lowestLane m).getD 0, j.cursor)] = .ok pas
        let write := fun (p : Round) => writeOperand m f.d (tab (fun _ => BitVec.ofNat 64 n)) { p with jlast := n }
        b.courierReady (s.dieOf r) = true → b.unfinishedJobs s.cur < 8 → JobAt b (r.noted f.g fs) m a j plan e1 q →
          j.job ∉ (e1.partOf q).frozen →
          (let new := fresh e1.nextId;
            let e : State := { e1.beginCursor new at_ none with jobs := e1.jobs ++ [new], nextId := e1.nextId + 1 };
            f.cmp.getLsbD 0 = false → cursorAt e1 q true → Fits b e fs write → exec (.crjob f) s = .next (e.done fs write))
          ∧ (∀ q2,
            let e2 := e1.loadNow q at_
            let c := readCursor (e2.bytesOf at_)
            let new : CourierJob := { (fresh 0).at_ c with id := e2.nextId }
            let e (places : List Nat) : State := { e2.beginCursor new places (some c) with jobs := e2.jobs ++ [new], nextId := e2.nextId + 1 }
            f.cmp.getLsbD 0 = true → cursorAt e1 q false → CleanLanes e1 [((lowestLane m).getD 0, at_)] → e2.issuing = some q2 →
            c.ok j plan = true →
              (c.state = 2 → Fits b (e []) fs write → exec (.crjob f) s = .next ((e []).done fs write))
              ∧ (c.state ≠ 2 → cursorAt e2 q2 true → Fits b (e at_) fs write → exec (.crjob f) s = .next ((e at_).done fs write))))
      ∧ (∀ j plan e q,
        let write := writeOperand m f.d (tab (fun _ => BitVec.ofNat 64 plan.length))
        JobAt b (r.noted f.g fs) m a j plan e q → Fits b e fs write → exec (.crplan f) s = .next (e.done fs write)))
    ∧ (let b := s.begun r f.g fs
      let v := (laneOf (arg (sources s r fs) 0) 0).toNat
      (Starts s r fs (regNames f.d 1) →
        (let write := writeOperand m f.d (tab (fun _ => crstatValue b s.cur r.jlast v));
          Fits b b fs write → exec (.crstat f) s = .next (b.done fs write)))
      ∧ (Starts s r fs [] →
        (let d := backFrom r.jlast v;
          let e := b.shows s.cur [5] otherPaths;
          (∀ j ∈ s.jobs, j.round = some s.cur → d ≤ backFrom r.jlast j.num →
            (d < 8 → j.state.finished = true) ∧ (j.state = .fault → j.reported = true)) → Fits b e fs (fun q => q) →
              exec (.crwait f) s = .next (e.done fs (fun q => q)))
        ∧ (let d := backFrom r.clast v;
          let e := b.shows s.cur [4] otherPaths;
          (∀ c ∈ s.colls, c.round = s.cur → d ≤ backFrom r.clast c.num →
            (d < 8 → c.state.finished = true) ∧ (c.state = .fault → c.reported = true)) → Fits b e fs (fun q => q) →
              exec (.collw f) s = .next (e.done fs (fun q => q)))))

/-- The system instructions complete (R266, R287, R319, R320, R324 to R327): each acts once, where a lane passes; the fence of TLBI acts
even where none does. WRSR writes a status register; ERET answers a parked round or a service handle, and every round that waits on the same
die for a page which the answered round asked for goes on too; TLBI ends what used old translations and drops them; RTABW writes a table
entry; HALT ends at once while an entry is pending; DIAG arms a flip; CTXLD gives to a node the team of a saved context, or a copy of it;
CTXSV writes the context of a saved team. Choices of the model: the length and the bytes of a context are Config.contextLength and
Config.contextByte (DESIGN CHOICE, log entry 12); that a gang is unloaded whole, and that a context is known again by its bytes, is DEDUCED (log
entry 58), and what a copy is is a DESIGN CHOICE (log entry 83); and that the release of TLBI drains and acknowledges in its own step (log entry 10), and
that a rank which RTABW moves to this package keeps its senders' epochs (log entry 80), is DEDUCED. -/
def Obligations.SystemCompletes : Prop :=
  ∀ (s : State) (r : Round) (k : IForm) (f : RForm),
    (let fs : List Field := [(k.a, false)]
      let b := s.begun r k.g fs
      ∀ e, Starts s r fs [] → r.passing k.g ≠ 0 →
        writeStatus b (s.partOf r) (k.imm.toNat % 2 ^ 12) (lowValue (r.passing k.g) (sources s r fs) 0) = some e →
          Fits b e [] (fun q => q) → exec (.wrsr k) s = .next (e.done [] (fun q => q)))
    ∧ (let fs : List Field := [(f.a, false), (f.b, false), (f.c, false)]
      let b := s.begun r f.g fs
      let m := r.passing f.g
      let x := fun (i : Nat) => lowValue m (sources s r fs) i
      let part := (s.teamOf r).part
      Starts s r fs [] →
      (let e1 := b.afterRelease r 5 true;
        (m = 0 → Fits e1 e1 [] (fun q => q) → exec (.tlbi f) s = .next (e1.done [] (fun q => q)))
        ∧ (let drop := fun (t : TlbEntry) =>
            t.part == part && ((x 1) == 1 || (decide (t.va ≤ (x 0).toNat) && decide ((x 0).toNat < t.va + t.size)));
          let e2 := e1.finishAccesses part;
          let e3 : State := { e2 with cores := e2.cores.map (fun c => (c.1, { c.2 with tlb := c.2.tlb.filter (fun t => !drop t) })) };
          let e := e3.setPart { e3.part part with deadManifests := [] };
          m ≠ 0 → ((x 1) = 0 ∨ (x 1) = 1) → Fits e1 e [] (fun q => q) → exec (.tlbi f) s = .next (e.done [] (fun q => q))))
      ∧ (m ≠ 0 →
        (∀ n q p e1, ¬((x 0).toNat < 2 ^ 32 ∧ (x 0).getLsbD 15 = true) → b.parkedNamed part (x 0) = some (n, q, p) →
          (((x 1) = 0 ∧ e1 = b.resumeAt n p.resume q)
            ∨ ((x 1) = 1 ∧ p.service = false ∧ p.canStep = true ∧ e1 = b.resumeAt n (p.trap.index + 1) q)
            ∨ ((x 1) = 2 ∧ e1 = b.killRound n) ∨ ((x 1) = 3 ∧ e1 = b.killTeam q.team)
            ∨ ((x 1) = 4 ∧ p.service = true
                ∧ e1 = { parkTrap { b with cur := n } q { p.trap with cause := 0x60 } q.clause.isSome p.resume with cur := b.cur })) →
          let e := e1.wakeAsked (b.teamOf q).part p;
          Fits b e [] (fun q => q) → exec (.eret f) s = .next (e.done [] (fun q => q)))
        ∧ (∀ v, (x 0).toNat < 2 ^ 32 → (x 0).getLsbD 15 = true → ((x 1) = 0 ∨ (x 1) = 4) →
          s.services.find? (fun v => v.handle == (x 0).toNat && v.part == part) = some v →
          Fits b (b.answerService v ((x 1) == 4)) [] (fun q => q) →
            exec (.eret f) s = .next ((b.answerService v ((x 1) == 4)).done [] (fun q => q)))
        ∧ (let p := s.partOf r;
          let e := (b.setPart { p with jobs := SMap.set p.jobs (6144 * (x 0).toNat + (x 1).toNat) (x 2) }).setPackage
            (b.package.adopt (x 0).toNat (x 1).toNat (p.entry (x 0).toNat (x 1).toNat) (x 2));
          (x 0).toNat ≤ 255 → (x 1).toNat ≤ 6143 → entryOk (x 2) = true → Fits b e [] (fun q => q) →
            exec (.rtabw f) s = .next (e.done [] (fun q => q)))
        ∧ (((s.partOf r).head ≠ (s.partOf r).tail ∨ (s.partOf r).queue ≠ []) → Fits b b [] (fun q => q) →
          exec (.halt f) s = .next (b.done [] (fun q => q)))
        ∧ (let t := s.teamOf r;
          let slot := bits (x 1) 25 17;
          let flip : Flip := { slot := slotKey t r slot, elem := 64 * bits (x 1) 16 11 + bits (x 1) 10 5, bit := bits (x 1) 4 0 };
          let e := b.modTeam r (fun t => { t with flips := t.flips.filter (fun y => y.slot != flip.slot) ++ [flip] });
          (x 0) = 0x301 → bits (x 1) 63 26 = 0 → slot < t.acc → t.fenced.contains flip.slot = false → Fits b e [] (fun q => q) →
            exec (.diag f) s = .next (e.done [] (fun q => q)))))
    ∧ (let fs : List Field := [(f.a, false), (f.b, false), (f.c, false)]
      let b := s.begun r f.g fs
      let m := r.passing f.g
      let x := fun (i : Nat) => lowValue m (sources s r fs) i
      let part := (s.teamOf r).part
      m ≠ 0 →
      (∀ n node c e1 q1 e2 q2 head bytes e3 team,
        let size := bytesAt head 4 4
        let again := (∀ y ∈ e2.contexts, y.team = c.team → y.id ≤ c.id) ∧ (e2.teams.getD c.team Team.blank).status = .unloaded
        let t := e3.teams.getD team Team.blank
        let e := ((e3.setTeam team { t with node := some n, status := .saved }).modNode n (fun y => y.addResumable team)).refresh
        Starts s r fs [] → b.liveNode part (x 0).toNat = some n → b.nodes[n]? = some node → node.record.kind = 0 →
          c.what.kernel.addr = node.kernel.addr → RangeRead b (r.noted f.g fs) m (x 1) 128 e1 q1 head →
          RangeRead e1 q1 m (x 1) (max 128 size) e2 q2 bytes →
          e2.contexts.find? (fun c => c.part == part && c.size == size && contextImage c == bytes) = some c →
          (again → e3 = e2 ∧ team = c.team) → (¬again → (e3, team) = e2.copyContext c) →
          Fits b e [] (fun q => q) → exec (.ctxld f) s = .next (e.done [] (fun q => q)))
      ∧ (∀ n q, Starts s r fs (regNames f.d 1) → b.roundNamed part (x 0) = some n → b.rounds[n]? = some q → (x 1).toNat % 4096 = 0 →
          let t := b.teams.getD q.team Team.blank
          let z := contextBytes t.kernel t.pair
          let size := 128 + min (Config.contextLength b.nextId) (z - 128)
          let c := b.contextOf q.team b.nextId size
          let others := b.gangTeams q.team
          let e1 : State := { b with
            nextId := b.nextId + 1,
            contexts := b.contexts ++ [c],
            teams := b.teams.zipIdx.map (fun y => if others.contains y.2 && y.1.status == .saved then { y.1 with status := .unloaded } else y.1) }
          let e := (e1.dropResumable others.contains).writeVirtual (r.noted f.g fs) (x 1) (contextImage c)
          let write := writeOperand m f.d (tab (fun _ => BitVec.ofNat 64 size))
          RangeAt b (r.noted f.g fs) true (x 1) z → (t.status = .saved ∨ t.status = .unloaded) → Fits b e [] write →
            exec (.ctxsv f) s = .next (e.done [] write)))

/-- What rounds do between their instructions (R40, R44, R63, R82, R85, R89, R96, R105, R320): a header and its clause are fetched; the
selected round begins its clause, or traps where a check fails; a finished SLEEP makes its round ready; a round asked for its context
stops at its points, or at a clause boundary after 65,536 clauses; a gang whose rounds have all stopped is saved; of a core's rounds that
all lack rows one spills, once a save of it has nothing to wait for; a round whose work is done ends. -/
def Obligations.RoundEvents : Prop :=
  ∀ (s : State) (n : Nat) (r : Round), s.rounds[n]? = some r →
    (∀ h ws, s.fetches r = true → s.codeAt r r.pc = .word h →
      (isHeader h = true → (∀ i ≤ (readHeader h).cnt, s.codeAt r (r.pc + BitVec.ofNat 64 (i + 1)) = .word (ws i)) →
        exec (.clauseFetch n) s =
          .next (s.setRoundAt n { r with fetched := some (r.pc, h :: (List.range ((readHeader h).cnt + 1)).map ws) }))
      ∧ (isHeader h = false → exec (.clauseFetch n) s = .next (s.setRoundAt n { r with fetched := some (r.pc, [h]) })))
    ∧ (∀ core quadrant ticks q words, (s.tick ticks).select core quadrant = some (n, q) → q.fetched = some (q.pc, words) →
      let e := s.tick ticks
      (checkClause q.width q.priv (e.partOf q).diag words = none →
        exec (.clauseSelect core quadrant ticks) s = .next ((e.setRoundAt n (beginClause words q)).lastIssuer q))
      ∧ (∀ f, checkClause q.width q.priv (e.partOf q).diag words = some f →
        let t : TrapRec :=
          { cause := f.cause, index := f.index, h := q.pc, info0 := f.info, info1 := 0, info2 := 0, mask := q.cur }
        exec (.clauseSelect core quadrant ticks) s =
          .next { parkTrap { e with cur := n } { q with fetched := none } t false 0 with cur := s.cur }))
    ∧ (r.status = .waiting .sleep → r.sleep = 0 → exec (.sleepExpire n) s = .next (s.setRoundAt n { r with status := .ready }))
    ∧ (r.stopReq ≠ none →
      (∀ k, r.status = .waiting k → k.isPoint = true →
        exec (.roundStop n) s = .next (({ s with
          dies := s.dies.map (fun d => { d with semq := d.semq.filter (fun w => w.round != n) }) } : State).setRoundAt n
            { r with status := .stopped (.implicit k) }))
      ∧ (∀ i, r.status = .ready → s.pointOf r = some i →
        exec (.roundStop n) s = .next (s.setRoundAt n { r with status := .stopped (.listed i) })))
    ∧ (∀ k, r.stopReq = some k → 65536 ≤ k → r.status = .ready → r.clause = none →
      exec (.watchdog n) s = .next ((s.setRoundAt n { r with status := .stopped .watchdog, wdog := true }).enqueue (s.teamOf r).part
        [eventEntry s r 0x72 (r.handle.setWidth 64) 0 0]))
    ∧ (∀ k unload, (s.teams.getD k Team.blank).status = .saving unload →
      let g := (s.gangTeams k).filter (fun j => (s.teams.getD j Team.blank).status != .ended)
      (∀ j ∈ g, (∀ q ∈ s.roundsOf j, s.letsGo q.1 q.2 = true) ∧ (∀ u ∈ s.updates, u.team ≠ j) ∧ s.poolReady j = true) →
        exec (.contextSave k) s = .next (g.foldl (fun s j => s.saveTeam j unload) s))
    ∧ (∀ q, s.resident r = true →
      (∀ m p, s.rounds[m]? = some p → p.core = r.core → s.resident p = true → s.lacksRows p = true ∧ (m ≠ n → s.spillsBefore r p)) →
      s.quietRound n r = true → (s.emptyRound n).rounds[n]? = some q →
        exec (.spill r.core) s = .next ((s.emptyRound n).setRoundAt n
          { q with status := .stopped .spilled, spilled := true, window := [] }))
    ∧ (∀ q,
      let e0 := s.performAll (fun m _ _ => m == n)
      let e := ((e0.releaseStores n 4).drainLines (fun x => x.round == n)).issueHostWrites n
      r.status = .ending → e.rounds[n]? = some q → q.members = [] → q.tokens = [] → q.drain = [] → q.sysCtr = 0 → e.hostQuiet n = true →
        (∀ i ∈ e.items, i.round ≠ n) → e.unfinishedColls n = 0 →
        (∀ f ∈ e.flights, e.own f.packet = true → f.packet.srcRound ≠ n) →
        (∀ j ∈ e.jobs, j.round = some n → j.state.busy = false) →
          exec (.roundEnd n) s = .next ((((copyEvents e q).foldl (fun s x => s.enqueue (e.teamOf q).part [x]) e).setRoundAt n
            q.released).endTeam q.team))

/-- What the memory system, the trap queues and the host do (R287, R289, R296, R299, R322, R323, R333 to R335): buffered stores leave, whole
or some of their units ahead of the rest, at any time and at the latest after 64 microseconds; acknowledgements count down; walks fill the
translation caches; queue entries reach their ring; host writes leave, and the host writes windows and inboxes, at once or once the channels of
the inbox are ready (R338); a read error is counted, and a lasting one marks its sector, after what has been issued to read it, and sends one
event. When an error of HBM happens is the agenda's (DEDUCED, log entry 28). -/
def Obligations.MemoryEvents : Prop :=
  (∀ (s : State) (pre post : List StoreEntry) (x : StoreEntry), s.stores = pre ++ x :: post → (∀ y ∈ pre ++ post, y.id ≠ x.id) →
    ((∀ y ∈ pre, ¬(y.core = x.core ∧ overlap x.bytes y.bytes = true)) →
      (∃ t, exec (.storeBufferDrain ⟨x.id, none⟩) s = .next t ∧ t.stores = pre ++ post ∧ t.mem = Memory.writeCells s.mem x.bytes
        ∧ t.teams = s.teams ∧ t.rounds.length = s.rounds.length)
      ∧ (x.entered + s.micros 64 ≤ s.now → exec (.storeBufferTimeout x.id) s = exec (.storeBufferDrain ⟨x.id, none⟩) s)
      ∧ (s.now < x.entered + s.micros 64 → exec (.storeBufferTimeout x.id) s = .next s))
    ∧ (∀ units,
      let goes := fun (b : Nat × Byte) => units.contains (x.unitOf b.1)
      let out := x.bytes.filter goes
      (∃ b ∈ x.bytes, goes b = false) → (∀ y ∈ pre, ¬(y.core = x.core ∧ overlap y.bytes out = true)) →
        ∃ t, exec (.storeBufferDrain ⟨x.id, some units⟩) s = .next t
          ∧ t.stores = pre ++ { x with bytes := x.bytes.filter (fun b => !goes b), left := x.left ++ out.map (fun b => b.1) } :: post
          ∧ t.mem = Memory.writeCells s.mem out ∧ t.teams = s.teams ∧ t.rounds = s.rounds))
  ∧ (∀ (s : State) (n : Nat) (r : Round), s.rounds[n]? = some r →
      exec (.storeAck n false) s = .next (s.setRoundAt n { r with dieCtr := r.dieCtr - 1 })
      ∧ exec (.storeAck n true) s = .next (s.setRoundAt n { r with pkgCtr := r.pkgCtr - 1 }))
  ∧ (∀ (s : State) (p : Partition) (core : Nat) (va : Word) (x : Leaf), s.parts.find? (fun q => q.num == p.num) = some p →
      canonical va = true → walk s p va = .leaf x →
        let entry : TlbEntry :=
          { part := p.num, va := va.toNat / x.size * x.size, size := x.size, pa := x.pa, u := x.u, x := x.x, w := x.w }
        exec (.translationWalkComplete core p.num va) s = .next (s.setCore core ((s.core core).cache entry)))
  ∧ (∀ (s : State) (p : Partition) (entries : List (List Word)) (rest : List (List (List Word))) (pas : List Nat),
      s.parts.find? (fun q => q.num == p.num) = some p → p.queue = entries :: rest → entries.length ≤ p.freeEntries →
        s.ringPas p entries.length = some pas →
          exec (.trapQueueEntryWrite p.num) s =
            .next ((s.writeBytes (pas.zip (entries.flatMap (fun e => e.flatMap (fun w => toBytes 8 w.toNat))))).setPart
              { p with head := (p.head + entries.length) % p.ring, queue := rest }))
  ∧ (∀ (s : State) (w : HostWrite), s.hostq.find? (fun v => v.round == w.round) = some w → s.linkReady (linkOf w.part) = true →
      exec (.hostLinkWriteIssue w.round) s = .next { s with hostq := s.hostq.erase w, hostOut := s.hostOut ++ [w] })
  ∧ (∀ (s : State) (p : Partition) (index : Nat) (entry : Word), s.parts.find? (fun q => q.num == p.num) = some p → index < 4096 →
      exec (.hostWindowWrite p.num index entry) s = .next (s.setPart { p with hostWin := SMap.set p.hostWin index entry }))
  ∧ (∀ (s : State) (p : Partition) (offset : Nat) (data : List Byte) (value : Word) (pas : List Nat),
      s.parts.find? (fun q => q.num == p.num) = some p → p.num < 16 → s.fnEnabled p.num = true → s.barWaits p.num = false →
        (offset + data.length ≤ 65536 → data ≠ [] →
          (s.inboxPlaces p offset data.length = .ok pas →
            exec (.inboxSlotWrite p.num offset data) s = .next (s.writeBytes (pas.zip data)))
          ∧ (s.inboxPlaces p offset data.length = .held → exec (.inboxSlotWrite p.num offset data) s =
            .next (s.setPackage { s.package with barq := s.package.barq ++ [{ fn := p.num, offset := offset, data := data }] })))
        ∧ (s.inboxPlaces p 65536 8 = .ok pas → exec (.inboxProdWrite p.num value) s =
            .next ((s.writeBytes (pas.zip (toBytes 8 value.toNat))).enqueue p.num [inboxEvent s p value])))
  ∧ (∀ (s : State) (sector : Nat) (err : HbmError) (ts : List Turn), s.agenda = .hbm sector err :: ts →
      let e : State := { s with agenda := ts }
      let k := homeDie (32 * sector)
      let d := s.die k
      mapped (32 * sector) = true → k < s.dies.length →
        ∃ t, step s = .next t
          ∧ (err = .corrected → t = e.setDie k { d with corr := min 0xFFFF (d.corr + 1) })
          ∧ (err = .cured → t = e.setDie k { d with trans := min 0xFFFF (d.trans + 1) })
          ∧ (let s0 := e.performOn (fun _ _ a => a.isRead) false ((List.range 32).map (fun i => 32 * sector + i));
            err = .lasting → s.isLasting (32 * sector) = false →
              t.mem = s0.mem ∧ t.rounds = s0.rounds ∧ t.isLasting (32 * sector) = true
                ∧ (k < s0.dies.length → (t.die k).lasting = min 0xFFFF (d.lasting + 1))
                ∧ ∀ p, d.part = some p → (∃ q ∈ s0.parts, q.num = p) →
                    (t.part p).queue = (s0.part p).queue ++ [[queueEntry 2 0x63 0 0 0 0 0 0
                      (BitVec.ofNat 64 (32 * sector / pageBytes * pageBytes)) 0 0 0 d.clock]]))

/-- What the sorting office and the engines do (R307 to R313, R352, R353, R358, R380, R381): a stopped round whose rows fit comes back; a
standing node that is leaving goes; the first node of C whose gang fits is admitted; a node whose work is done completes; a Courier job
starts, from its cursor record where it was stopped, moves what remains of a segment and commits, or stops for an urgent node; a collective
starts, and reads and writes what remains of its sources and results. Words of a segment, of a source or of a result may move ahead of the rest in
turns of their own (R352, R357, R383). That a round comes back before anything else is the model's choice (DEDUCED, log entry 59). -/
def Obligations.OfficeEvents : Prop :=
  (∀ (s : State) (die : Nat),
    let e := s.dropHolds die (s.candidates die)
    (∀ n r, e.returning die = some (n, r) → exec (.sortingOfficeAdmit die) s = .next (e.bringBack n r))
    ∧ (e.returning die = none →
      (∀ n x, e.nodeToRemove die = some (n, x) → exec (.sortingOfficeAdmit die) s = .next (e.tryRemove n x))
      ∧ (∀ n x rest places,
        let e1 := e.admitNew n x places
        let e2 := e1.setDie die ({ e1.die die with holds := (e1.die die).holds.filter (fun h => h.2 != n) } : Die)
        e.nodeToRemove die = none → e.candidates die = (n, x) :: rest → x.onDie = die → x.record.kind = 0 → x.record.manifest = 0 →
          x.resumable = [] → 0 < x.undispatched → e.placesFor n x (.new x.record.gang) e.roomOf = some places →
            exec (.sortingOfficeAdmit die) s = .next (e2.modNode n (fun y =>
              ({ y with firstSince := none, state := if y.state == .earlyReady then .earlyReady else .dispatching } : Node).settle)))))
  ∧ (∀ (s : State) (n : Nat) (x : Node), s.nodes[n]? = some x → x.state = .running →
      (x.record.kind = 0 → (∀ t ∈ s.teams, t.node = some n → t.status = .ended) →
        exec (.nodeComplete n) s = .next (if x.snapshot.isSome || !x.standing then
            s.withManifest n x 0 1088 (fun e pas => e.completeNode n x pas)
          else s.completeNode n x []))
      ∧ (∀ m mv src s1, x.record.kind = 1 → x.fault = none → x.work = some m → m.service = none → m.work.move = some (mv, src) →
        (mv.usesHost = true → s.linkReady (linkOf x.part) = true) →
        s.moveBytes (nodeAgent x) m mv src (wordBytes mv none m.moved) = .done s1 →
          exec (.nodeComplete n) s = .next (s1.completeNode n x []))
      ∧ (∀ j, x.record.kind = 2 → x.fault = none → s.jobs.find? (fun j => j.node == some n) = some j → j.state = .complete →
        exec (.nodeComplete n) s = .next (s.completeNode n x []))
      ∧ (x.record.kind = 3 → exec (.nodeComplete n) s = .next (s.completeNode n x [])))
  ∧ (∀ (s : State) (n : Nat) (j : CourierJob), s.jobs[n]? = some j →
      (j.state = .waiting → s.courierReady j.die = true →
        (s.jobs.filter (fun x => x.die == j.die && (x.state == .running || x.state == .stopping))).length < 64 →
        s.segmentsWait n = false →
          (j.resume = false → exec (.courierJobStart n) s = .next (s.setJob n { j with state := .running }))
          ∧ (∀ b pas, j.resume = true →
            let vas := (List.range 64).map (fun i => j.cursor + BitVec.ofNat 64 i)
            let s1 := s.readyJob j (vas.filterMap (s.userAt j.part))
            gather (vas.map (s1.userByte j.part)) = .ok b → s1.cursorPlaces j = .ok pas →
              let c := readCursor b
              c.jobid = j.jobid → (c.state = 1 ∨ c.state = 3) → (∃ x ∈ j.plan, x.src = c.src ∧ x.seg = c.seg) →
                ∃ k : CourierJob, exec (.courierJobStart n) s = .next ((s1.setJob n k).beginCursor { k with state := .waiting } pas (some c))
                  ∧ k.state = .running ∧ k.bytes = c.bytes ∧ k.segs = c.segs ∧ k.plan = j.plan
                  ∧ (j.plan[k.committed]?.map (fun x => (x.src, x.seg))) = some (c.src, c.seg)))
      ∧ (∀ k x outside l pas j1,
        let todo := (List.range x.len).filter (fun i => !j.wrote.contains (segmentKey k i))
        let unread := todo.filter (fun i => (SMap.find j.read (segmentKey k i)).isNone)
        let s1 := (s.readyJob j (s.segmentSource j x unread)).settleDest j (s.segmentDest j x todo)
        (j.state = .running ∨ j.state = .stopping) → j.plan[k]? = some x → j.committed ≤ k → k ∉ j.done →
        (∀ v ∈ s.services, v.work ≠ .courier n k) →
        (j.begun k = true ∨ (j.state = .running ∧ j.failed = false ∧ j.table ∉ (s.part j.part).frozen)) →
        (unread = [] ∨ s.awaitsOutside j x outside = false) → s1.jobs[n]? = some j1 →
        s1.segmentCells j1 k x outside todo = .ok l → s1.cursorPlaces j1 = .ok pas → s1.lastingDest x l = none →
          exec (.courierSegmentComplete n k outside) s =
            .next ((s1.writeJob j1 l).commitJob n { j1.without k with done := k :: j1.done } pas)))
  ∧ (∀ (s : State) (n m : Nat) (x y : Node) (rest : List (Nat × Node)), s.nodes[n]? = some x →
      s.candidates x.onDie = (m, y) :: rest → y.record.kind = 2 → 6 ≤ y.record.priority → 64 ≤ s.engineJobs x.onDie →
      x.record.kind = 2 → x.record.priority ≤ 3 →
      (∃ j ∈ s.jobs, j.node = some n ∧ (j.state = .waiting ∨ j.state = .running) ∧ j.failed = false) →
      (∀ k z, k ≠ n → s.nodes[k]? = some z → z.onDie = x.onDie → z.record.kind = 2 →
        (∃ j ∈ s.jobs, j.node = some k ∧ (j.state = .waiting ∨ j.state = .running) ∧ j.failed = false) →
          x.record.priority < z.record.priority ∨ (x.record.priority = z.record.priority ∧ z.started < x.started)) →
        exec (.courierNodeStop n) s =
          .next ((s.stopNodeJob n).modNode n (fun y => { y with state := .ready, since := s.now })))
  ∧ (∀ (s : State) (n : Nat) (c : Coll), s.colls[n]? = some c →
      (c.state = .waiting → s.collReady c.die = true →
        (s.colls.filter (fun x => x.die == c.die && x.state == .running)).length < 16 →
          exec (.collectiveStart n) s = .next { s with colls := s.colls.set n { c with state := .running } })
      ∧ (∀ (srcs : Nat → List Byte) (pas : Nat → List Nat),
        let peers := s.peers c []
        let e := peers.foldl (fun e p => match p.1 with | .here _ x => e.readyColl x (x.unread p.2) | _ => e) s
        let now := e.peers c []
        let w := now.foldl (fun (t : State) p => match p.1 with
          | .here _ x => t.writeColl x ((pas p.2).zip (x.result (now.map (fun q => srcs q.2)) p.2))
          | _ => t) e
        c.state = .running → c.out = none → s.mismatched n c peers = false → (∀ v ∈ s.services, ∀ k, v.work ≠ .collective k) →
        (∀ p ∈ peers, ∃ i x, p.1 = .here i x) →
        (∀ p ∈ now, ∃ i x, p.1 = .here i x ∧ e.collSource x p.2 = .ok (srcs p.2) ∧ e.collDest x p.2 = .ok (pas p.2)) →
          exec (.collectiveComplete n []) s = .next { w with
            colls := now.foldl (fun l p => match p.1 with | .here i x => l.set i { x with state := .complete, read := [] } | _ => l) w.colls })
      ∧ (∀ out, c.state = .running → c.out = some out → exec (.collectiveComplete n []) s =
          .next { s.writeColl c out with colls := (s.writeColl c out).colls.set n { c with state := .complete, out := none } }))

/-- What the fabric does (R361 to R363, R365, R367, R369, R371, R372, R374, R375, R392): phases follow one another; a packet to one of this
package's dies is taken up while its sender has not given it up, takes effect unit by unit or fails, and has then settled; its answer lets its
sender's counter fall, and a failure is kept; replies reach a waiting access; late packets are sent again, fail at 1 ms, and flags are
discarded at 2 ms; packets of other packages are kept, once each, and relayed in their phase; lines age; a job at rest migrates. That a packet
which has begun to take effect does so whole at its timeout, and that one which has not never does, is the model's reading (DEDUCED, log
entry 52), and so are what a migration waits for (log entry 55) and that a rank which comes here keeps its senders' epochs (log entry 80). -/
def Obligations.FabricEvents : Prop :=
  (∀ s : State, exec .rotorPhase s = .next { s with package := { s.package with phase := (s.package.phase + 1) % 8 } })
  ∧ (∀ (s : State) (f : Flight), s.flights.find? (fun x => x.key == f.key) = some f → f.packet.dstPkg = s.package.number →
      (∀ units, f.state = .sent → flagOf f.packet = none → s.fresh f.packet = true → s.behindLane f = false →
        (∀ c, s.reach f.packet = .fail c → exec (.packetArrive (.queued f.key units)) s = .next (s.settled_ f c))
        ∧ (∀ pas, s.reach f.packet = .ok pas →
          exec (.packetArrive (.queued f.key units)) s = .next (s.advanceFlight
            { f with todo := (packetUnits f.packet.body).map (fun u => u.map (fun i => (i, pas.getD i 0))) } units)))
      ∧ (f.state = .sent → s.fresh f.packet = false → ∀ units, exec (.packetArrive (.queued f.key units)) s = .next s)
      ∧ (∀ bytes epoch counted u, f.packet.body = .store bytes epoch counted →
        (s.landUnit f u).1.mem = Memory.writeCells (s.settlePacket (u.map (fun x => x.2))).mem (u.map (fun x => (x.2, (bytes.getD x.1 (0, 0)).2)))))
  ∧ (∀ (s : State) (f : Flight) (r : Round), s.flights.find? (fun x => x.key == f.key && s.own x.packet) = some f →
      s.rounds[f.packet.srcRound]? = some r →
        (∀ c outside, f.state = .settled c → exec (.fabricAckArrive f.key outside) s = .next (s.answered f c f.data))
        ∧ (∀ c, f.state = .sent → f.packet.dstPkg ≠ s.package.number → s.reaches f.ports f.packet.dstPkg = true → s.hears = true → c ≠ 0x82 →
          exec (.fabricAckArrive f.key (.fail c)) s = .next (s.answered f c []))
        ∧ (∀ data, f.counted = true → flagOf f.packet = none → isRequest f.packet.body = false →
          (s.answered f 0 data).rounds[f.packet.srcRound]? = some { r with sysCtr := r.sysCtr - 1 }
          ∧ ∀ c, c ≠ 0 → c ≠ 0x82 → r.kept = none →
            (s.answered f c data).rounds[f.packet.srcRound]? = some { r with
              sysCtr := r.sysCtr - 1
              kept := some { rankWord := f.packet.rankWord, addr := packetAddr f.packet, cause := c, timeout := false } }))
  ∧ (∀ (s : State) (f : Flight) (outside : List Reply),
      s.flights.filter (fun x => s.own x.packet && x.packet.srcRound == f.packet.srcRound && isRequest x.packet.body) = [f] →
        (∀ c, f.state = .settled c → exec (.remoteReplyArrive f.packet.srcRound outside) s = .next (s.answered f c f.data))
        ∧ (∀ x, f.state = .sent → f.packet.dstPkg ≠ s.package.number → s.reaches f.ports f.packet.dstPkg = true → s.hears = true →
          outside.find? (fun x => x.lane == f.lane) = some x → x.cause = none →
            exec (.remoteReplyArrive f.packet.srcRound outside) s = .next (s.answered f 0 x.data)))
  ∧ (∀ (s : State) (f : Flight), s.flights.find? (fun x => x.key == f.key) = some f → s.own f.packet = true → f.state ≠ .held →
      (f.lastSent + s.micros 36 ≤ s.now → (∀ x ∈ s.flights, x.key = f.key → x = f) →
        exec (.packetRetransmit f.key) s =
          .next { s with flights := s.flights.map (fun x => if x = f then { f with lastSent := s.now } else x) })
      ∧ (f.packet.sent + s.micros 1000 ≤ s.now →
        (f.packet.dstPkg ≠ s.package.number → f.state = .sent → exec (.fabricTimeout f.key) s = .next (s.answered f 0x82 []))
        ∧ (∀ a v epoch n, flagOf f.packet = some (a, v, epoch, n) → f.packet.dstPkg = s.package.number →
          (f.state = .sent ∨ f.state = .landing) →
            exec (.fabricTimeout f.key) s = .next (((s.closeEpoch f.packet epoch).answered f 0x82 []).flushFlags f.packet.dstDie))))
  ∧ (∀ (s : State) (h : HeldFlag) (d : Nat) (units : Option (List Nat)), d < 6 → h.packet.sent + s.micros 2000 ≤ s.now →
      (s.die d).held.find? (fun x => x.key == h.key) = some h → (∀ k < 6, k ≠ d → ∀ x ∈ (s.die k).held, x.key ≠ h.key) →
        (s.own h.packet = true → exec (.heldFlagDiscard (.queued h.key units)) s = .next ((s.closeFlag d h).flushFlags d))
        ∧ (s.own h.packet = false →
          exec (.heldFlagDiscard (.queued h.key units)) s = .next (((s.closeFlag d h).dropFlight h.key).flushFlags d)))
  ∧ (∀ (s : State) (p : Packet) (via : Nat), s.own p = false → p.srcPkg ∈ s.package.domain → s.linked via = true → s.fresh p = true →
      (p.dstPkg = s.package.number → (∀ a c, p.body ≠ .ack a c) → (∀ n l, p.body ≠ .reply n l) →
        let known := (∃ a ∈ (s.die p.dstDie).applied, a.1 = p.srcPkg ∧ a.2.1 = p.id)
          ∨ ∃ f ∈ s.flights, f.packet.srcPkg = p.srcPkg ∧ f.packet.id = p.id
        (known → exec (.packetArrive (.outside p via)) s = .next s)
        ∧ (¬known → ∃ f : Flight, f.key = s.nextId ∧ f.packet = p ∧ f.state = .sent
            ∧ exec (.packetArrive (.outside p via)) s = .next { s with flights := s.flights ++ [f], nextId := s.nextId + 1 }))
      ∧ (p.dstPkg ≠ s.package.number → via = p.srcPkg → p.dstPkg ∈ s.package.domain →
        (s.package.relay.filter (fun q => q.dstPkg == p.dstPkg)).foldl (fun acc q => acc + packetSize q) (packetSize p) ≤ 2 ^ 22 →
          exec (.packetArrive (.outside p via)) s =
            .next { s with package := { s.package with relay := s.package.relay ++ [p] } }))
  ∧ (∀ (s : State) (p : Packet) (pre post : List Packet),
      let ready (q : Packet) : Prop := q.id = p.id ∧ Nat.xor s.package.number q.dstPkg % 8 = s.package.phase ∧ s.linked q.dstPkg = true
      s.package.relay = pre ++ p :: post → ready p → (∀ q ∈ pre, ¬ready q) →
        exec (.relayForward p.id) s = .next { s with package := { s.package with relay := pre ++ post } })
  ∧ (∀ (s : State) (x : WcLine) (r : Round), s.lines.find? (fun y => y.id == x.id) = some x → s.rounds[x.round]? = some r →
      x.first + s.micros r.ageing ≤ s.now → exec (.wcLineAgeing x.id) s = .next (s.drainLine x))
  ∧ (∀ (s : State) (part job : Nat) (moves : List (Nat × Nat × Nat)) (entries : List (Nat × Word)),
      let p := s.part part
      let e := (s.setPart { p with frozen := if p.frozen.contains job then p.frozen else p.frozen ++ [job] }).drainLines (fun x =>
        bits x.rankWord 23 16 == job && s.roundIn x.round part)
      job < 256 → p.num = part →
        (e.jobBusy part job = true ∨ (∃ x ∈ moves, e.moveReady x = false) → exec (.rankMigration part job ⟨moves, entries⟩) s = .next e)
        ∧ (e.jobBusy part job = false → (∀ x ∈ moves, e.moveReady x = true) → (∀ x ∈ entries, x.1 < 6144 ∧ entryOk x.2 = true) →
          let m := moves.foldl State.movePhysical (if moves = [] then e else e.settlePart part)
          let n := entries.foldl (fun (u : State) x =>
            (u.setPart { u.part part with jobs := SMap.set (u.part part).jobs (6144 * job + x.1) x.2 }).setPackage
              (u.package.adopt job x.1 ((u.part part).entry job x.1) x.2)) m
          exec (.rankMigration part job ⟨moves, entries⟩) s =
            .next (n.setPart { n.part part with frozen := (n.part part).frozen.filter (fun j => j != job) })))

/-- What happens to the package (R304, R332, R336 to R338, R341, R342): the bring-up measures the firmware, then verifies the hypervisor; the
host asks for a report with the nonce that stands, and receives it, signed, once every image that it names has been measured; LIMIT stays
between 2,000 and 6,000, throttling and a lower LIMIT keep the power within it, and POWLIM reads all three; BAR0 ignores what stands nowhere;
reset returns the package to its reset state; a self-test sets its bit once the hypervisor runs; a partition receives its dies, cleared, and
those that held one of them are gone with what they had under way; an image round starts privileged, and the first start measures its image.
Choices of the model: the device key, the serial number and the images are opaque (DESIGN CHOICE, log entry 11); the nonce that counts is the
one at the request (DEDUCED, log entry 24); the throttle's clock and power are the agenda's (DEDUCED, log entry 30); and the model's agenda and
counters go on over a reset (DESIGN CHOICE, log entry 32). -/
def Obligations.PackageEvents : Prop :=
  ∀ s : State,
    (∀ ts, s.agenda = .boot :: ts →
      (s.package.boot = 0 → step s = .next { s with agenda := ts, package := { s.package with boot := 1 } })
      ∧ (s.package.boot = 1 → step s = .next (if edVerify Config.rootKey Config.hypervisor Config.hypervisorSignature = true
        then { s with agenda := ts, package := { s.package with boot := 2 } } else { s with agenda := ts })))
    ∧ (∀ fn, s.fnEnabled fn = true → (s.attestation fn).status ≠ 1 →
      exec (.attestationRequest fn) s =
        .next (s.setAttestation fn { s.attestation fn with latched := (s.attestation fn).nonce, status := 1 }))
    ∧ (∀ fn, (s.attestation fn).status = 1 →
      let body := s.reportBody fn (s.attestation fn).latched
      (s.reportable fn = true → exec (.attestationReportReady fn) s = .next (s.setAttestation fn { s.attestation fn with
        status := 2, report := body ++ edSign Config.privateKey body }))
      ∧ (s.reportable fn = false → exec (.attestationReportReady fn) s = .next s))
    ∧ (∀ value : Word,
      let v := value.toNat % 2 ^ 16
      let limit := if v < 2000 then 2000 else if 6000 < v then 6000 else v
      exec (.powlimWrite value) s = .next { s with package := { s.package with limit := limit, watts := min s.package.watts limit } })
    ∧ (∀ clk watts, 8 ≤ clk → clk ≤ 17 → watts ≤ s.package.limit →
      exec (.powerThrottle clk watts) s = .next { s with package := { s.package with clk := clk, watts := watts } })
    ∧ (∀ fn, 16 ≤ fn → s.fnEnabled fn = true → s.barWaits fn = false →
      s.bar0Read fn 0x20000 8 = some (toBytes 8 (BitVec.ofNat 64 (s.package.limit + 2 ^ 16 * s.package.watts + 2 ^ 32 * s.package.clk)).toNat))
    ∧ (∀ fn data, s.fnEnabled fn = true → s.barWaits fn = false → data.length ≤ 64 →
      (exec (.bar0Write fn 0x11000 data) s = (let nonce := overwrite (s.attestation fn).nonce (data.zipIdx.map (fun x => (x.2, x.1)));
        .next (if data = [] then s else s.setAttestation fn { s.attestation fn with nonce := nonce })))
      ∧ exec (.bar0Write fn 0x30000 data) s = .next s ∧ s.bar0Read fn 0x30000 data.length = some (List.replicate data.length 0))
    ∧ exec .packageReset s = .next { State.reset with agenda := s.agenda, free := s.free, nextId := s.nextId }
    ∧ (∀ word bit, s.package.boot = 2 → readyBit word bit = true →
      ∃ t, exec (.selfTestComplete word bit) s = .next t ∧ t.isReady word bit = true ∧ t.rounds = s.rounds ∧ t.mem = s.mem
        ∧ ∀ w b, b < 64 → (w ≠ word ∨ b ≠ bit) → t.isReady w b = s.isReady w b)
    ∧ (∀ spec : PartSpec,
      let gone := (s.parts.filter (fun p => p.dies &&& spec.dies != 0)).map (fun p => p.num)
      let others := s.parts.filter (fun p => !gone.contains p.num)
      s.package.boot = 2 → spec.dies ∈ dieSets → numberOk spec = true → (∀ p ∈ others, p.num ≠ spec.num) →
        controlOk spec others = true →
          ∃ t, exec (.partitionAssign spec) s = .next t ∧ (∀ d < s.dies.length, spec.dies.getLsbD d = true → (t.die d).part = some spec.num)
            ∧ (t.part spec.num).dies = spec.dies ∧ (t.part spec.num).started = false ∧ (t.part spec.num).grants = spec.grants
            ∧ (t.part spec.num).control = spec.control
            ∧ (∀ d < s.dies.length, spec.dies.getLsbD d = false → (∀ p, (s.die d).part = some p → p ∉ gone) → t.die d = s.die d)
            ∧ (MemoryOk s → ∀ a, Memory.read t.mem a = if spec.dies.getLsbD (homeDie a) then 0 else Memory.read s.mem a)
            ∧ (∀ (n : Nat) (r : Round), s.rounds[n]? = some r →
                t.rounds[n]? = some (if (s.teamOf r).part ∈ gone then r.removed else r))
            ∧ (∀ e ∈ t.stores, e ∈ s.stores ∧ ∀ g ∈ gone, s.roundIn e.round g = false))
    ∧ (∀ (p : Partition) (core : Nat) (entry : Word), s.parts.find? (fun q => q.num == p.num) = some p → core ∈ p.control →
      s.isReady 16 (core - 384) = true → (∀ r ∈ s.rounds, r.core = core → r.status = .ended) →
        ∃ t r, exec (.partitionImageStart p.num core entry) s = .next t ∧ t.rounds = s.rounds ++ [r] ∧ r.priv = true ∧ r.pc = entry
          ∧ r.width = 16 ∧ r.core = core ∧ r.status = .ready ∧ (t.teamOf r).part = p.num ∧ t.mem = s.mem
          ∧ (t.part p.num).started = true
          ∧ (t.part p.num).measured = if p.started then p.measured else shake256 p.image)

/-- What a store leaves alone (R107, R154, R291, R295, R296), where no access is pending that it would carry along, and, for a release
or a pair, nothing else is under way either: STS changes only the stored bytes of its own team's scratchpad; ST, while its round's buffer has
room, only what its core reads at the stored bytes; STH only the queue of host writes; STP only the bytes of its pairs. The round keeps its
masks, its stack, its s registers, its predicates and every v name but those freed by a last-read bit. The v names of a round stand in ascending
order, once each, in every state that a run reaches (RoundsOk, which every step keeps). -/
def Obligations.StoreFrame : Prop :=
  ∀ (s t : State) (r q : Round) (f : MForm) (h : RForm), MemoryOk s → s.issuing = some r → SMap.wf r.v = true → t.issuing = some q →
    (∀ q ∈ s.rounds, q.pending = []) →
    let z := szBytes f.sz
    (let fs := (f.a, f.lra) :: runFields f.d (szRegs f.sz) f.lrd
      let addrs := offsetLanes (r.passing f.g) (arg (sources s r fs) 0) f.ofs
      (ordSem f.ord ≠ 2 ∨ Calm s) →
        (exec (.sts f) s = .next t →
          StoreKeeps fs r q ∧ t.mem = s.mem ∧ t.stores = s.stores ∧ PadFrame s t r z (addrs.map (fun p => p.2.toNat)))
        ∧ (exec (.st f) s = .next t → s.buffered s.cur < 16 →
          StoreKeeps fs r q ∧ t.mem = s.mem ∧ PadFrame s t r 0 []
            ∧ ∀ pas a, translateLanes (s.xlat r true) z addrs = .ok pas → (∀ p ∈ pas, a ∉ p.2) → t.coreRead r.core a = s.coreRead r.core a))
    ∧ ((ordSem f.ord ≠ 2 ∨ Calm s) → exec (.sth f) s = .next t →
        StoreKeeps [(f.a, f.lra), (f.d, f.lrd)] r q ∧ t.mem = s.mem ∧ PadFrame s t r 0 [] ∧ t.stores = s.stores ∧ ∃ ws, t.hostq = s.hostq ++ ws)
    ∧ (let fs := [rA h, rB h, (h.d, false)]
      let xs := sources s r fs
      let lanes := (lanesOf (r.passing h.g)).flatMap (fun l => [(l, laneOf (arg xs 0) l), (l, laneOf (arg xs 1) l)])
      Calm s → exec (.stp h) s = .next t →
        StoreKeeps fs r q ∧ PadFrame s t r 0 [] ∧ t.stores = [] ∧ MemoryFrame s t r (2 ^ h.cmp.toNat) lanes)

/-- What an instruction leaves alone outside its own round's registers, where nothing is under way that it would carry along (R107): memory,
but for the few that store there; every scratchpad, but for the few that store there, and the swap of CBAR; and every other round, but for the
rows of CPYR, the operand buffer of RPF, the barriers, the end of a round, and what the image does to rounds. It covers every instruction word:
tag table, copies, layout, placement, matrix engine, control flow, cluster, fabric and system. An atomic changes only the bytes of its lanes, TST
only those of its elements, and LYST only its 512 bytes. -/
def Obligations.FamilyFrames : Prop :=
  ∀ (s t : State), Calm s →
    (∀ i : Instr, i.hasWord = true → exec i s = .next t →
      (writesMemory i = false → t.mem = s.mem)
      ∧ (writesPads i = false → ∀ k, (t.teams.getD k Team.blank).spad = (s.teams.getD k Team.blank).spad)
      ∧ (reachesRounds i = false → ∀ n, n ≠ s.cur → t.rounds[n]? = s.rounds[n]?))
    ∧ (∀ (r : Round) (f : AForm) (h : RForm) (p : PForm), MemoryOk s → s.issuing = some r →
      let z := aszBytes f.asz
      let xs := laneValues (r.passing f.g) (arg (sources s r [(f.a, f.lra), (f.b, f.lrb)]) 0)
      let ys := laneValues (r.passing h.g) (arg (sources s r [rA h, rB h, rC h]) 0)
      (exec (.atom f) s = .next t → MemoryFrame s t r z xs)
      ∧ (exec (.atomu f) s = .next t → MemoryFrame s t r z xs)
      ∧ (exec (.cas h) s = .next t → MemoryFrame s t r 8 ys)
      ∧ (exec (.atoms f) s = .next t → PadFrame s t r z (xs.map (fun x => x.2.toNat)))
      ∧ (exec (.cass h) s = .next t → PadFrame s t r 8 (ys.map (fun x => x.2.toNat)))
      ∧ (exec (.lyst p) s = .next t →
        PadFrame s t r 512 [(laneOf (arg (sources s r [(p.a, p.lra)]) 0) 0).toNat])
      ∧ (let w := ((s.teamOf r).layout p.ld.toNat).words
        let slots := liveSlots w (laneValues (r.passing p.g) (arg (sources s r [(p.a, p.lra), (p.b, p.lrb)]) 1))
        exec (.tst p) s = .next t →
          (recKind w = 1 → t.mem = s.mem ∧ PadFrame s t r (elementBytes w) (slots.map (fun x => (slotAddress w x.2).toNat)))
          ∧ (recKind w ≠ 1 → PadFrame s t r 0 []
              ∧ MemoryFrame s t r (elementBytes w) (slots.map (fun x => (x.1, slotAddress w x.2))))))

/-- Isolation (R63, R304, R324, R326): no round in user mode begins a clause with a system instruction, except DIAG in a diagnostic partition;
no other instruction, and not DIAG, changes any partition's PTROOT, TRAPQ, queue positions, rank tables, host window or grants, or any die's
context pool; and a system instruction changes those of its own partition alone. -/
def Obligations.UserClauses : Prop :=
  (∀ (s t : State) (core quadrant ticks n : Nat) (r q : Round) (c : Clause), exec (.clauseSelect core quadrant ticks) s = .next t →
    s.rounds[n]? = some r → r.priv = false → r.clause = none → t.rounds[n]? = some q → q.clause = some c →
      ∀ ix w i, c.words[ix]? = some w → decodeOpcode (c.uni.getLsbD ix) w = some i → classOf i = 7 →
        opcodeOf i = 0x305 ∧ (s.partOf r).diag = true)
  ∧ (∀ (s t : State) (r : Round) (i : Instr), (∀ p ∈ s.parts, p.num < 16) → s.issuing = some r → i.hasWord = true → exec i s = .next t →
      (classOf i ≠ 7 ∨ opcodeOf i = 0x305 →
        (∀ n, SameControl (s.part n) (t.part n)) ∧ ∀ d, SamePool (s.die d) (t.die d))
      ∧ (∀ n, n ≠ (s.teamOf r).part → SameControl (s.part n) (t.part n))
      ∧ (∀ d < 6, (s.partOf r).dies.getLsbD d = false → SamePool (s.die d) (t.die d)))

/-- What every step keeps, from any state: memory and every team's scratchpad stay in their canonical form; LIMIT stays between 2,000 and
6,000, CLK between 8 and 17, and the power within LIMIT (R342); and every round's current mask stays within its live mask, its join stack at
most 32 deep (R88 to R95), and its v names in ascending order, once each (R84). -/
def Obligations.InvariantsKept : Prop :=
  ∀ s t : State, MemoryOk s ∧ PowerOk s ∧ RoundsOk s → step s = .next t → MemoryOk t ∧ PowerOk t ∧ RoundsOk t

end
end

