-- ==== Sys2Proof/Laws/State.lean ====
section
/-! SUPPORT. What each update of the state leaves alone, one lemma per field and update, and what the updates of one list do to each
other. -/
namespace Sys2Proof.Machine

@[simp] theorem State.setRound_teams (s : State) (r : Round) : (s.setRound r).teams = s.teams := rfl
@[simp] theorem State.setRound_gangs (s : State) (r : Round) : (s.setRound r).gangs = s.gangs := rfl
@[simp] theorem State.setRound_nodes (s : State) (r : Round) : (s.setRound r).nodes = s.nodes := rfl
@[simp] theorem State.setRound_dies (s : State) (r : Round) : (s.setRound r).dies = s.dies := rfl
@[simp] theorem State.setRound_cores (s : State) (r : Round) : (s.setRound r).cores = s.cores := rfl
@[simp] theorem State.setRound_parts (s : State) (r : Round) : (s.setRound r).parts = s.parts := rfl
@[simp] theorem State.setRound_mem (s : State) (r : Round) : (s.setRound r).mem = s.mem := rfl
@[simp] theorem State.setRound_lasting (s : State) (r : Round) : (s.setRound r).lasting = s.lasting := rfl
@[simp] theorem State.setRound_stores (s : State) (r : Round) : (s.setRound r).stores = s.stores := rfl
@[simp] theorem State.setRound_lines (s : State) (r : Round) : (s.setRound r).lines = s.lines := rfl
@[simp] theorem State.setRound_items (s : State) (r : Round) : (s.setRound r).items = s.items := rfl
@[simp] theorem State.setRound_updates (s : State) (r : Round) : (s.setRound r).updates = s.updates := rfl
@[simp] theorem State.setRound_flights (s : State) (r : Round) : (s.setRound r).flights = s.flights := rfl
@[simp] theorem State.setRound_jobs (s : State) (r : Round) : (s.setRound r).jobs = s.jobs := rfl
@[simp] theorem State.setRound_colls (s : State) (r : Round) : (s.setRound r).colls = s.colls := rfl
@[simp] theorem State.setRound_services (s : State) (r : Round) : (s.setRound r).services = s.services := rfl
@[simp] theorem State.setRound_hostq (s : State) (r : Round) : (s.setRound r).hostq = s.hostq := rfl
@[simp] theorem State.setRound_hostOut (s : State) (r : Round) : (s.setRound r).hostOut = s.hostOut := rfl
@[simp] theorem State.setRound_contexts (s : State) (r : Round) : (s.setRound r).contexts = s.contexts := rfl
@[simp] theorem State.setRound_package (s : State) (r : Round) : (s.setRound r).package = s.package := rfl
@[simp] theorem State.setRound_now (s : State) (r : Round) : (s.setRound r).now = s.now := rfl
@[simp] theorem State.setRound_nextId (s : State) (r : Round) : (s.setRound r).nextId = s.nextId := rfl
@[simp] theorem State.setRound_free (s : State) (r : Round) : (s.setRound r).free = s.free := rfl
@[simp] theorem State.setRound_cur (s : State) (r : Round) : (s.setRound r).cur = s.cur := rfl
@[simp] theorem State.setRound_late (s : State) (r : Round) : (s.setRound r).late = s.late := rfl
@[simp] theorem State.setRound_agenda (s : State) (r : Round) : (s.setRound r).agenda = s.agenda := rfl

@[simp] theorem State.setRoundAt_teams (s : State) (n : Nat) (r : Round) : (s.setRoundAt n r).teams = s.teams := rfl
@[simp] theorem State.setRoundAt_gangs (s : State) (n : Nat) (r : Round) : (s.setRoundAt n r).gangs = s.gangs := rfl
@[simp] theorem State.setRoundAt_nodes (s : State) (n : Nat) (r : Round) : (s.setRoundAt n r).nodes = s.nodes := rfl
@[simp] theorem State.setRoundAt_dies (s : State) (n : Nat) (r : Round) : (s.setRoundAt n r).dies = s.dies := rfl
@[simp] theorem State.setRoundAt_cores (s : State) (n : Nat) (r : Round) : (s.setRoundAt n r).cores = s.cores := rfl
@[simp] theorem State.setRoundAt_parts (s : State) (n : Nat) (r : Round) : (s.setRoundAt n r).parts = s.parts := rfl
@[simp] theorem State.setRoundAt_mem (s : State) (n : Nat) (r : Round) : (s.setRoundAt n r).mem = s.mem := rfl
@[simp] theorem State.setRoundAt_lasting (s : State) (n : Nat) (r : Round) : (s.setRoundAt n r).lasting = s.lasting := rfl
@[simp] theorem State.setRoundAt_stores (s : State) (n : Nat) (r : Round) : (s.setRoundAt n r).stores = s.stores := rfl
@[simp] theorem State.setRoundAt_lines (s : State) (n : Nat) (r : Round) : (s.setRoundAt n r).lines = s.lines := rfl
@[simp] theorem State.setRoundAt_items (s : State) (n : Nat) (r : Round) : (s.setRoundAt n r).items = s.items := rfl
@[simp] theorem State.setRoundAt_updates (s : State) (n : Nat) (r : Round) : (s.setRoundAt n r).updates = s.updates := rfl
@[simp] theorem State.setRoundAt_flights (s : State) (n : Nat) (r : Round) : (s.setRoundAt n r).flights = s.flights := rfl
@[simp] theorem State.setRoundAt_jobs (s : State) (n : Nat) (r : Round) : (s.setRoundAt n r).jobs = s.jobs := rfl
@[simp] theorem State.setRoundAt_colls (s : State) (n : Nat) (r : Round) : (s.setRoundAt n r).colls = s.colls := rfl
@[simp] theorem State.setRoundAt_services (s : State) (n : Nat) (r : Round) : (s.setRoundAt n r).services = s.services := rfl
@[simp] theorem State.setRoundAt_hostq (s : State) (n : Nat) (r : Round) : (s.setRoundAt n r).hostq = s.hostq := rfl
@[simp] theorem State.setRoundAt_hostOut (s : State) (n : Nat) (r : Round) : (s.setRoundAt n r).hostOut = s.hostOut := rfl
@[simp] theorem State.setRoundAt_contexts (s : State) (n : Nat) (r : Round) : (s.setRoundAt n r).contexts = s.contexts := rfl
@[simp] theorem State.setRoundAt_package (s : State) (n : Nat) (r : Round) : (s.setRoundAt n r).package = s.package := rfl
@[simp] theorem State.setRoundAt_now (s : State) (n : Nat) (r : Round) : (s.setRoundAt n r).now = s.now := rfl
@[simp] theorem State.setRoundAt_nextId (s : State) (n : Nat) (r : Round) : (s.setRoundAt n r).nextId = s.nextId := rfl
@[simp] theorem State.setRoundAt_free (s : State) (n : Nat) (r : Round) : (s.setRoundAt n r).free = s.free := rfl
@[simp] theorem State.setRoundAt_cur (s : State) (n : Nat) (r : Round) : (s.setRoundAt n r).cur = s.cur := rfl
@[simp] theorem State.setRoundAt_late (s : State) (n : Nat) (r : Round) : (s.setRoundAt n r).late = s.late := rfl
@[simp] theorem State.setRoundAt_agenda (s : State) (n : Nat) (r : Round) : (s.setRoundAt n r).agenda = s.agenda := rfl

@[simp] theorem State.setTeam_rounds (s : State) (n : Nat) (t : Team) : (s.setTeam n t).rounds = s.rounds := rfl
@[simp] theorem State.setTeam_gangs (s : State) (n : Nat) (t : Team) : (s.setTeam n t).gangs = s.gangs := rfl
@[simp] theorem State.setTeam_nodes (s : State) (n : Nat) (t : Team) : (s.setTeam n t).nodes = s.nodes := rfl
@[simp] theorem State.setTeam_dies (s : State) (n : Nat) (t : Team) : (s.setTeam n t).dies = s.dies := rfl
@[simp] theorem State.setTeam_cores (s : State) (n : Nat) (t : Team) : (s.setTeam n t).cores = s.cores := rfl
@[simp] theorem State.setTeam_parts (s : State) (n : Nat) (t : Team) : (s.setTeam n t).parts = s.parts := rfl
@[simp] theorem State.setTeam_mem (s : State) (n : Nat) (t : Team) : (s.setTeam n t).mem = s.mem := rfl
@[simp] theorem State.setTeam_lasting (s : State) (n : Nat) (t : Team) : (s.setTeam n t).lasting = s.lasting := rfl
@[simp] theorem State.setTeam_stores (s : State) (n : Nat) (t : Team) : (s.setTeam n t).stores = s.stores := rfl
@[simp] theorem State.setTeam_lines (s : State) (n : Nat) (t : Team) : (s.setTeam n t).lines = s.lines := rfl
@[simp] theorem State.setTeam_items (s : State) (n : Nat) (t : Team) : (s.setTeam n t).items = s.items := rfl
@[simp] theorem State.setTeam_updates (s : State) (n : Nat) (t : Team) : (s.setTeam n t).updates = s.updates := rfl
@[simp] theorem State.setTeam_flights (s : State) (n : Nat) (t : Team) : (s.setTeam n t).flights = s.flights := rfl
@[simp] theorem State.setTeam_jobs (s : State) (n : Nat) (t : Team) : (s.setTeam n t).jobs = s.jobs := rfl
@[simp] theorem State.setTeam_colls (s : State) (n : Nat) (t : Team) : (s.setTeam n t).colls = s.colls := rfl
@[simp] theorem State.setTeam_services (s : State) (n : Nat) (t : Team) : (s.setTeam n t).services = s.services := rfl
@[simp] theorem State.setTeam_hostq (s : State) (n : Nat) (t : Team) : (s.setTeam n t).hostq = s.hostq := rfl
@[simp] theorem State.setTeam_hostOut (s : State) (n : Nat) (t : Team) : (s.setTeam n t).hostOut = s.hostOut := rfl
@[simp] theorem State.setTeam_contexts (s : State) (n : Nat) (t : Team) : (s.setTeam n t).contexts = s.contexts := rfl
@[simp] theorem State.setTeam_package (s : State) (n : Nat) (t : Team) : (s.setTeam n t).package = s.package := rfl
@[simp] theorem State.setTeam_now (s : State) (n : Nat) (t : Team) : (s.setTeam n t).now = s.now := rfl
@[simp] theorem State.setTeam_nextId (s : State) (n : Nat) (t : Team) : (s.setTeam n t).nextId = s.nextId := rfl
@[simp] theorem State.setTeam_free (s : State) (n : Nat) (t : Team) : (s.setTeam n t).free = s.free := rfl
@[simp] theorem State.setTeam_cur (s : State) (n : Nat) (t : Team) : (s.setTeam n t).cur = s.cur := rfl
@[simp] theorem State.setTeam_late (s : State) (n : Nat) (t : Team) : (s.setTeam n t).late = s.late := rfl
@[simp] theorem State.setTeam_agenda (s : State) (n : Nat) (t : Team) : (s.setTeam n t).agenda = s.agenda := rfl

@[simp] theorem State.setPart_rounds (s : State) (p : Partition) : (s.setPart p).rounds = s.rounds := rfl
@[simp] theorem State.setPart_teams (s : State) (p : Partition) : (s.setPart p).teams = s.teams := rfl
@[simp] theorem State.setPart_gangs (s : State) (p : Partition) : (s.setPart p).gangs = s.gangs := rfl
@[simp] theorem State.setPart_nodes (s : State) (p : Partition) : (s.setPart p).nodes = s.nodes := rfl
@[simp] theorem State.setPart_dies (s : State) (p : Partition) : (s.setPart p).dies = s.dies := rfl
@[simp] theorem State.setPart_cores (s : State) (p : Partition) : (s.setPart p).cores = s.cores := rfl
@[simp] theorem State.setPart_mem (s : State) (p : Partition) : (s.setPart p).mem = s.mem := rfl
@[simp] theorem State.setPart_lasting (s : State) (p : Partition) : (s.setPart p).lasting = s.lasting := rfl
@[simp] theorem State.setPart_stores (s : State) (p : Partition) : (s.setPart p).stores = s.stores := rfl
@[simp] theorem State.setPart_lines (s : State) (p : Partition) : (s.setPart p).lines = s.lines := rfl
@[simp] theorem State.setPart_items (s : State) (p : Partition) : (s.setPart p).items = s.items := rfl
@[simp] theorem State.setPart_updates (s : State) (p : Partition) : (s.setPart p).updates = s.updates := rfl
@[simp] theorem State.setPart_flights (s : State) (p : Partition) : (s.setPart p).flights = s.flights := rfl
@[simp] theorem State.setPart_jobs (s : State) (p : Partition) : (s.setPart p).jobs = s.jobs := rfl
@[simp] theorem State.setPart_colls (s : State) (p : Partition) : (s.setPart p).colls = s.colls := rfl
@[simp] theorem State.setPart_services (s : State) (p : Partition) : (s.setPart p).services = s.services := rfl
@[simp] theorem State.setPart_hostq (s : State) (p : Partition) : (s.setPart p).hostq = s.hostq := rfl
@[simp] theorem State.setPart_hostOut (s : State) (p : Partition) : (s.setPart p).hostOut = s.hostOut := rfl
@[simp] theorem State.setPart_contexts (s : State) (p : Partition) : (s.setPart p).contexts = s.contexts := rfl
@[simp] theorem State.setPart_package (s : State) (p : Partition) : (s.setPart p).package = s.package := rfl
@[simp] theorem State.setPart_now (s : State) (p : Partition) : (s.setPart p).now = s.now := rfl
@[simp] theorem State.setPart_nextId (s : State) (p : Partition) : (s.setPart p).nextId = s.nextId := rfl
@[simp] theorem State.setPart_free (s : State) (p : Partition) : (s.setPart p).free = s.free := rfl
@[simp] theorem State.setPart_cur (s : State) (p : Partition) : (s.setPart p).cur = s.cur := rfl
@[simp] theorem State.setPart_late (s : State) (p : Partition) : (s.setPart p).late = s.late := rfl
@[simp] theorem State.setPart_agenda (s : State) (p : Partition) : (s.setPart p).agenda = s.agenda := rfl

@[simp] theorem State.setDie_rounds (s : State) (d : Nat) (x : Die) : (s.setDie d x).rounds = s.rounds := rfl
@[simp] theorem State.setDie_teams (s : State) (d : Nat) (x : Die) : (s.setDie d x).teams = s.teams := rfl
@[simp] theorem State.setDie_gangs (s : State) (d : Nat) (x : Die) : (s.setDie d x).gangs = s.gangs := rfl
@[simp] theorem State.setDie_nodes (s : State) (d : Nat) (x : Die) : (s.setDie d x).nodes = s.nodes := rfl
@[simp] theorem State.setDie_cores (s : State) (d : Nat) (x : Die) : (s.setDie d x).cores = s.cores := rfl
@[simp] theorem State.setDie_parts (s : State) (d : Nat) (x : Die) : (s.setDie d x).parts = s.parts := rfl
@[simp] theorem State.setDie_mem (s : State) (d : Nat) (x : Die) : (s.setDie d x).mem = s.mem := rfl
@[simp] theorem State.setDie_lasting (s : State) (d : Nat) (x : Die) : (s.setDie d x).lasting = s.lasting := rfl
@[simp] theorem State.setDie_stores (s : State) (d : Nat) (x : Die) : (s.setDie d x).stores = s.stores := rfl
@[simp] theorem State.setDie_lines (s : State) (d : Nat) (x : Die) : (s.setDie d x).lines = s.lines := rfl
@[simp] theorem State.setDie_items (s : State) (d : Nat) (x : Die) : (s.setDie d x).items = s.items := rfl
@[simp] theorem State.setDie_updates (s : State) (d : Nat) (x : Die) : (s.setDie d x).updates = s.updates := rfl
@[simp] theorem State.setDie_flights (s : State) (d : Nat) (x : Die) : (s.setDie d x).flights = s.flights := rfl
@[simp] theorem State.setDie_jobs (s : State) (d : Nat) (x : Die) : (s.setDie d x).jobs = s.jobs := rfl
@[simp] theorem State.setDie_colls (s : State) (d : Nat) (x : Die) : (s.setDie d x).colls = s.colls := rfl
@[simp] theorem State.setDie_services (s : State) (d : Nat) (x : Die) : (s.setDie d x).services = s.services := rfl
@[simp] theorem State.setDie_hostq (s : State) (d : Nat) (x : Die) : (s.setDie d x).hostq = s.hostq := rfl
@[simp] theorem State.setDie_hostOut (s : State) (d : Nat) (x : Die) : (s.setDie d x).hostOut = s.hostOut := rfl
@[simp] theorem State.setDie_contexts (s : State) (d : Nat) (x : Die) : (s.setDie d x).contexts = s.contexts := rfl
@[simp] theorem State.setDie_package (s : State) (d : Nat) (x : Die) : (s.setDie d x).package = s.package := rfl
@[simp] theorem State.setDie_now (s : State) (d : Nat) (x : Die) : (s.setDie d x).now = s.now := rfl
@[simp] theorem State.setDie_nextId (s : State) (d : Nat) (x : Die) : (s.setDie d x).nextId = s.nextId := rfl
@[simp] theorem State.setDie_free (s : State) (d : Nat) (x : Die) : (s.setDie d x).free = s.free := rfl
@[simp] theorem State.setDie_cur (s : State) (d : Nat) (x : Die) : (s.setDie d x).cur = s.cur := rfl
@[simp] theorem State.setDie_late (s : State) (d : Nat) (x : Die) : (s.setDie d x).late = s.late := rfl
@[simp] theorem State.setDie_agenda (s : State) (d : Nat) (x : Die) : (s.setDie d x).agenda = s.agenda := rfl

@[simp] theorem State.setCore_rounds (s : State) (c : Nat) (x : Core) : (s.setCore c x).rounds = s.rounds := rfl
@[simp] theorem State.setCore_teams (s : State) (c : Nat) (x : Core) : (s.setCore c x).teams = s.teams := rfl
@[simp] theorem State.setCore_gangs (s : State) (c : Nat) (x : Core) : (s.setCore c x).gangs = s.gangs := rfl
@[simp] theorem State.setCore_nodes (s : State) (c : Nat) (x : Core) : (s.setCore c x).nodes = s.nodes := rfl
@[simp] theorem State.setCore_dies (s : State) (c : Nat) (x : Core) : (s.setCore c x).dies = s.dies := rfl
@[simp] theorem State.setCore_parts (s : State) (c : Nat) (x : Core) : (s.setCore c x).parts = s.parts := rfl
@[simp] theorem State.setCore_mem (s : State) (c : Nat) (x : Core) : (s.setCore c x).mem = s.mem := rfl
@[simp] theorem State.setCore_lasting (s : State) (c : Nat) (x : Core) : (s.setCore c x).lasting = s.lasting := rfl
@[simp] theorem State.setCore_stores (s : State) (c : Nat) (x : Core) : (s.setCore c x).stores = s.stores := rfl
@[simp] theorem State.setCore_lines (s : State) (c : Nat) (x : Core) : (s.setCore c x).lines = s.lines := rfl
@[simp] theorem State.setCore_items (s : State) (c : Nat) (x : Core) : (s.setCore c x).items = s.items := rfl
@[simp] theorem State.setCore_updates (s : State) (c : Nat) (x : Core) : (s.setCore c x).updates = s.updates := rfl
@[simp] theorem State.setCore_flights (s : State) (c : Nat) (x : Core) : (s.setCore c x).flights = s.flights := rfl
@[simp] theorem State.setCore_jobs (s : State) (c : Nat) (x : Core) : (s.setCore c x).jobs = s.jobs := rfl
@[simp] theorem State.setCore_colls (s : State) (c : Nat) (x : Core) : (s.setCore c x).colls = s.colls := rfl
@[simp] theorem State.setCore_services (s : State) (c : Nat) (x : Core) : (s.setCore c x).services = s.services := rfl
@[simp] theorem State.setCore_hostq (s : State) (c : Nat) (x : Core) : (s.setCore c x).hostq = s.hostq := rfl
@[simp] theorem State.setCore_hostOut (s : State) (c : Nat) (x : Core) : (s.setCore c x).hostOut = s.hostOut := rfl
@[simp] theorem State.setCore_contexts (s : State) (c : Nat) (x : Core) : (s.setCore c x).contexts = s.contexts := rfl
@[simp] theorem State.setCore_package (s : State) (c : Nat) (x : Core) : (s.setCore c x).package = s.package := rfl
@[simp] theorem State.setCore_now (s : State) (c : Nat) (x : Core) : (s.setCore c x).now = s.now := rfl
@[simp] theorem State.setCore_nextId (s : State) (c : Nat) (x : Core) : (s.setCore c x).nextId = s.nextId := rfl
@[simp] theorem State.setCore_free (s : State) (c : Nat) (x : Core) : (s.setCore c x).free = s.free := rfl
@[simp] theorem State.setCore_cur (s : State) (c : Nat) (x : Core) : (s.setCore c x).cur = s.cur := rfl
@[simp] theorem State.setCore_late (s : State) (c : Nat) (x : Core) : (s.setCore c x).late = s.late := rfl
@[simp] theorem State.setCore_agenda (s : State) (c : Nat) (x : Core) : (s.setCore c x).agenda = s.agenda := rfl

@[simp] theorem State.modTeam_rounds (s : State) (r : Round) (f : Team → Team) : (s.modTeam r f).rounds = s.rounds := rfl
@[simp] theorem State.modTeam_gangs (s : State) (r : Round) (f : Team → Team) : (s.modTeam r f).gangs = s.gangs := rfl
@[simp] theorem State.modTeam_nodes (s : State) (r : Round) (f : Team → Team) : (s.modTeam r f).nodes = s.nodes := rfl
@[simp] theorem State.modTeam_dies (s : State) (r : Round) (f : Team → Team) : (s.modTeam r f).dies = s.dies := rfl
@[simp] theorem State.modTeam_cores (s : State) (r : Round) (f : Team → Team) : (s.modTeam r f).cores = s.cores := rfl
@[simp] theorem State.modTeam_parts (s : State) (r : Round) (f : Team → Team) : (s.modTeam r f).parts = s.parts := rfl
@[simp] theorem State.modTeam_mem (s : State) (r : Round) (f : Team → Team) : (s.modTeam r f).mem = s.mem := rfl
@[simp] theorem State.modTeam_lasting (s : State) (r : Round) (f : Team → Team) : (s.modTeam r f).lasting = s.lasting := rfl
@[simp] theorem State.modTeam_stores (s : State) (r : Round) (f : Team → Team) : (s.modTeam r f).stores = s.stores := rfl
@[simp] theorem State.modTeam_lines (s : State) (r : Round) (f : Team → Team) : (s.modTeam r f).lines = s.lines := rfl
@[simp] theorem State.modTeam_items (s : State) (r : Round) (f : Team → Team) : (s.modTeam r f).items = s.items := rfl
@[simp] theorem State.modTeam_updates (s : State) (r : Round) (f : Team → Team) : (s.modTeam r f).updates = s.updates := rfl
@[simp] theorem State.modTeam_flights (s : State) (r : Round) (f : Team → Team) : (s.modTeam r f).flights = s.flights := rfl
@[simp] theorem State.modTeam_jobs (s : State) (r : Round) (f : Team → Team) : (s.modTeam r f).jobs = s.jobs := rfl
@[simp] theorem State.modTeam_colls (s : State) (r : Round) (f : Team → Team) : (s.modTeam r f).colls = s.colls := rfl
@[simp] theorem State.modTeam_services (s : State) (r : Round) (f : Team → Team) : (s.modTeam r f).services = s.services := rfl
@[simp] theorem State.modTeam_hostq (s : State) (r : Round) (f : Team → Team) : (s.modTeam r f).hostq = s.hostq := rfl
@[simp] theorem State.modTeam_hostOut (s : State) (r : Round) (f : Team → Team) : (s.modTeam r f).hostOut = s.hostOut := rfl
@[simp] theorem State.modTeam_contexts (s : State) (r : Round) (f : Team → Team) : (s.modTeam r f).contexts = s.contexts := rfl
@[simp] theorem State.modTeam_package (s : State) (r : Round) (f : Team → Team) : (s.modTeam r f).package = s.package := rfl
@[simp] theorem State.modTeam_now (s : State) (r : Round) (f : Team → Team) : (s.modTeam r f).now = s.now := rfl
@[simp] theorem State.modTeam_nextId (s : State) (r : Round) (f : Team → Team) : (s.modTeam r f).nextId = s.nextId := rfl
@[simp] theorem State.modTeam_free (s : State) (r : Round) (f : Team → Team) : (s.modTeam r f).free = s.free := rfl
@[simp] theorem State.modTeam_cur (s : State) (r : Round) (f : Team → Team) : (s.modTeam r f).cur = s.cur := rfl
@[simp] theorem State.modTeam_late (s : State) (r : Round) (f : Team → Team) : (s.modTeam r f).late = s.late := rfl
@[simp] theorem State.modTeam_agenda (s : State) (r : Round) (f : Team → Team) : (s.modTeam r f).agenda = s.agenda := rfl

@[simp] theorem State.modNode_rounds (s : State) (n : Nat) (f : Node → Node) : (s.modNode n f).rounds = s.rounds := rfl
@[simp] theorem State.modNode_teams (s : State) (n : Nat) (f : Node → Node) : (s.modNode n f).teams = s.teams := rfl
@[simp] theorem State.modNode_gangs (s : State) (n : Nat) (f : Node → Node) : (s.modNode n f).gangs = s.gangs := rfl
@[simp] theorem State.modNode_dies (s : State) (n : Nat) (f : Node → Node) : (s.modNode n f).dies = s.dies := rfl
@[simp] theorem State.modNode_cores (s : State) (n : Nat) (f : Node → Node) : (s.modNode n f).cores = s.cores := rfl
@[simp] theorem State.modNode_parts (s : State) (n : Nat) (f : Node → Node) : (s.modNode n f).parts = s.parts := rfl
@[simp] theorem State.modNode_mem (s : State) (n : Nat) (f : Node → Node) : (s.modNode n f).mem = s.mem := rfl
@[simp] theorem State.modNode_lasting (s : State) (n : Nat) (f : Node → Node) : (s.modNode n f).lasting = s.lasting := rfl
@[simp] theorem State.modNode_stores (s : State) (n : Nat) (f : Node → Node) : (s.modNode n f).stores = s.stores := rfl
@[simp] theorem State.modNode_lines (s : State) (n : Nat) (f : Node → Node) : (s.modNode n f).lines = s.lines := rfl
@[simp] theorem State.modNode_items (s : State) (n : Nat) (f : Node → Node) : (s.modNode n f).items = s.items := rfl
@[simp] theorem State.modNode_updates (s : State) (n : Nat) (f : Node → Node) : (s.modNode n f).updates = s.updates := rfl
@[simp] theorem State.modNode_flights (s : State) (n : Nat) (f : Node → Node) : (s.modNode n f).flights = s.flights := rfl
@[simp] theorem State.modNode_jobs (s : State) (n : Nat) (f : Node → Node) : (s.modNode n f).jobs = s.jobs := rfl
@[simp] theorem State.modNode_colls (s : State) (n : Nat) (f : Node → Node) : (s.modNode n f).colls = s.colls := rfl
@[simp] theorem State.modNode_services (s : State) (n : Nat) (f : Node → Node) : (s.modNode n f).services = s.services := rfl
@[simp] theorem State.modNode_hostq (s : State) (n : Nat) (f : Node → Node) : (s.modNode n f).hostq = s.hostq := rfl
@[simp] theorem State.modNode_hostOut (s : State) (n : Nat) (f : Node → Node) : (s.modNode n f).hostOut = s.hostOut := rfl
@[simp] theorem State.modNode_contexts (s : State) (n : Nat) (f : Node → Node) : (s.modNode n f).contexts = s.contexts := rfl
@[simp] theorem State.modNode_package (s : State) (n : Nat) (f : Node → Node) : (s.modNode n f).package = s.package := rfl
@[simp] theorem State.modNode_now (s : State) (n : Nat) (f : Node → Node) : (s.modNode n f).now = s.now := rfl
@[simp] theorem State.modNode_nextId (s : State) (n : Nat) (f : Node → Node) : (s.modNode n f).nextId = s.nextId := rfl
@[simp] theorem State.modNode_free (s : State) (n : Nat) (f : Node → Node) : (s.modNode n f).free = s.free := rfl
@[simp] theorem State.modNode_cur (s : State) (n : Nat) (f : Node → Node) : (s.modNode n f).cur = s.cur := rfl
@[simp] theorem State.modNode_late (s : State) (n : Nat) (f : Node → Node) : (s.modNode n f).late = s.late := rfl
@[simp] theorem State.modNode_agenda (s : State) (n : Nat) (f : Node → Node) : (s.modNode n f).agenda = s.agenda := rfl

@[simp] theorem State.setGang_rounds (s : State) (g : Nat) (x : Gang) : (s.setGang g x).rounds = s.rounds := rfl
@[simp] theorem State.setGang_teams (s : State) (g : Nat) (x : Gang) : (s.setGang g x).teams = s.teams := rfl
@[simp] theorem State.setGang_nodes (s : State) (g : Nat) (x : Gang) : (s.setGang g x).nodes = s.nodes := rfl
@[simp] theorem State.setGang_dies (s : State) (g : Nat) (x : Gang) : (s.setGang g x).dies = s.dies := rfl
@[simp] theorem State.setGang_cores (s : State) (g : Nat) (x : Gang) : (s.setGang g x).cores = s.cores := rfl
@[simp] theorem State.setGang_parts (s : State) (g : Nat) (x : Gang) : (s.setGang g x).parts = s.parts := rfl
@[simp] theorem State.setGang_mem (s : State) (g : Nat) (x : Gang) : (s.setGang g x).mem = s.mem := rfl
@[simp] theorem State.setGang_lasting (s : State) (g : Nat) (x : Gang) : (s.setGang g x).lasting = s.lasting := rfl
@[simp] theorem State.setGang_stores (s : State) (g : Nat) (x : Gang) : (s.setGang g x).stores = s.stores := rfl
@[simp] theorem State.setGang_lines (s : State) (g : Nat) (x : Gang) : (s.setGang g x).lines = s.lines := rfl
@[simp] theorem State.setGang_items (s : State) (g : Nat) (x : Gang) : (s.setGang g x).items = s.items := rfl
@[simp] theorem State.setGang_updates (s : State) (g : Nat) (x : Gang) : (s.setGang g x).updates = s.updates := rfl
@[simp] theorem State.setGang_flights (s : State) (g : Nat) (x : Gang) : (s.setGang g x).flights = s.flights := rfl
@[simp] theorem State.setGang_jobs (s : State) (g : Nat) (x : Gang) : (s.setGang g x).jobs = s.jobs := rfl
@[simp] theorem State.setGang_colls (s : State) (g : Nat) (x : Gang) : (s.setGang g x).colls = s.colls := rfl
@[simp] theorem State.setGang_services (s : State) (g : Nat) (x : Gang) : (s.setGang g x).services = s.services := rfl
@[simp] theorem State.setGang_hostq (s : State) (g : Nat) (x : Gang) : (s.setGang g x).hostq = s.hostq := rfl
@[simp] theorem State.setGang_hostOut (s : State) (g : Nat) (x : Gang) : (s.setGang g x).hostOut = s.hostOut := rfl
@[simp] theorem State.setGang_contexts (s : State) (g : Nat) (x : Gang) : (s.setGang g x).contexts = s.contexts := rfl
@[simp] theorem State.setGang_package (s : State) (g : Nat) (x : Gang) : (s.setGang g x).package = s.package := rfl
@[simp] theorem State.setGang_now (s : State) (g : Nat) (x : Gang) : (s.setGang g x).now = s.now := rfl
@[simp] theorem State.setGang_nextId (s : State) (g : Nat) (x : Gang) : (s.setGang g x).nextId = s.nextId := rfl
@[simp] theorem State.setGang_free (s : State) (g : Nat) (x : Gang) : (s.setGang g x).free = s.free := rfl
@[simp] theorem State.setGang_cur (s : State) (g : Nat) (x : Gang) : (s.setGang g x).cur = s.cur := rfl
@[simp] theorem State.setGang_late (s : State) (g : Nat) (x : Gang) : (s.setGang g x).late = s.late := rfl
@[simp] theorem State.setGang_agenda (s : State) (g : Nat) (x : Gang) : (s.setGang g x).agenda = s.agenda := rfl

@[simp] theorem State.setJob_rounds (s : State) (i : Nat) (j : CourierJob) : (s.setJob i j).rounds = s.rounds := rfl
@[simp] theorem State.setJob_teams (s : State) (i : Nat) (j : CourierJob) : (s.setJob i j).teams = s.teams := rfl
@[simp] theorem State.setJob_gangs (s : State) (i : Nat) (j : CourierJob) : (s.setJob i j).gangs = s.gangs := rfl
@[simp] theorem State.setJob_nodes (s : State) (i : Nat) (j : CourierJob) : (s.setJob i j).nodes = s.nodes := rfl
@[simp] theorem State.setJob_dies (s : State) (i : Nat) (j : CourierJob) : (s.setJob i j).dies = s.dies := rfl
@[simp] theorem State.setJob_cores (s : State) (i : Nat) (j : CourierJob) : (s.setJob i j).cores = s.cores := rfl
@[simp] theorem State.setJob_parts (s : State) (i : Nat) (j : CourierJob) : (s.setJob i j).parts = s.parts := rfl
@[simp] theorem State.setJob_mem (s : State) (i : Nat) (j : CourierJob) : (s.setJob i j).mem = s.mem := rfl
@[simp] theorem State.setJob_lasting (s : State) (i : Nat) (j : CourierJob) : (s.setJob i j).lasting = s.lasting := rfl
@[simp] theorem State.setJob_stores (s : State) (i : Nat) (j : CourierJob) : (s.setJob i j).stores = s.stores := rfl
@[simp] theorem State.setJob_lines (s : State) (i : Nat) (j : CourierJob) : (s.setJob i j).lines = s.lines := rfl
@[simp] theorem State.setJob_items (s : State) (i : Nat) (j : CourierJob) : (s.setJob i j).items = s.items := rfl
@[simp] theorem State.setJob_updates (s : State) (i : Nat) (j : CourierJob) : (s.setJob i j).updates = s.updates := rfl
@[simp] theorem State.setJob_flights (s : State) (i : Nat) (j : CourierJob) : (s.setJob i j).flights = s.flights := rfl
@[simp] theorem State.setJob_colls (s : State) (i : Nat) (j : CourierJob) : (s.setJob i j).colls = s.colls := rfl
@[simp] theorem State.setJob_services (s : State) (i : Nat) (j : CourierJob) : (s.setJob i j).services = s.services := rfl
@[simp] theorem State.setJob_hostq (s : State) (i : Nat) (j : CourierJob) : (s.setJob i j).hostq = s.hostq := rfl
@[simp] theorem State.setJob_hostOut (s : State) (i : Nat) (j : CourierJob) : (s.setJob i j).hostOut = s.hostOut := rfl
@[simp] theorem State.setJob_contexts (s : State) (i : Nat) (j : CourierJob) : (s.setJob i j).contexts = s.contexts := rfl
@[simp] theorem State.setJob_package (s : State) (i : Nat) (j : CourierJob) : (s.setJob i j).package = s.package := rfl
@[simp] theorem State.setJob_now (s : State) (i : Nat) (j : CourierJob) : (s.setJob i j).now = s.now := rfl
@[simp] theorem State.setJob_nextId (s : State) (i : Nat) (j : CourierJob) : (s.setJob i j).nextId = s.nextId := rfl
@[simp] theorem State.setJob_free (s : State) (i : Nat) (j : CourierJob) : (s.setJob i j).free = s.free := rfl
@[simp] theorem State.setJob_cur (s : State) (i : Nat) (j : CourierJob) : (s.setJob i j).cur = s.cur := rfl
@[simp] theorem State.setJob_late (s : State) (i : Nat) (j : CourierJob) : (s.setJob i j).late = s.late := rfl
@[simp] theorem State.setJob_agenda (s : State) (i : Nat) (j : CourierJob) : (s.setJob i j).agenda = s.agenda := rfl

@[simp] theorem State.modDies_rounds (s : State) (p : Partition) (f : Die → Die) : (s.modDies p f).rounds = s.rounds := rfl
@[simp] theorem State.modDies_teams (s : State) (p : Partition) (f : Die → Die) : (s.modDies p f).teams = s.teams := rfl
@[simp] theorem State.modDies_gangs (s : State) (p : Partition) (f : Die → Die) : (s.modDies p f).gangs = s.gangs := rfl
@[simp] theorem State.modDies_nodes (s : State) (p : Partition) (f : Die → Die) : (s.modDies p f).nodes = s.nodes := rfl
@[simp] theorem State.modDies_cores (s : State) (p : Partition) (f : Die → Die) : (s.modDies p f).cores = s.cores := rfl
@[simp] theorem State.modDies_parts (s : State) (p : Partition) (f : Die → Die) : (s.modDies p f).parts = s.parts := rfl
@[simp] theorem State.modDies_mem (s : State) (p : Partition) (f : Die → Die) : (s.modDies p f).mem = s.mem := rfl
@[simp] theorem State.modDies_lasting (s : State) (p : Partition) (f : Die → Die) : (s.modDies p f).lasting = s.lasting := rfl
@[simp] theorem State.modDies_stores (s : State) (p : Partition) (f : Die → Die) : (s.modDies p f).stores = s.stores := rfl
@[simp] theorem State.modDies_lines (s : State) (p : Partition) (f : Die → Die) : (s.modDies p f).lines = s.lines := rfl
@[simp] theorem State.modDies_items (s : State) (p : Partition) (f : Die → Die) : (s.modDies p f).items = s.items := rfl
@[simp] theorem State.modDies_updates (s : State) (p : Partition) (f : Die → Die) : (s.modDies p f).updates = s.updates := rfl
@[simp] theorem State.modDies_flights (s : State) (p : Partition) (f : Die → Die) : (s.modDies p f).flights = s.flights := rfl
@[simp] theorem State.modDies_jobs (s : State) (p : Partition) (f : Die → Die) : (s.modDies p f).jobs = s.jobs := rfl
@[simp] theorem State.modDies_colls (s : State) (p : Partition) (f : Die → Die) : (s.modDies p f).colls = s.colls := rfl
@[simp] theorem State.modDies_services (s : State) (p : Partition) (f : Die → Die) : (s.modDies p f).services = s.services := rfl
@[simp] theorem State.modDies_hostq (s : State) (p : Partition) (f : Die → Die) : (s.modDies p f).hostq = s.hostq := rfl
@[simp] theorem State.modDies_hostOut (s : State) (p : Partition) (f : Die → Die) : (s.modDies p f).hostOut = s.hostOut := rfl
@[simp] theorem State.modDies_contexts (s : State) (p : Partition) (f : Die → Die) : (s.modDies p f).contexts = s.contexts := rfl
@[simp] theorem State.modDies_package (s : State) (p : Partition) (f : Die → Die) : (s.modDies p f).package = s.package := rfl
@[simp] theorem State.modDies_now (s : State) (p : Partition) (f : Die → Die) : (s.modDies p f).now = s.now := rfl
@[simp] theorem State.modDies_nextId (s : State) (p : Partition) (f : Die → Die) : (s.modDies p f).nextId = s.nextId := rfl
@[simp] theorem State.modDies_free (s : State) (p : Partition) (f : Die → Die) : (s.modDies p f).free = s.free := rfl
@[simp] theorem State.modDies_cur (s : State) (p : Partition) (f : Die → Die) : (s.modDies p f).cur = s.cur := rfl
@[simp] theorem State.modDies_late (s : State) (p : Partition) (f : Die → Die) : (s.modDies p f).late = s.late := rfl
@[simp] theorem State.modDies_agenda (s : State) (p : Partition) (f : Die → Die) : (s.modDies p f).agenda = s.agenda := rfl

@[simp] theorem State.setPackage_rounds (s : State) (k : Package) : (s.setPackage k).rounds = s.rounds := rfl
@[simp] theorem State.setPackage_teams (s : State) (k : Package) : (s.setPackage k).teams = s.teams := rfl
@[simp] theorem State.setPackage_gangs (s : State) (k : Package) : (s.setPackage k).gangs = s.gangs := rfl
@[simp] theorem State.setPackage_nodes (s : State) (k : Package) : (s.setPackage k).nodes = s.nodes := rfl
@[simp] theorem State.setPackage_dies (s : State) (k : Package) : (s.setPackage k).dies = s.dies := rfl
@[simp] theorem State.setPackage_cores (s : State) (k : Package) : (s.setPackage k).cores = s.cores := rfl
@[simp] theorem State.setPackage_parts (s : State) (k : Package) : (s.setPackage k).parts = s.parts := rfl
@[simp] theorem State.setPackage_mem (s : State) (k : Package) : (s.setPackage k).mem = s.mem := rfl
@[simp] theorem State.setPackage_lasting (s : State) (k : Package) : (s.setPackage k).lasting = s.lasting := rfl
@[simp] theorem State.setPackage_stores (s : State) (k : Package) : (s.setPackage k).stores = s.stores := rfl
@[simp] theorem State.setPackage_lines (s : State) (k : Package) : (s.setPackage k).lines = s.lines := rfl
@[simp] theorem State.setPackage_items (s : State) (k : Package) : (s.setPackage k).items = s.items := rfl
@[simp] theorem State.setPackage_updates (s : State) (k : Package) : (s.setPackage k).updates = s.updates := rfl
@[simp] theorem State.setPackage_flights (s : State) (k : Package) : (s.setPackage k).flights = s.flights := rfl
@[simp] theorem State.setPackage_jobs (s : State) (k : Package) : (s.setPackage k).jobs = s.jobs := rfl
@[simp] theorem State.setPackage_colls (s : State) (k : Package) : (s.setPackage k).colls = s.colls := rfl
@[simp] theorem State.setPackage_services (s : State) (k : Package) : (s.setPackage k).services = s.services := rfl
@[simp] theorem State.setPackage_hostq (s : State) (k : Package) : (s.setPackage k).hostq = s.hostq := rfl
@[simp] theorem State.setPackage_hostOut (s : State) (k : Package) : (s.setPackage k).hostOut = s.hostOut := rfl
@[simp] theorem State.setPackage_contexts (s : State) (k : Package) : (s.setPackage k).contexts = s.contexts := rfl
@[simp] theorem State.setPackage_now (s : State) (k : Package) : (s.setPackage k).now = s.now := rfl
@[simp] theorem State.setPackage_nextId (s : State) (k : Package) : (s.setPackage k).nextId = s.nextId := rfl
@[simp] theorem State.setPackage_free (s : State) (k : Package) : (s.setPackage k).free = s.free := rfl
@[simp] theorem State.setPackage_cur (s : State) (k : Package) : (s.setPackage k).cur = s.cur := rfl
@[simp] theorem State.setPackage_late (s : State) (k : Package) : (s.setPackage k).late = s.late := rfl
@[simp] theorem State.setPackage_agenda (s : State) (k : Package) : (s.setPackage k).agenda = s.agenda := rfl
@[simp] theorem State.setPackage_package (s : State) (k : Package) : (s.setPackage k).package = k := rfl

@[simp] theorem State.enqueue_rounds (s : State) (n : Nat) (l : List (List Word)) : (s.enqueue n l).rounds = s.rounds := rfl
@[simp] theorem State.enqueue_teams (s : State) (n : Nat) (l : List (List Word)) : (s.enqueue n l).teams = s.teams := rfl
@[simp] theorem State.enqueue_gangs (s : State) (n : Nat) (l : List (List Word)) : (s.enqueue n l).gangs = s.gangs := rfl
@[simp] theorem State.enqueue_nodes (s : State) (n : Nat) (l : List (List Word)) : (s.enqueue n l).nodes = s.nodes := rfl
@[simp] theorem State.enqueue_dies (s : State) (n : Nat) (l : List (List Word)) : (s.enqueue n l).dies = s.dies := rfl
@[simp] theorem State.enqueue_cores (s : State) (n : Nat) (l : List (List Word)) : (s.enqueue n l).cores = s.cores := rfl
@[simp] theorem State.enqueue_mem (s : State) (n : Nat) (l : List (List Word)) : (s.enqueue n l).mem = s.mem := rfl
@[simp] theorem State.enqueue_lasting (s : State) (n : Nat) (l : List (List Word)) : (s.enqueue n l).lasting = s.lasting := rfl
@[simp] theorem State.enqueue_stores (s : State) (n : Nat) (l : List (List Word)) : (s.enqueue n l).stores = s.stores := rfl
@[simp] theorem State.enqueue_lines (s : State) (n : Nat) (l : List (List Word)) : (s.enqueue n l).lines = s.lines := rfl
@[simp] theorem State.enqueue_items (s : State) (n : Nat) (l : List (List Word)) : (s.enqueue n l).items = s.items := rfl
@[simp] theorem State.enqueue_updates (s : State) (n : Nat) (l : List (List Word)) : (s.enqueue n l).updates = s.updates := rfl
@[simp] theorem State.enqueue_flights (s : State) (n : Nat) (l : List (List Word)) : (s.enqueue n l).flights = s.flights := rfl
@[simp] theorem State.enqueue_jobs (s : State) (n : Nat) (l : List (List Word)) : (s.enqueue n l).jobs = s.jobs := rfl
@[simp] theorem State.enqueue_colls (s : State) (n : Nat) (l : List (List Word)) : (s.enqueue n l).colls = s.colls := rfl
@[simp] theorem State.enqueue_services (s : State) (n : Nat) (l : List (List Word)) : (s.enqueue n l).services = s.services := rfl
@[simp] theorem State.enqueue_hostq (s : State) (n : Nat) (l : List (List Word)) : (s.enqueue n l).hostq = s.hostq := rfl
@[simp] theorem State.enqueue_hostOut (s : State) (n : Nat) (l : List (List Word)) : (s.enqueue n l).hostOut = s.hostOut := rfl
@[simp] theorem State.enqueue_contexts (s : State) (n : Nat) (l : List (List Word)) : (s.enqueue n l).contexts = s.contexts := rfl
@[simp] theorem State.enqueue_package (s : State) (n : Nat) (l : List (List Word)) : (s.enqueue n l).package = s.package := rfl
@[simp] theorem State.enqueue_now (s : State) (n : Nat) (l : List (List Word)) : (s.enqueue n l).now = s.now := rfl
@[simp] theorem State.enqueue_nextId (s : State) (n : Nat) (l : List (List Word)) : (s.enqueue n l).nextId = s.nextId := rfl
@[simp] theorem State.enqueue_free (s : State) (n : Nat) (l : List (List Word)) : (s.enqueue n l).free = s.free := rfl
@[simp] theorem State.enqueue_cur (s : State) (n : Nat) (l : List (List Word)) : (s.enqueue n l).cur = s.cur := rfl
@[simp] theorem State.enqueue_late (s : State) (n : Nat) (l : List (List Word)) : (s.enqueue n l).late = s.late := rfl
@[simp] theorem State.enqueue_agenda (s : State) (n : Nat) (l : List (List Word)) : (s.enqueue n l).agenda = s.agenda := rfl

@[simp] theorem State.writeBytes_rounds (s : State) (l : List (Nat × Byte)) : (s.writeBytes l).rounds = s.rounds := rfl
@[simp] theorem State.writeBytes_teams (s : State) (l : List (Nat × Byte)) : (s.writeBytes l).teams = s.teams := rfl
@[simp] theorem State.writeBytes_gangs (s : State) (l : List (Nat × Byte)) : (s.writeBytes l).gangs = s.gangs := rfl
@[simp] theorem State.writeBytes_nodes (s : State) (l : List (Nat × Byte)) : (s.writeBytes l).nodes = s.nodes := rfl
@[simp] theorem State.writeBytes_dies (s : State) (l : List (Nat × Byte)) : (s.writeBytes l).dies = s.dies := rfl
@[simp] theorem State.writeBytes_cores (s : State) (l : List (Nat × Byte)) : (s.writeBytes l).cores = s.cores := rfl
@[simp] theorem State.writeBytes_parts (s : State) (l : List (Nat × Byte)) : (s.writeBytes l).parts = s.parts := rfl
@[simp] theorem State.writeBytes_stores (s : State) (l : List (Nat × Byte)) : (s.writeBytes l).stores = s.stores := rfl
@[simp] theorem State.writeBytes_lines (s : State) (l : List (Nat × Byte)) : (s.writeBytes l).lines = s.lines := rfl
@[simp] theorem State.writeBytes_items (s : State) (l : List (Nat × Byte)) : (s.writeBytes l).items = s.items := rfl
@[simp] theorem State.writeBytes_updates (s : State) (l : List (Nat × Byte)) : (s.writeBytes l).updates = s.updates := rfl
@[simp] theorem State.writeBytes_flights (s : State) (l : List (Nat × Byte)) : (s.writeBytes l).flights = s.flights := rfl
@[simp] theorem State.writeBytes_jobs (s : State) (l : List (Nat × Byte)) : (s.writeBytes l).jobs = s.jobs := rfl
@[simp] theorem State.writeBytes_colls (s : State) (l : List (Nat × Byte)) : (s.writeBytes l).colls = s.colls := rfl
@[simp] theorem State.writeBytes_services (s : State) (l : List (Nat × Byte)) : (s.writeBytes l).services = s.services := rfl
@[simp] theorem State.writeBytes_hostq (s : State) (l : List (Nat × Byte)) : (s.writeBytes l).hostq = s.hostq := rfl
@[simp] theorem State.writeBytes_hostOut (s : State) (l : List (Nat × Byte)) : (s.writeBytes l).hostOut = s.hostOut := rfl
@[simp] theorem State.writeBytes_contexts (s : State) (l : List (Nat × Byte)) : (s.writeBytes l).contexts = s.contexts := rfl
@[simp] theorem State.writeBytes_package (s : State) (l : List (Nat × Byte)) : (s.writeBytes l).package = s.package := rfl
@[simp] theorem State.writeBytes_now (s : State) (l : List (Nat × Byte)) : (s.writeBytes l).now = s.now := rfl
@[simp] theorem State.writeBytes_nextId (s : State) (l : List (Nat × Byte)) : (s.writeBytes l).nextId = s.nextId := rfl
@[simp] theorem State.writeBytes_free (s : State) (l : List (Nat × Byte)) : (s.writeBytes l).free = s.free := rfl
@[simp] theorem State.writeBytes_cur (s : State) (l : List (Nat × Byte)) : (s.writeBytes l).cur = s.cur := rfl
@[simp] theorem State.writeBytes_late (s : State) (l : List (Nat × Byte)) : (s.writeBytes l).late = s.late := rfl
@[simp] theorem State.writeBytes_agenda (s : State) (l : List (Nat × Byte)) : (s.writeBytes l).agenda = s.agenda := rfl

@[simp] theorem State.lastIssuer_rounds (s : State) (r : Round) : (s.lastIssuer r).rounds = s.rounds := rfl
@[simp] theorem State.lastIssuer_teams (s : State) (r : Round) : (s.lastIssuer r).teams = s.teams := rfl
@[simp] theorem State.lastIssuer_gangs (s : State) (r : Round) : (s.lastIssuer r).gangs = s.gangs := rfl
@[simp] theorem State.lastIssuer_nodes (s : State) (r : Round) : (s.lastIssuer r).nodes = s.nodes := rfl
@[simp] theorem State.lastIssuer_dies (s : State) (r : Round) : (s.lastIssuer r).dies = s.dies := rfl
@[simp] theorem State.lastIssuer_parts (s : State) (r : Round) : (s.lastIssuer r).parts = s.parts := rfl
@[simp] theorem State.lastIssuer_mem (s : State) (r : Round) : (s.lastIssuer r).mem = s.mem := rfl
@[simp] theorem State.lastIssuer_lasting (s : State) (r : Round) : (s.lastIssuer r).lasting = s.lasting := rfl
@[simp] theorem State.lastIssuer_stores (s : State) (r : Round) : (s.lastIssuer r).stores = s.stores := rfl
@[simp] theorem State.lastIssuer_lines (s : State) (r : Round) : (s.lastIssuer r).lines = s.lines := rfl
@[simp] theorem State.lastIssuer_items (s : State) (r : Round) : (s.lastIssuer r).items = s.items := rfl
@[simp] theorem State.lastIssuer_updates (s : State) (r : Round) : (s.lastIssuer r).updates = s.updates := rfl
@[simp] theorem State.lastIssuer_flights (s : State) (r : Round) : (s.lastIssuer r).flights = s.flights := rfl
@[simp] theorem State.lastIssuer_jobs (s : State) (r : Round) : (s.lastIssuer r).jobs = s.jobs := rfl
@[simp] theorem State.lastIssuer_colls (s : State) (r : Round) : (s.lastIssuer r).colls = s.colls := rfl
@[simp] theorem State.lastIssuer_services (s : State) (r : Round) : (s.lastIssuer r).services = s.services := rfl
@[simp] theorem State.lastIssuer_hostq (s : State) (r : Round) : (s.lastIssuer r).hostq = s.hostq := rfl
@[simp] theorem State.lastIssuer_hostOut (s : State) (r : Round) : (s.lastIssuer r).hostOut = s.hostOut := rfl
@[simp] theorem State.lastIssuer_contexts (s : State) (r : Round) : (s.lastIssuer r).contexts = s.contexts := rfl
@[simp] theorem State.lastIssuer_package (s : State) (r : Round) : (s.lastIssuer r).package = s.package := rfl
@[simp] theorem State.lastIssuer_now (s : State) (r : Round) : (s.lastIssuer r).now = s.now := rfl
@[simp] theorem State.lastIssuer_nextId (s : State) (r : Round) : (s.lastIssuer r).nextId = s.nextId := rfl
@[simp] theorem State.lastIssuer_free (s : State) (r : Round) : (s.lastIssuer r).free = s.free := rfl
@[simp] theorem State.lastIssuer_cur (s : State) (r : Round) : (s.lastIssuer r).cur = s.cur := rfl
@[simp] theorem State.lastIssuer_late (s : State) (r : Round) : (s.lastIssuer r).late = s.late := rfl
@[simp] theorem State.lastIssuer_agenda (s : State) (r : Round) : (s.lastIssuer r).agenda = s.agenda := rfl

@[simp] theorem State.setRound_rounds (s : State) (r : Round) : (s.setRound r).rounds = s.rounds.set s.cur r := rfl
@[simp] theorem State.setRoundAt_rounds (s : State) (n : Nat) (r : Round) : (s.setRoundAt n r).rounds = s.rounds.set n r := rfl
@[simp] theorem State.setTeam_teams (s : State) (n : Nat) (t : Team) : (s.setTeam n t).teams = s.teams.set n t := rfl
@[simp] theorem State.setDie_dies (s : State) (d : Nat) (x : Die) : (s.setDie d x).dies = s.dies.set d x := rfl
@[simp] theorem State.setGang_gangs (s : State) (g : Nat) (x : Gang) : (s.setGang g x).gangs = s.gangs.set g x := rfl
@[simp] theorem State.setCore_cores (s : State) (c : Nat) (x : Core) : (s.setCore c x).cores = SMap.set s.cores c x := rfl
@[simp] theorem State.writeBytes_mem (s : State) (l : List (Nat × Byte)) : (s.writeBytes l).mem = Memory.writeCells s.mem l := rfl

/-- A later round in the same place replaces an earlier one. -/
@[simp] theorem State.setRound_setRound (s : State) (a b : Round) : (s.setRound a).setRound b = s.setRound b := by
  simp [State.setRound, List.set_set]

/-- The issuing round after it has been replaced. -/
theorem State.issuing_setRound {s : State} {r : Round} (h : s.issuing = some r) (q : Round) : (s.setRound q).issuing = some q := by
  have h1 : s.rounds[s.cur]? = some r := h
  have h2 : s.cur < s.rounds.length := by
    rcases Nat.lt_or_ge s.cur s.rounds.length with h | h
    · exact h
    · simp [List.getElem?_eq_none h] at h1
  simp [State.issuing, State.setRound, h2]

end Sys2Proof.Machine
end

