-- ==== Sys2Proof/Laws/Ops.lean ====
section
/-! SUPPORT. What the shared course of an instruction does: stall, trap, start and end (R81, R85, R100, R106, R107, R322). -/
namespace Sys2Proof.Machine

theorem onRound_eq {s : State} {r : Round} (h : s.issuing = some r) (k : Round → Res) : onRound s k = k r := by
  simp [onRound, h]

/-- A stall only says what the round waits for. -/
theorem stall_next (s : State) (r : Round) (k : WaitKind) : stall s r k = .next (s.setRound { r with status := .waiting k }) := rfl

/-- Replacing the issuing round by itself changes nothing. -/
theorem State.setRound_self {s : State} {r : Round} (h : s.issuing = some r) : s.setRound r = s := by
  have h1 : s.rounds[s.cur]? = some r := h
  have h2 : s.rounds.set s.cur r = s.rounds := by
    apply List.ext_getElem?
    intro i
    rw [List.getElem?_set]
    split
    · subst_vars
      obtain ⟨h3, h4⟩ := List.getElem?_eq_some_iff.1 h1
      simp [h3, h4]
    · rfl
  simp [State.setRound, h2]

/-- The rows beside round n do not depend on round n. -/
theorem State.rowsBeside_set (s : State) (n : Nat) (x q : Round) :
    (s.setRoundAt n x).rowsBeside n q = s.rowsBeside n q := by
  unfold State.rowsBeside State.setRoundAt
  have key : ∀ (l : List Round) (k m : Nat) (p : Round → Bool), m + k = n →
      ((l.set m x).zipIdx k).filter (fun q => q.2 != n && p q.1) = (l.zipIdx k).filter (fun q => q.2 != n && p q.1) := by
    intro l
    induction l with
    | nil => intro k m p _; rfl
    | cons a l ih =>
      intro k m p hk
      cases m with
      | zero => simp at hk; subst hk; simp [List.zipIdx_cons]
      | succ m =>
        simp only [List.set_cons_succ, List.zipIdx_cons, List.filter_cons]
        rw [ih (k + 1) m p (by omega)]
  have h := key s.rounds 0 n (fun y => y.core == q.core && y.quadrant == q.quadrant && s.resident y) (by omega)
  simp only [← Bool.and_assoc] at h
  exact congrArg (List.foldl (fun acc (y : Round × Nat) => acc + y.1.rows) 0) h

/-- Whether rows fit depends on the rows that the round holds, not on the rest of it. -/
theorem State.rowsFit_setRound {s : State} {r : Round} (h : s.issuing = some r) (x q : Round) (hx : x.rows = r.rows) :
    (s.setRound x).rowsFit s.cur q = s.rowsFit s.cur q := by
  have h1 : s.rounds[s.cur]? = some r := h
  have h2 := State.issuing_setRound h x
  have h3 : (s.setRound x).rounds[s.cur]? = some x := h2
  have h4 := State.rowsBeside_set s s.cur x q
  unfold State.rowsFit
  rw [h1, h3]
  simp only [hx]
  have h5 : (s.setRound x).rowsBeside s.cur q = s.rowsBeside s.cur q := h4
  rw [h5]

theorem noteUnwritten_rows (b : Bool) (fs : List Field) (r : Round) : (noteUnwritten b fs r).rows = r.rows := rfl

/-- THE START of an instruction that nothing holds back. -/
theorem begin_eq {s : State} {r : Round} {g : Guard} {fs : List Field} {names : List Nat} (h : Starts s r fs names)
    (k : State → Round → Mask → List Lanes → Res) :
    begin s g fs names k =
      k (s.setRound (noteUnwritten (r.passing g != 0) fs r)) (noteUnwritten (r.passing g != 0) fs r) (r.passing g) (sources s r fs) := by
  obtain ⟨h1, _, h3, h4⟩ := h
  have h5 : (fs.flatMap (fun f => regNames f.1 1) ++ names).any (fun n => (s.pendingNames s.cur r).contains n) = false := by
    rw [List.any_eq_false]
    intro n hn
    simpa using h3 n hn
  simp only [begin, onRound_eq h1, h5, h4, sources, Bool.false_eq_true, if_false]

/-- What stands where the round gives way (R96) does not depend on what stood before in its place. -/
@[simp] theorem State.stand_setRound (s : State) (a b : Round) : (s.setRound a).stand b = s.stand b := by
  have h (x : Round) : ((s.setRound a).lastIssuer b).setRound x = (s.lastIssuer b).setRound x := by
    simp [State.setRound, State.lastIssuer, State.core, State.setCore]
  unfold State.stand
  split
  · exact h _
  · exact State.setRound_setRound ..

/-- A round that does not give way simply stands there. -/
theorem State.stand_eq (s : State) (r : Round) (h : r.yields = false ∨ r.clause.isSome = true) : s.stand r = s.setRound r := by
  unfold State.stand
  rw [if_neg]
  rcases h with h | h
  · simp [h]
  · simp only [Bool.and_eq_true, not_and, Option.isNone_iff_eq_none]
    intro _ h1
    simp [h1] at h

/-- THE END of an instruction whose effect on the rest of the state is the step from s0 to s: it completes where the rows are there. -/
theorem finish_eq {s0 s : State} {r0 r : Round} {fs : List Field} {write : Round → Round} (h0 : s0.issuing = some r0)
    (h : s.issuing = some r) (hf : s0.rowsFit s0.cur (write (settle fs r)) = true) :
    finish s0 s fs write = .next (s.stand (retire s.now (write (settle fs r)))) := by
  simp [finish, onRound_eq h0, onRound_eq h, commit, hf]

/-- A REGISTER INSTRUCTION completes with its write, and touches its own round only (R107). -/
theorem registerOnly_eq {s : State} {r : Round} {g : Guard} {fs : List Field} {names : List Nat}
    {write : Mask → List Lanes → Round → Round} (h : Starts s r fs names)
    (hf : RowsFit s (written s r g fs write)) :
    registerOnly s g fs names write = .next (retired s (written s r g fs write)) := by
  have h1 := h.1
  unfold registerOnly
  rw [begin_eq h]
  have h2 := State.issuing_setRound h1 (noteUnwritten (r.passing g != 0) fs r)
  have h3 : (if r.passing g = 0 then settle fs (noteUnwritten (r.passing g != 0) fs r)
      else write (r.passing g) (sources s r fs) (settle fs (noteUnwritten (r.passing g != 0) fs r))) = written s r g fs write := rfl
  have h4 : (s.setRound (noteUnwritten (r.passing g != 0) fs r)).rowsFit s.cur (written s r g fs write) = true := by
    rw [State.rowsFit_setRound h1 _ _ (noteUnwritten_rows _ _ _)]; exact hf
  rw [finish_eq h2 h2 (by simpa only [h3, State.setRound_cur] using h4)]
  simp only [h3, State.setRound_now, State.stand_setRound, retired]

/-- A register instruction with one destination (R107). -/
theorem compute_eq {s : State} {r : Round} {g : Guard} {fs : List Field} {d : Code} {f : Mask → List Lanes → Lanes}
    (h : Starts s r fs (regNames d 1))
    (hf : RowsFit s (written s r g fs (fun m xs => writeOperand m d (f m xs)))) :
    compute s g fs d f = .next (retired s (written s r g fs (fun m xs => writeOperand m d (f m xs)))) :=
  registerOnly_eq h hf

/-- What a started instruction finds (R84, R100). -/
theorem begin_started {s : State} {r : Round} {g : Guard} {fs : List Field} {names : List Nat} (h : Starts s r fs names)
    (k : State → Round → Mask → List Lanes → Res) :
    begin s g fs names k = k (s.begun r g fs) (r.noted g fs) (r.passing g) (sources s r fs) := begin_eq h k

theorem begun_issuing {s : State} {r : Round} {fs : List Field} {names : List Nat} (h : Starts s r fs names) (g : Guard)
    (fs' : List Field) : (s.begun r g fs').issuing = some (r.noted g fs') := State.issuing_setRound h.1 _

@[simp] theorem begun_cur (s : State) (r : Round) (g : Guard) (fs : List Field) : (s.begun r g fs).cur = s.cur := rfl

/-- An instruction without source fields notes nothing. -/
@[simp] theorem noted_nil (r : Round) (g : Guard) : r.noted g [] = r := by simp [Round.noted, noteUnwritten]

theorem begun_nil {s : State} {r : Round} (h : s.issuing = some r) (g : Guard) : s.begun r g [] = s := by
  simp [State.begun, State.setRound_self h]

/-- THE END, with the rows there: the next state is that of the effect, with the round past its instruction. -/
theorem finish_done {b e : State} {q : Round} {fs : List Field} {write : Round → Round} (h : b.issuing = some q)
    (hf : Fits b e fs write) : finish b e fs write = .next (e.done fs write) := by
  obtain ⟨p, hp, hr⟩ := hf
  rw [finish_eq h hp hr, State.done, hp]

/-- A TRAP parks the round with its record and, for a user round, adds one entry to its partition's queue (R106, R322). -/
theorem takeTrap_eq (s : State) (r : Round) (cause : Nat) (i0 i1 i2 : Word) (m : Mask) :
    takeTrap s r cause i0 i1 i2 m =
      .next (parkTrap s r { cause := cause, index := r.ix, h := r.h, info0 := i0, info1 := i1, info2 := i2, mask := m } true r.ix) := rfl

/-- A trap leaves memory, the teams and the other rounds as they are. -/
@[simp] theorem parkTrap_mem (s : State) (r : Round) (t : TrapRec) (c : Bool) (n : Nat) : (parkTrap s r t c n).mem = s.mem := by
  unfold parkTrap; dsimp only; split <;> rfl
@[simp] theorem parkTrap_teams (s : State) (r : Round) (t : TrapRec) (c : Bool) (n : Nat) : (parkTrap s r t c n).teams = s.teams := by
  unfold parkTrap; dsimp only; split <;> rfl
theorem parkTrap_rounds (s : State) (r : Round) (t : TrapRec) (c : Bool) (n : Nat) :
    (parkTrap s r t c n).rounds = s.rounds.set s.cur
      { r with
        replies := [], remote := [], wave := 0
        status := .parked { service := false, trap := t, die := s.dieOf r, pages := [], asked := [], canStep := c, resume := n } } := by
  unfold parkTrap; dsimp only; split <;> rfl

end Sys2Proof.Machine
end

