-- ==== Sys2Proof/Laws/MemOps.lean ====
section
/-! SUPPORT. What the checks and releases of memory accesses do (R151, R288, R289, R297, R394). -/
namespace Sys2Proof.Machine

/-- A check that every lane passes goes on. -/
theorem checkLanes_pass (s : State) (r : Round) (c : Nat) (i : Word) {lanes : List (Nat × Word)} {ok : Nat × Word → Bool} (k : Res)
    (h : ∀ p ∈ lanes, ok p = true) : checkLanes s r c i lanes ok k = k := by
  have h1 : lanes.filter (fun p => !ok p) = [] := by
    rw [List.filter_eq_nil_iff]
    intro p hp
    simp [h p hp]
  simp [checkLanes, h1]

/-- A check that some lane fails traps with the value of the lowest failing lane and the mask of them all (R394). -/
theorem checkLanes_fail (s : State) (r : Round) (c : Nat) (i : Word) {lanes bs : List (Nat × Word)} {b : Nat × Word}
    {ok : Nat × Word → Bool} (k : Res) (h : lanes.filter (fun p => !ok p) = b :: bs) :
    checkLanes s r c i lanes ok k = takeTrap s r c b.2 i 0 (maskOf (fun l => (b :: bs).any (fun x => x.1 == l))) := by
  simp [checkLanes, h]

/-- Pages that all translate go on with their physical addresses. -/
theorem withPages_ok {s : State} {r : Round} {m : Mask} {w : Bool} {z : Nat} {lanes : List (Nat × Word)} {pas : List (Nat × List Nat)}
    (k : List (Nat × List Nat) → Res) (h : translateLanes (s.xlat r w) z lanes = .ok pas) : withPages s r m w z lanes k = k pas := by
  simp [withPages, h]

/-- Clean sectors go on (R289). -/
theorem withClean_ok {s : State} {r : Round} {pas : List (Nat × List Nat)} (k : Res) (h : CleanLanes s pas) : withClean s r pas k = k := by
  have h1 : pas.filterMap (fun p => (p.2.find? s.isLasting).map (fun pa => (p.1, pa))) = [] := by
    rw [List.filterMap_eq_nil_iff]
    intro p hp
    have h2 : p.2.find? s.isLasting = none := by
      rw [List.find?_eq_none]
      intro a ha
      simp [h p hp a ha]
    simp [h2]
  simp [withClean, h1]

/-- Addresses outside every shadow go on (R270). -/
theorem checkShadow_ok {s : State} {r : Round} {z : Nat} {lanes : List (Nat × Word)} (k : Res)
    (h : ∀ p ∈ lanes, (s.teamOf r).shadowed p.2.toNat z = false) : checkShadow s r z lanes k = k := by
  have h1 : lanes.filter (fun p => (s.teamOf r).shadowed p.2.toNat z) = [] := by
    rw [List.filter_eq_nil_iff]
    intro p hp
    simp [h p hp]
  simp [checkShadow, h1]

/-- Scratchpad addresses that the rules allow go on (R151, R270). -/
theorem checkSpad_ok {s : State} {r : Round} {z : Nat} {lanes : List (Nat × Word)} (k : Res) (h : SpadOk s r z lanes) :
    checkSpad s r z lanes k = k := by
  unfold checkSpad
  rw [checkLanes_pass _ _ _ _ _ (fun p hp => by simp [(h p hp).1]), checkShadow_ok _ (fun p hp => (h p hp).2.1),
    checkLanes_pass _ _ _ _ _ (fun p hp => (h p hp).2.2)]

/-- Areas whose runs the rules allow go on (R151, R270). -/
theorem withAreas_ok {s : State} {r : Round} {m : Mask} {areas : List (Word × List (Word × Nat))} (k : Res)
    (h : ∀ x ∈ areas, ∀ y ∈ x.2, AreaOk s r y.1 y.2) : withAreas s r m areas k = k := by
  have h1 : (areas.flatMap (fun x => x.2)).filter (fun x => (s.teamOf r).shadowed x.1.toNat x.2) = [] := by
    rw [List.filter_eq_nil_iff]
    intro y hy
    obtain ⟨x, hx, hy⟩ := List.mem_flatMap.1 hy
    simp [(h x hx y hy).1]
  have h2 : areas.find? (fun x => x.2.any (fun y => decide (0 < y.2) && !(s.teamOf r).holds y.1.toNat y.2)) = none := by
    rw [List.find?_eq_none]
    intro x hx
    simp only [List.any_eq_true, not_exists, not_and]
    intro y hy
    by_cases hz : 0 < y.2 <;> simp [hz, (h x hx y hy).2]
  simp only [withAreas, h1, h2]

/-- An area that the rules allow goes on. -/
theorem withArea_ok {s : State} {r : Round} {m : Mask} {a : Word} {z : Nat} (k : Res) (h : AreaOk s r a z) : withArea s r m a z k = k :=
  withAreas_ok k (by simpa using h)

/-- A release that need not wait goes on in the state that it leaves (R297, R300, R372). -/
theorem withRelease_ok {s : State} {r : Round} {scope : Nat} {fence : Bool} {m : Mask} (k : State → Res) (hi : s.issuing = some r)
    (h : s.Releases r scope fence) : withRelease s scope fence m k = k (s.afterRelease r scope fence) := by
  unfold withRelease
  rw [onRound_eq hi]
  by_cases h6 : s.effScope r scope = 6
  · obtain ⟨h1, q, h2, h3⟩ := h h6
    simp only [State.afterRelease, h6, if_true, Bool.or_true, decide_true] at h1 h2 ⊢
    simp only [h1, if_true, onRound_eq h2, h3]
  · simp only [State.afterRelease, h6, if_false]

/-- An access of release semantics goes on after its release; another goes on at once (R54). -/
theorem withSemRelease_ok {s : State} {r : Round} {rel : Bool} {scope : Nat} {m : Mask} (k : State → Res) (hi : s.issuing = some r)
    (h : rel = true → s.Releases r scope false) : withSemRelease s rel scope m k = k (s.semReleased r rel scope) := by
  cases rel
  · rfl
  · exact withRelease_ok k hi (h rfl)

end Sys2Proof.Machine
end

