-- ==== Sys2Proof/Laws/Engines.lean ====
section
/-! SUPPORT. What the checks of copies, layouts, the matrix engine and the drain do when they pass (R163, R185, R208, R209, R213, R225). -/
namespace Sys2Proof.Machine

/-- The scratchpad sides of a copy go on where the rules allow them. -/
theorem sides_ok {s : State} {r : Round} {m : Mask} {l : List (Nat × Word × Nat)} (k : Res)
    (h : ∀ x ∈ l, x.1 = 1 → AreaOk s r x.2.1 x.2.2) : withAreas s r m (sides l) k = k := by
  refine withAreas_ok k (fun x hx y hy => ?_)
  obtain ⟨z, hz, rfl⟩ := List.mem_map.1 hx
  obtain ⟨hz, hk⟩ := List.mem_filter.1 hz
  simp only [List.mem_singleton] at hy
  subst hy
  exact h z hz (by simpa using hk)

theorem layoutAddress_ok {s : State} {r : Round} {k : Nat} {spad write : Bool} {m : Mask} {a : Word} {pas : List Nat}
    (go : List Nat → Res) (h : LayoutAt s r spad write m a pas) : layoutAddress s r k spad write m a go = go pas := by
  obtain ⟨h1, h2⟩ := h
  unfold layoutAddress
  cases spad
  · simp only [Bool.false_eq_true, if_false] at h2 ⊢
    obtain ⟨ps, h3, h4⟩ := h2
    rw [if_neg (by simp [h1]), withPages_ok _ h3, h4]
  · simp only [if_true] at h2 ⊢
    rw [if_neg (by simp [h1]), withArea_ok _ h2.1, h2.2]

theorem withShape_ok (s : State) (r : Round) (k : Nat) {reason : Option Nat} (m : Mask) (go : Res) (h : reason = none) :
    withShape s r k reason m go = go := by simp [withShape, h]

theorem withElements_ok {s : State} {r : Round} {k : Nat} {w : List Word} {m : Mask} {lanes : List (Nat × Word)} (go : Res)
    (h : ElementsOk s r w lanes) : withElements s r k w m lanes go = go := by
  obtain ⟨h1, h2, h3⟩ := h
  unfold withElements withIndices
  rw [withShape_ok _ _ _ _ _ h1, withAreas_ok, checkLanes_pass _ _ _ _ _ (fun p hp => by simpa using h2 p hp)]
  intro x hx y hy
  split at hx
  · next hk => simp only [List.mem_singleton] at hx; subst hx; simp only [List.mem_singleton] at hy; subst hy; exact h3 hk
  · simp at hx

theorem withSlots_ok {s : State} {r : Round} {m : Mask} {h n : Nat} {slots : List Nat} (k : List Nat → Res)
    (ho : SlotsOk s r h n slots) : withSlots s r m h n k = k slots := by
  obtain ⟨h1, h2⟩ := ho
  unfold withSlots
  simp only [← h1]
  rw [if_neg, List.find?_eq_none.2]
  · intro x hx; simpa using (h2 x hx).2
  · simp only [List.any_eq_true, decide_eq_true_eq, not_exists, not_and]
    exact fun x hx => Nat.not_le.2 (h2 x hx).1

theorem withPartial_ok {s : State} {r : Round} {m : Mask} {z : Nat} {p : PartialSlot} (k : PartialSlot → Res) (h : PartialAt s r z p) :
    withPartial s r m z k = k p := by
  unfold withPartial
  simp only [Nat.not_le.2 h.1, if_false, ← h.2]

theorem withTileArea_ok {s : State} {r : Round} {m : Mask} {a : Word} {n : Nat} (k : Res) (h : TileAt s r a n) :
    withTileArea s r m a n k = k := by
  unfold withTileArea
  rw [if_neg (by simp [h.1]), withArea_ok _ h.2]

theorem withAlign_ok {s : State} {r : Round} {m : Mask} {a : Word} {n : Nat} (k : Res) (h : a.toNat % n = 0) :
    withAlign s r m a n k = k := by simp [withAlign, h]

theorem withDrainPages_ok {s : State} {r : Round} {m : Mask} {runs : List (Bool × Word × Nat)} (k : Res)
    (h : ∀ x ∈ runs, ∃ pas, s.runXlat r x.1 x.2 = .ok pas) : withDrainPages s r m runs k = k := by
  unfold withDrainPages
  simp only
  split
  · next hf =>
    obtain ⟨y, hy, he⟩ := List.exists_of_findSome?_eq_some hf
    obtain ⟨x, hx, rfl⟩ := List.mem_map.1 hy
    obtain ⟨pas, hp⟩ := h x hx
    simp [hp] at he
  · split
    · next hf =>
      have hm := List.mem_filterMap.1 (hf ▸ List.mem_cons_self)
      obtain ⟨y, hy, he⟩ := hm
      obtain ⟨x, hx, rfl⟩ := List.mem_map.1 hy
      obtain ⟨pas, hp⟩ := h x hx
      simp [hp] at he
    · rw [if_neg]
      simp only [List.any_eq_true, not_exists, not_and]
      intro y hy
      obtain ⟨x, hx, rfl⟩ := List.mem_map.1 hy
      obtain ⟨pas, hp⟩ := h x hx
      simp [hp]

/-- A read of the scratchpad goes on with the bytes (R157, R284). -/
theorem withSpad_ok {s e : State} {q : Round} {addrs : List Nat} {b : List Byte} (k : State → Round → List Byte → Res)
    (h : SpadRead s addrs e q b) : withSpad s addrs k = k e q b := by
  obtain ⟨h1, h2, h3⟩ := h
  subst h1 h3
  unfold withSpad
  simp only [onRound_eq h2, State.pointRead, if_true]

theorem withDrainChecks_ok {s : State} {r : Round} {m : Mask} {h : Nat} {d : DrainDesc} {slots : List Nat}
    (k : DrainDesc → List Nat → Res) (ho : DrainOk s r h d slots) : withDrainChecks s r m h d k = k d slots := by
  obtain ⟨h3, h4, h5, h6, h7, h8, h9, h10, h11, h12, h13⟩ := ho
  unfold withDrainChecks
  rw [withSlots_ok _ h3, if_neg (by rcases h4 with h4 | h4 <;> simp [h4, h5, h6]), if_neg (by simp [h7]), if_neg h8, if_neg (by simp [h9]),
    withAreas_ok, withDrainPages_ok]
  · unfold withCleanRuns
    by_cases h14 : d.rkind = 1
    · simp [h14]
    · have h15 := h13.resolve_left h14
      have h16 : (d.resRuns.flatMap (fun x => runPas (s.runXlat r false x))).find? s.isLasting = none := by
        rw [List.find?_eq_none]
        intro pa hpa
        obtain ⟨x, hx, hp⟩ := List.mem_flatMap.1 hpa
        simp [h15 x hx pa hp]
      simp [h14, h16]
  · intro x hx
    rcases List.mem_append.1 hx with hx | hx
    · split at hx
      · next hk =>
        obtain ⟨y, hy, rfl⟩ := List.mem_map.1 hx
        exact h11 y (by simp [hk, hy])
      · simp at hx
    · split at hx
      · next hk =>
        obtain ⟨y, hy, rfl⟩ := List.mem_map.1 hx
        exact h12 y (by simp [hk, hy])
      · simp at hx
  · intro x hx y hy
    simp only [List.mem_cons, List.not_mem_nil, or_false] at hx
    rcases hx with rfl | rfl | rfl
    · exact h10 y (List.mem_append_left _ (List.mem_append_left _ hy))
    · exact h10 y (List.mem_append_left _ (List.mem_append_right _ hy))
    · exact h10 y (List.mem_append_right _ hy)

end Sys2Proof.Machine
end

