-- ==== Sys2Proof/Laws/Fabric.lean ====
section
/-! SUPPORT. What the checks of the graph, the fabric, the Courier, the collectives and the system instructions do when they pass
(R288, R289, R317, R351, R365, R369, R371, R380). -/
namespace Sys2Proof.Machine

/-- A release that is not at system scope never waits (R297). -/
theorem releases_near (s : State) (r : Round) (scope : Nat) (fence : Bool) (h : scope ≠ 6) : s.Releases r scope fence := by
  intro h6
  unfold State.effScope at h6
  split at h6 <;> omega

/-- A range that translates and is clean goes on with its physical addresses. -/
theorem pagesAt_ok {s : State} {r : Round} {w : Bool} {l : Nat} {a : Word} {n : Nat} {pas : List Nat} {m : Mask} (k : List (Nat × List Nat) → Res)
    (h : PagesAt s r w l a n pas) :
    ∃ ps, pas = pasOf ps l ∧ withPages s r m w n [(l, a)] (fun pas => withClean s r pas (k pas)) = k ps := by
  obtain ⟨ps, h1, h2, h3⟩ := h
  exact ⟨ps, h3, by rw [withPages_ok _ h1, withClean_ok _ h2]⟩

/-- A manifest instruction goes on at the home slice (R317). -/
theorem onManifest_ok {s : State} {r : Round} {m : Mask} {a : Word} {pas : List Nat} (k : State → List Nat → Res)
    (hi : s.issuing = some r) (h : PagesAt s r true ((lowestLane m).getD 0) a manifestSize pas) :
    onManifest s r m a k = k (s.atManifest r pas) pas := by
  unfold onManifest
  simp only
  obtain ⟨ps, e1, e2⟩ := pagesAt_ok (m := m) (fun ps => withRelease s 5 false m (fun s =>
    k (s.loadNow r (pasOf ps ((lowestLane m).getD 0))) (pasOf ps ((lowestLane m).getD 0)))) h
  rw [e2, withRelease_ok _ hi (releases_near _ _ _ _ (by decide)), ← e1]
  rfl

/-- A plain load for the whole instruction goes on with its bytes (R284, R288, R289). -/
theorem withLoad_ok {s e : State} {r q : Round} {m : Mask} {a : Word} {n : Nat} {b : List Byte} (k : State → Round → List Byte → Res)
    (h : LoadsAt s r m a n e q b) : withLoad s r m a n k = k e q b := by
  obtain ⟨pas, h1, h2, h3, h4, h5⟩ := h
  unfold withLoad
  rw [withPages_ok _ h1, withClean_ok _ h2]
  simp only [← h3, onRound_eq h4, h5, State.bytesOf]

end Sys2Proof.Machine
end

