-- ==== Sys2Proof/Laws/Integer.lean ====
section
/-! SUPPORT. Elements of packed words, and the clamps and signs of the integer operations (R10, R108, R109). -/
namespace Sys2Proof.Machine

/-- A packed number splits into its digits. -/
theorem packed_digit (e : Nat) (l : List Nat) (j : Nat) :
    l.foldr (fun x acc => x % 2 ^ e + 2 ^ e * acc) 0 / 2 ^ (e * j) % 2 ^ e = l.getD j 0 % 2 ^ e := by
  induction l generalizing j with
  | nil => simp
  | cons a l ih =>
    cases j with
    | zero => simp [Nat.add_mul_mod_self_left]
    | succ j =>
      have h : (a % 2 ^ e + 2 ^ e * l.foldr (fun x acc => x % 2 ^ e + 2 ^ e * acc) 0) / 2 ^ e
          = l.foldr (fun x acc => x % 2 ^ e + 2 ^ e * acc) 0 := by
        rw [Nat.add_mul_div_left _ _ (Nat.two_pow_pos e), Nat.div_eq_of_lt (Nat.mod_lt _ (Nat.two_pow_pos e)), Nat.zero_add]
      rw [List.foldr_cons, Nat.mul_succ, Nat.add_comm (e * j) e, Nat.pow_add, ← Nat.div_div_eq_div_mul, h, ih]
      simp

/-- A packed number fits the width of its digits. -/
theorem packed_lt (e : Nat) (l : List Nat) : l.foldr (fun x acc => x % 2 ^ e + 2 ^ e * acc) 0 < 2 ^ (e * l.length) := by
  induction l with
  | nil => simp
  | cons a l ih =>
    rw [List.foldr_cons, List.length_cons, Nat.mul_succ, Nat.add_comm (e * l.length) e, Nat.pow_add]
    have h1 := Nat.mod_lt a (Nat.two_pow_pos e)
    calc _ < 2 ^ e + 2 ^ e * l.foldr (fun x acc => x % 2 ^ e + 2 ^ e * acc) 0 := Nat.add_lt_add_right h1 _
      _ = 2 ^ e * (l.foldr (fun x acc => x % 2 ^ e + 2 ^ e * acc) 0 + 1) := by rw [Nat.mul_add, Nat.mul_one, Nat.add_comm]
      _ ≤ _ := Nat.mul_le_mul_left _ ih

/-- Element j of a packed word is the j-th value (R108). -/
theorem elem_packElems {e : Nat} {l : List Nat} (h : e * l.length ≤ 64) (j : Nat) : elem e (packElems e l) j = l.getD j 0 % 2 ^ e := by
  unfold elem packElems
  rw [BitVec.toNat_ofNat, Nat.mod_eq_of_lt (Nat.lt_of_lt_of_le (packed_lt e l) (Nat.pow_le_pow_right (by omega) h)), packed_digit]

/-- Element j of an element-wise result is the operation on elements j (R108). -/
theorem elem_mapElems2 {e : Nat} (f : Nat → Nat → Nat) (x y : Word) {j : Nat} (h : j < 64 / e) :
    elem e (mapElems2 e f x y) j = f (elem e x j) (elem e y j) % 2 ^ e := by
  unfold mapElems2
  rw [elem_packElems (by simp [Nat.mul_div_le])]
  simp [List.getD_eq_getElem?_getD, List.getElem?_map, List.getElem?_range h]

theorem elem_mapElems1 {e : Nat} (f : Nat → Nat) (x : Word) {j : Nat} (h : j < 64 / e) :
    elem e (mapElems1 e f x) j = f (elem e x j) % 2 ^ e := by
  unfold mapElems1
  rw [elem_packElems (by simp [Nat.mul_div_le])]
  simp [List.getD_eq_getElem?_getD, List.getElem?_map, List.getElem?_range h]

theorem elem_mapElems3 {e : Nat} (f : Nat → Nat → Nat → Nat) (x y z : Word) {j : Nat} (h : j < 64 / e) :
    elem e (mapElems3 e f x y z) j = f (elem e x j) (elem e y j) (elem e z j) % 2 ^ e := by
  unfold mapElems3
  rw [elem_packElems (by simp [Nat.mul_div_le])]
  simp [List.getD_eq_getElem?_getD, List.getElem?_map, List.getElem?_range h]

theorem elem_lt (e : Nat) (x : Word) (j : Nat) : elem e x j < 2 ^ e := Nat.mod_lt _ (Nat.two_pow_pos e)

/-- The signed reading of a pattern is that of its bit vector (R10). -/
theorem sextN_eq_toInt {e : Nat} (he : 0 < e) (a : Nat) : sextN a e = (BitVec.ofNat e a).toInt := by
  obtain ⟨n, rfl⟩ : ∃ n, e = n + 1 := ⟨e - 1, by omega⟩
  unfold sextN
  rw [BitVec.toInt_eq_toNat_cond, BitVec.toNat_ofNat]
  simp only [Nat.add_sub_cancel]
  have : 2 * (a % 2 ^ (n + 1)) < 2 ^ (n + 1) ↔ a % 2 ^ (n + 1) < 2 ^ n := by rw [Nat.pow_succ]; omega
  simp only [this]
  split <;> simp

theorem sextN_toNat {e : Nat} (he : 0 < e) (a : BitVec e) : sextN a.toNat e = a.toInt := by
  rw [sextN_eq_toInt he, BitVec.ofNat_toNat, BitVec.setWidth_eq]

/-- A wrapped integer is a pattern of its width (R109). -/
theorem wrapI_lt (e : Nat) (x : Int) : wrapI e x < 2 ^ e := by
  unfold wrapI
  have h : (0 : Int) < (2 ^ e : Nat) := by exact_mod_cast Nat.two_pow_pos e
  have h1 := Int.emod_lt_of_pos x h
  have h2 := Int.emod_nonneg x (Int.ne_of_gt h)
  omega

theorem ofNat_wrapI (e : Nat) (x : Int) : BitVec.ofNat e (wrapI e x) = BitVec.ofInt e x := by
  apply BitVec.eq_of_toNat_eq
  rw [BitVec.toNat_ofNat, Nat.mod_eq_of_lt (wrapI_lt e x), BitVec.toNat_ofInt]
  rfl

/-- A clamped integer reads back as the clamp (R109). -/
theorem toInt_ssat {e : Nat} (he : 0 < e) (x : Int) :
    (BitVec.ofNat e (ssat e x)).toInt = max (-(2 ^ (e - 1))) (min (2 ^ (e - 1) - 1) x) := by
  obtain ⟨n, rfl⟩ : ∃ n, e = n + 1 := ⟨e - 1, by omega⟩
  unfold ssat
  rw [ofNat_wrapI, BitVec.toInt_ofInt]
  simp only [Nat.add_sub_cancel]
  have hp : (0 : Int) < 2 ^ n := by exact_mod_cast Nat.two_pow_pos n
  push_cast
  apply Int.bmod_eq_of_le <;> rw [Nat.pow_succ] <;> push_cast <;> omega

end Sys2Proof.Machine
end

