-- ==== Sys2Proof/Laws/Memory.lean ====
section
/-! SUPPORT. Sorted maps and memories: read after write, and the canonical form (R149, R284, R336). -/
namespace Sys2Proof.Machine

variable {α : Type}

theorem SMap.rising_mono {lo hi : Nat} {m : SMap α} (h : SMap.rising hi m = true) (hl : lo ≤ hi) : SMap.rising lo m = true := by
  cases m with
  | nil => rfl
  | cons p r => simp [SMap.rising] at h ⊢; exact ⟨by omega, h.2⟩

theorem SMap.find_set (m : SMap α) (k j : Nat) (a : α) : SMap.find (SMap.set m k a) j = if k = j then some a else SMap.find m j := by
  induction m with
  | nil => simp [SMap.set, SMap.find]
  | cons p r ih =>
    simp only [SMap.set]
    split
    · simp [SMap.find]
    · split
      · subst_vars; simp only [SMap.find]; split <;> simp_all
      · simp only [SMap.find, ih]; split <;> split <;> simp_all

theorem SMap.find_none_of_rising {lo k : Nat} {m : SMap α} (h : SMap.rising lo m = true) (hk : k < lo) : SMap.find m k = none := by
  induction m generalizing lo with
  | nil => rfl
  | cons p r ih =>
    simp [SMap.rising] at h
    simp only [SMap.find]
    split
    · omega
    · exact ih h.2 (by omega)

theorem SMap.find_erase {lo : Nat} {m : SMap α} (h : SMap.rising lo m = true) (k j : Nat) :
    SMap.find (SMap.erase m k) j = if k = j then none else SMap.find m j := by
  induction m generalizing lo with
  | nil => simp [SMap.erase, SMap.find]
  | cons p r ih =>
    simp [SMap.rising] at h
    simp only [SMap.erase]
    split
    · rename_i hp
      split
      · subst_vars; exact SMap.find_none_of_rising h.2 (by omega)
      · simp only [SMap.find]; split <;> simp_all
    · simp only [SMap.find, ih h.2]; split <;> split <;> simp_all

theorem SMap.rising_set {lo : Nat} {m : SMap α} (h : SMap.rising lo m = true) (k : Nat) (a : α) (hk : lo ≤ k) :
    SMap.rising lo (SMap.set m k a) = true := by
  induction m generalizing lo with
  | nil => simp [SMap.set, SMap.rising, hk]
  | cons p r ih =>
    simp [SMap.rising] at h
    simp only [SMap.set]
    split
    · simp [SMap.rising, hk, h.2]; omega
    · split
      · subst_vars; simp [SMap.rising, h]
      · simp [SMap.rising, h.1]; exact ih h.2 (by omega)

theorem SMap.rising_erase {lo : Nat} {m : SMap α} (h : SMap.rising lo m = true) (k : Nat) : SMap.rising lo (SMap.erase m k) = true := by
  induction m generalizing lo with
  | nil => rfl
  | cons p r ih =>
    simp [SMap.rising] at h
    simp only [SMap.erase]
    split
    · exact SMap.rising_mono h.2 (by omega)
    · simp [SMap.rising, h.1, ih h.2]

/-- Setting keeps the order of a map. -/
theorem SMap.wf_set {m : SMap α} (h : SMap.wf m = true) (k : Nat) (a : α) : SMap.wf (SMap.set m k a) = true :=
  SMap.rising_set h k a (Nat.zero_le k)

/-- Removing keeps the order of a map. -/
theorem SMap.wf_erase {m : SMap α} (h : SMap.wf m = true) (k : Nat) : SMap.wf (SMap.erase m k) = true := SMap.rising_erase h k

theorem SMap.mem_set {m : SMap α} {k : Nat} {a : α} {x : Nat × α} (h : x ∈ SMap.set m k a) : x = (k, a) ∨ x ∈ m := by
  induction m with
  | nil => simp [SMap.set] at h; exact Or.inl h
  | cons p r ih =>
    simp only [SMap.set] at h
    split at h
    · rcases List.mem_cons.1 h with h | h
      · exact Or.inl h
      · exact Or.inr h
    · split at h
      · simp at h; rcases h with h | h
        · exact Or.inl h
        · exact Or.inr (by simp [h])
      · simp at h; rcases h with h | h
        · exact Or.inr (by simp [h])
        · rcases ih h with h | h
          · exact Or.inl h
          · exact Or.inr (by simp [h])

theorem SMap.mem_erase {m : SMap α} {k : Nat} {x : Nat × α} (h : x ∈ SMap.erase m k) : x ∈ m := by
  induction m with
  | nil => simp [SMap.erase] at h
  | cons p r ih =>
    simp only [SMap.erase] at h
    split at h
    · simp [h]
    · simp at h; rcases h with h | h
      · simp [h]
      · simp [ih h]

/-- A write keeps the canonical form. -/
theorem Memory.wf_write {m : Memory} (h : Memory.wf m = true) (a : Nat) (b : Byte) : Memory.wf (Memory.write m a b) = true := by
  simp only [Memory.wf, Bool.and_eq_true, List.all_eq_true, bne_iff_ne, ne_eq] at h ⊢
  unfold Memory.write
  split
  · exact ⟨SMap.wf_erase h.1 a, fun x hx => h.2 x (SMap.mem_erase hx)⟩
  · refine ⟨SMap.wf_set h.1 a b, fun x hx => ?_⟩
    rcases SMap.mem_set hx with e | e
    · rw [e]; assumption
    · exact h.2 x e

theorem Memory.wf_writeList {m : Memory} (h : Memory.wf m = true) (a : Nat) (l : List Byte) :
    Memory.wf (Memory.writeList m a l) = true := by
  induction l generalizing m a with
  | nil => exact h
  | cons b bs ih => exact ih (Memory.wf_write h a b) (a + 1)

theorem Memory.wf_writeCells {m : Memory} (h : Memory.wf m = true) (l : List (Nat × Byte)) :
    Memory.wf (Memory.writeCells m l) = true := by
  induction l generalizing m with
  | nil => exact h
  | cons c cs ih => exact ih (Memory.wf_write h c.1 c.2)

theorem Memory.wf_filter {m : Memory} (h : Memory.wf m = true) (p : Nat × Byte → Bool) : Memory.wf (m.filter p) = true := by
  simp only [Memory.wf, Bool.and_eq_true, List.all_eq_true] at h ⊢
  refine ⟨?_, fun x hx => h.2 x ((List.mem_filter.1 hx).1)⟩
  have key : ∀ (lo : Nat) (l : Memory), SMap.rising lo l = true → SMap.rising lo (l.filter p) = true := by
    intro lo l
    induction l generalizing lo with
    | nil => intro _; rfl
    | cons c cs ih =>
      intro hr
      simp [SMap.rising] at hr
      by_cases hp : p c = true
      · simp [hp, SMap.rising, hr.1, ih _ hr.2]
      · simp [hp]; exact ih lo (SMap.rising_mono hr.2 (by omega))
  exact key 0 m h.1

/-- READ AFTER WRITE: a byte reads as it was last written, and every other byte as before. -/
theorem Memory.read_write {m : Memory} (h : Memory.wf m = true) (a j : Nat) (b : Byte) :
    Memory.read (Memory.write m a b) j = if a = j then b else Memory.read m j := by
  simp only [Memory.wf, Bool.and_eq_true] at h
  unfold Memory.read Memory.write SMap.get
  split
  · rename_i hb
    rw [SMap.find_erase h.1]
    split <;> simp [hb]
  · rw [SMap.find_set]
    split <;> simp

/-- Bytes outside those written read as before. -/
theorem Memory.read_writeCells {m : Memory} (h : Memory.wf m = true) (l : List (Nat × Byte)) (j : Nat)
    (hj : ∀ c ∈ l, c.1 ≠ j) : Memory.read (Memory.writeCells m l) j = Memory.read m j := by
  induction l generalizing m with
  | nil => rfl
  | cons c cs ih =>
    simp only [Memory.writeCells]
    rw [ih (Memory.wf_write h _ _) (fun x hx => hj x (by simp [hx])), Memory.read_write h]
    simp [hj c (by simp)]

end Sys2Proof.Machine
end

