-- ==== Sys2Proof/Laws/PerInstr.lean ====
section
/-! SUPPORT. Per instruction: the word of an instruction carries its opcode in OPC [63:54] and its guard in G [53:51] and GI [50]
(R45, R61). -/
namespace Sys2Proof.Laws

open Sys2Proof Sys2Proof.Machine

/-- The opcode field of a word built over a head is the head's opcode (R45). -/
theorem opcodeField_packHead (o : Nat) (g : Guard) (x : BitVec 50) (h : o < 1024) : opcodeField (packHead o g ++ x) = o := by
  have e : (packHead o g ++ x).extractLsb' 54 10 = BitVec.ofNat 10 o := by
    unfold packHead
    apply BitVec.eq_of_getLsbD_eq
    intro i hi
    simp only [BitVec.getLsbD_extractLsb', BitVec.getLsbD_append]
    simp [hi, show ¬ 54 + i < 50 by omega, show 54 + i - 50 = 4 + i by omega, show ¬ 4 + i < 1 by omega,
      show 4 + i - 1 = 3 + i by omega]
  unfold opcodeField
  rw [e]
  simp [Nat.mod_eq_of_lt h]

/-- The guard of a word built over a head is the head's guard (R45). -/
theorem guardOf_packHead (o : Nat) (g : Guard) (x : BitVec 50) : guardOf g.uni (packHead o g ++ x) = g := by
  have e1 : (packHead o g ++ x).extractLsb' 51 3 = g.p := by
    unfold packHead
    apply BitVec.eq_of_getLsbD_eq
    intro i hi
    simp only [BitVec.getLsbD_extractLsb', BitVec.getLsbD_append]
    simp [hi, show ¬ 51 + i < 50 by omega, show 51 + i - 50 = 1 + i by omega, show ¬ 1 + i < 1 by omega]
  have e2 : (packHead o g ++ x).getLsbD 50 = g.inv := by
    unfold packHead
    simp only [BitVec.getLsbD_append]
    simp
  unfold guardOf
  rw [e1, e2]

/-- What the family says of one instruction: if it has a word, the word's opcode and guard fields are the instruction's
(R45, R61). -/
def Opcode.Statement (i : Instr) : Prop :=
  i.hasWord = true → opcodeField (encode i) = opcodeOf i ∧ guardOf (instrGuard i).uni (encode i) = instrGuard i

/-- An instruction whose word stands over a head of its opcode and guard. -/
theorem Opcode.of_head {i : Instr} (x : BitVec 50) (h : encode i = packHead (opcodeOf i) (instrGuard i) ++ x) : Opcode.Statement i := by
  intro hw
  have ho : opcodeOf i < 1024 := of_decide_eq_true hw
  exact ⟨by rw [h]; exact opcodeField_packHead _ _ _ ho, by rw [h]; exact guardOf_packHead _ _ _⟩

/-- An event has no word. -/
theorem Opcode.of_event {i : Instr} (h : i.hasWord = false) : Opcode.Statement i := by
  intro hw
  rw [h] at hw
  cases hw

namespace Opcode

theorem iadd (f : RForm) : Statement (.iadd f) := of_head _ rfl
theorem isub (f : RForm) : Statement (.isub f) := of_head _ rfl
theorem imul (f : RForm) : Statement (.imul f) := of_head _ rfl
theorem imulh (f : RForm) : Statement (.imulh f) := of_head _ rfl
theorem imad (f : RForm) : Statement (.imad f) := of_head _ rfl
theorem imin (f : RForm) : Statement (.imin f) := of_head _ rfl
theorem imax (f : RForm) : Statement (.imax f) := of_head _ rfl
theorem iabs (f : RForm) : Statement (.iabs f) := of_head _ rfl
theorem and (f : RForm) : Statement (.and f) := of_head _ rfl
theorem or (f : RForm) : Statement (.or f) := of_head _ rfl
theorem xor (f : RForm) : Statement (.xor f) := of_head _ rfl
theorem andn (f : RForm) : Statement (.andn f) := of_head _ rfl
theorem not (f : RForm) : Statement (.not f) := of_head _ rfl
theorem shl (f : RForm) : Statement (.shl f) := of_head _ rfl
theorem shr (f : RForm) : Statement (.shr f) := of_head _ rfl
theorem sar (f : RForm) : Statement (.sar f) := of_head _ rfl
theorem rol (f : RForm) : Statement (.rol f) := of_head _ rfl
theorem popc (f : RForm) : Statement (.popc f) := of_head _ rfl
theorem clz (f : RForm) : Statement (.clz f) := of_head _ rfl
theorem ctz (f : RForm) : Statement (.ctz f) := of_head _ rfl
theorem brev (f : RForm) : Statement (.brev f) := of_head _ rfl
theorem bfx (f : RForm) : Statement (.bfx f) := of_head _ rfl
theorem bfi (f : RForm) : Statement (.bfi f) := of_head _ rfl
theorem lea (f : RForm) : Statement (.lea f) := of_head _ rfl
theorem mov (f : RForm) : Statement (.mov f) := of_head _ rfl
theorem sel (f : RForm) : Statement (.sel f) := of_head _ rfl
theorem bysel (f : RForm) : Statement (.bysel f) := of_head _ rfl
theorem icmp (f : RForm) : Statement (.icmp f) := of_head _ rfl
theorem pcomb (f : RForm) : Statement (.pcomb f) := of_head _ rfl
theorem vote (f : RForm) : Statement (.vote f) := of_head _ rfl
theorem pick (f : RForm) : Statement (.pick f) := of_head _ rfl
theorem iaddi (f : IForm) : Statement (.iaddi f) := of_head _ rfl
theorem imuli (f : IForm) : Statement (.imuli f) := of_head _ rfl
theorem andi (f : IForm) : Statement (.andi f) := of_head _ rfl
theorem ori (f : IForm) : Statement (.ori f) := of_head _ rfl
theorem xori (f : IForm) : Statement (.xori f) := of_head _ rfl
theorem shli (f : IForm) : Statement (.shli f) := of_head _ rfl
theorem shri (f : IForm) : Statement (.shri f) := of_head _ rfl
theorem sari (f : IForm) : Statement (.sari f) := of_head _ rfl
theorem movi (f : IForm) : Statement (.movi f) := of_head _ rfl
theorem movk (f : IForm) : Statement (.movk f) := of_head _ rfl
theorem icmpi (f : IForm) : Statement (.icmpi f) := of_head _ rfl
theorem fadd (ty : FTy) (f : RForm) : Statement (.fadd ty f) := of_head _ rfl
theorem fsub (ty : FTy) (f : RForm) : Statement (.fsub ty f) := of_head _ rfl
theorem fmul (ty : FTy) (f : RForm) : Statement (.fmul ty f) := of_head _ rfl
theorem ffma (ty : FTy) (f : RForm) : Statement (.ffma ty f) := of_head _ rfl
theorem fmin (ty : FTy) (f : RForm) : Statement (.fmin ty f) := of_head _ rfl
theorem fmax (ty : FTy) (f : RForm) : Statement (.fmax ty f) := of_head _ rfl
theorem fcmp (ty : FTy) (f : RForm) : Statement (.fcmp ty f) := of_head _ rfl
theorem frnd (ty : FTy) (f : RForm) : Statement (.frnd ty f) := of_head _ rfl
theorem fneg (ty : FTy) (f : RForm) : Statement (.fneg ty f) := of_head _ rfl
theorem fabs (ty : FTy) (f : RForm) : Statement (.fabs ty f) := of_head _ rfl
theorem fdot (ty : FTy) (f : RForm) : Statement (.fdot ty f) := of_head _ rfl
theorem fclass (ty : FTy) (f : RForm) : Statement (.fclass ty f) := of_head _ rfl
theorem fcvt (f : IForm) : Statement (.fcvt f) := of_head _ rfl
theorem f2i (f : IForm) : Statement (.f2i f) := of_head _ rfl
theorem i2f (f : IForm) : Statement (.i2f f) := of_head _ rfl
theorem qnt (f : RForm) : Statement (.qnt f) := of_head _ rfl
theorem dqnt (f : RForm) : Statement (.dqnt f) := of_head _ rfl
theorem gcomp (f : RForm) : Statement (.gcomp f) := of_head _ rfl
theorem cvtw (f : RForm) : Statement (.cvtw f) := of_head _ rfl
theorem wreb (f : RForm) : Statement (.wreb f) := of_head _ rfl
theorem shfl (f : RForm) : Statement (.shfl f) := of_head _ rfl
theorem shflx (f : RForm) : Statement (.shflx f) := of_head _ rfl
theorem bcst (f : RForm) : Statement (.bcst f) := of_head _ rfl
theorem radd (f : RForm) : Statement (.radd f) := of_head _ rfl
theorem rmin (f : RForm) : Statement (.rmin f) := of_head _ rfl
theorem rmax (f : RForm) : Statement (.rmax f) := of_head _ rfl
theorem rminx (f : RForm) : Statement (.rminx f) := of_head _ rfl
theorem rmaxx (f : RForm) : Statement (.rmaxx f) := of_head _ rfl
theorem rbit (f : RForm) : Statement (.rbit f) := of_head _ rfl
theorem scana (f : RForm) : Statement (.scana f) := of_head _ rfl
theorem scanae (f : RForm) : Statement (.scanae f) := of_head _ rfl
theorem scanmin (f : RForm) : Statement (.scanmin f) := of_head _ rfl
theorem scanmax (f : RForm) : Statement (.scanmax f) := of_head _ rfl
theorem matchLanes (f : RForm) : Statement (.matchLanes f) := of_head _ rfl
theorem ld (f : MForm) : Statement (.ld f) := of_head _ rfl
theorem st (f : MForm) : Statement (.st f) := of_head _ rfl
theorem lds (f : MForm) : Statement (.lds f) := of_head _ rfl
theorem sts (f : MForm) : Statement (.sts f) := of_head _ rfl
theorem ldh (f : MForm) : Statement (.ldh f) := of_head _ rfl
theorem sth (f : MForm) : Statement (.sth f) := of_head _ rfl
theorem stp (f : RForm) : Statement (.stp f) := of_head _ rfl
theorem atom (f : AForm) : Statement (.atom f) := of_head _ rfl
theorem atomu (f : AForm) : Statement (.atomu f) := of_head _ rfl
theorem cas (f : RForm) : Statement (.cas f) := of_head _ rfl
theorem atoms (f : AForm) : Statement (.atoms f) := of_head _ rfl
theorem cass (f : RForm) : Statement (.cass f) := of_head _ rfl
theorem fence (f : RForm) : Statement (.fence f) := of_head _ rfl
theorem fencex (f : IForm) : Statement (.fencex f) := of_head _ rfl
theorem pref (f : MForm) : Statement (.pref f) := of_head _ rfl
theorem tlook (f : RForm) : Statement (.tlook f) := of_head _ rfl
theorem tset (f : RForm) : Statement (.tset f) := of_head _ rfl
theorem tclr (f : RForm) : Statement (.tclr f) := of_head _ rfl
theorem cpy (f : PForm) : Statement (.cpy f) := of_head _ rfl
theorem cpyr (f : PForm) : Statement (.cpyr f) := of_head _ rfl
theorem cpyi (f : PForm) : Statement (.cpyi f) := of_head _ rfl
theorem cseal (f : RForm) : Statement (.cseal f) := of_head _ rfl
theorem cwait (f : IForm) : Statement (.cwait f) := of_head _ rfl
theorem cwaitk (f : IForm) : Statement (.cwaitk f) := of_head _ rfl
theorem lyld (f : PForm) : Statement (.lyld f) := of_head _ rfl
theorem lyst (f : PForm) : Statement (.lyst f) := of_head _ rfl
theorem lyset (f : PForm) : Statement (.lyset f) := of_head _ rfl
theorem lyget (f : PForm) : Statement (.lyget f) := of_head _ rfl
theorem place (f : PForm) : Statement (.place f) := of_head _ rfl
theorem plq (f : PForm) : Statement (.plq f) := of_head _ rfl
theorem tld (f : PForm) : Statement (.tld f) := of_head _ rfl
theorem tst (f : PForm) : Statement (.tst f) := of_head _ rfl
theorem loc (f : PForm) : Statement (.loc f) := of_head _ rfl
theorem mmah (f : XForm) : Statement (.mmah f) := of_head _ rfl
theorem mmab (f : XForm) : Statement (.mmab f) := of_head _ rfl
theorem scacc (f : XForm) : Statement (.scacc f) := of_head _ rfl
theorem spush (f : RForm) : Statement (.spush f) := of_head _ rfl
theorem schk (f : RForm) : Statement (.schk f) := of_head _ rfl
theorem azero (f : XForm) : Statement (.azero f) := of_head _ rfl
theorem ald (f : XForm) : Statement (.ald f) := of_head _ rfl
theorem drn (f : XForm) : Statement (.drn f) := of_head _ rfl
theorem pjadj (f : RForm) : Statement (.pjadj f) := of_head _ rfl
theorem achk (f : XForm) : Statement (.achk f) := of_head _ rfl
theorem arel (f : RForm) : Statement (.arel f) := of_head _ rfl
theorem aset (f : IForm) : Statement (.aset f) := of_head _ rfl
theorem sfq (f : IForm) : Statement (.sfq f) := of_head _ rfl
theorem sfwait (f : IForm) : Statement (.sfwait f) := of_head _ rfl
theorem sfpoll (f : IForm) : Statement (.sfpoll f) := of_head _ rfl
theorem bra (f : JForm) : Statement (.bra f) := of_head _ rfl
theorem brx (f : RForm) : Statement (.brx f) := of_head _ rfl
theorem call (f : JForm) : Statement (.call f) := of_head _ rfl
theorem callx (f : RForm) : Statement (.callx f) := of_head _ rfl
theorem ret (f : RForm) : Statement (.ret f) := of_head _ rfl
theorem mjoin (f : JForm) : Statement (.mjoin f) := of_head _ rfl
theorem join (f : RForm) : Statement (.join f) := of_head _ rfl
theorem brw (f : JForm) : Statement (.brw f) := of_head _ rfl
theorem exit (f : RForm) : Statement (.exit f) := of_head _ rfl
theorem nop (f : RForm) : Statement (.nop f) := of_head _ rfl
theorem rpf (f : IForm) : Statement (.rpf f) := of_head _ rfl
theorem rdrop (f : IForm) : Statement (.rdrop f) := of_head _ rfl
theorem wbind (f : IForm) : Statement (.wbind f) := of_head _ rfl
theorem wstat (f : IForm) : Statement (.wstat f) := of_head _ rfl
theorem trap (f : IForm) : Statement (.trap f) := of_head _ rfl
theorem bkpt (f : IForm) : Statement (.bkpt f) := of_head _ rfl
theorem yield (f : RForm) : Statement (.yield f) := of_head _ rfl
theorem sleep (f : IForm) : Statement (.sleep f) := of_head _ rfl
theorem rdsr (f : IForm) : Statement (.rdsr f) := of_head _ rfl
theorem caprd (f : IForm) : Statement (.caprd f) := of_head _ rfl
theorem bara (f : SForm) : Statement (.bara f) := of_head _ rfl
theorem barw (f : SForm) : Statement (.barw f) := of_head _ rfl
theorem barq (f : IForm) : Statement (.barq f) := of_head _ rfl
theorem cbar (f : SForm) : Statement (.cbar f) := of_head _ rfl
theorem xwin (f : RForm) : Statement (.xwin f) := of_head _ rfl
theorem xst (f : RForm) : Statement (.xst f) := of_head _ rfl
theorem xadd (f : AForm) : Statement (.xadd f) := of_head _ rfl
theorem semp (f : RForm) : Statement (.semp f) := of_head _ rfl
theorem semw (f : RForm) : Statement (.semw f) := of_head _ rfl
theorem gpost (f : RForm) : Statement (.gpost f) := of_head _ rfl
theorem garm (f : RForm) : Statement (.garm f) := of_head _ rfl
theorem gwait (f : RForm) : Statement (.gwait f) := of_head _ rfl
theorem grdy (f : RForm) : Statement (.grdy f) := of_head _ rfl
theorem madmit (f : RForm) : Statement (.madmit f) := of_head _ rfl
theorem mretire (f : RForm) : Statement (.mretire f) := of_head _ rfl
theorem mread (f : RForm) : Statement (.mread f) := of_head _ rfl
theorem rld (f : MForm) : Statement (.rld f) := of_head _ rfl
theorem rst (f : MForm) : Statement (.rst f) := of_head _ rfl
theorem ratom (f : AForm) : Statement (.ratom f) := of_head _ rfl
theorem rcas (f : RForm) : Statement (.rcas f) := of_head _ rfl
theorem rflush (f : RForm) : Statement (.rflush f) := of_head _ rfl
theorem rrel (f : RForm) : Statement (.rrel f) := of_head _ rfl
theorem rankq (f : RForm) : Statement (.rankq f) := of_head _ rfl
theorem coll (f : RForm) : Statement (.coll f) := of_head _ rfl
theorem collw (f : RForm) : Statement (.collw f) := of_head _ rfl
theorem crjob (f : RForm) : Statement (.crjob f) := of_head _ rfl
theorem crwait (f : RForm) : Statement (.crwait f) := of_head _ rfl
theorem crstat (f : RForm) : Statement (.crstat f) := of_head _ rfl
theorem crplan (f : RForm) : Statement (.crplan f) := of_head _ rfl
theorem wrsr (f : IForm) : Statement (.wrsr f) := of_head _ rfl
theorem eret (f : RForm) : Statement (.eret f) := of_head _ rfl
theorem tlbi (f : RForm) : Statement (.tlbi f) := of_head _ rfl
theorem rtabw (f : RForm) : Statement (.rtabw f) := of_head _ rfl
theorem halt (f : RForm) : Statement (.halt f) := of_head _ rfl
theorem diag (f : RForm) : Statement (.diag f) := of_head _ rfl
theorem ctxsv (f : RForm) : Statement (.ctxsv f) := of_head _ rfl
theorem ctxld (f : RForm) : Statement (.ctxld f) := of_head _ rfl
theorem clauseSelect (core quadrant ticks : Nat) : Statement (.clauseSelect core quadrant ticks) := of_event rfl
theorem sleepExpire (round : Nat) : Statement (.sleepExpire round) := of_event rfl
theorem roundEnd (round : Nat) : Statement (.roundEnd round) := of_event rfl
theorem spill (core : Nat) : Statement (.spill core) := of_event rfl
theorem watchdog (round : Nat) : Statement (.watchdog round) := of_event rfl
theorem roundStop (round : Nat) : Statement (.roundStop round) := of_event rfl
theorem contextSave (team : Nat) : Statement (.contextSave team) := of_event rfl
theorem cpyrDataLand (round member : Nat) : Statement (.cpyrDataLand round member) := of_event rfl
theorem copyMemberComplete (round member : Nat) (words : Option (List Nat)) : Statement (.copyMemberComplete round member words) := of_event rfl
theorem passComplete (round member : Nat) (parcels : Option (List Nat)) : Statement (.passComplete round member parcels) := of_event rfl
theorem drainComplete (round : Nat) (writes : Option (List Nat)) : Statement (.drainComplete round writes) := of_event rfl
theorem sfqResultLand (round token : Nat) : Statement (.sfqResultLand round token) := of_event rfl
theorem exchangeItemLand (item : Nat) : Statement (.exchangeItemLand item) := of_event rfl
theorem windowTableUpdate (update : Nat) : Statement (.windowTableUpdate update) := of_event rfl
theorem storeBufferDrain (entry : StoreOut) : Statement (.storeBufferDrain entry) := of_event rfl
theorem storeBufferTimeout (entry : Nat) : Statement (.storeBufferTimeout entry) := of_event rfl
theorem storeAck (round : Nat) (package : Bool) : Statement (.storeAck round package) := of_event rfl
theorem translationWalkComplete (core partition : Nat) (va : Word) : Statement (.translationWalkComplete core partition va) := of_event rfl
theorem trapQueueEntryWrite (partition : Nat) : Statement (.trapQueueEntryWrite partition) := of_event rfl
theorem sortingOfficeAdmit (die : Nat) : Statement (.sortingOfficeAdmit die) := of_event rfl
theorem nodeComplete (node : Nat) : Statement (.nodeComplete node) := of_event rfl
theorem courierJobStart (job : Nat) : Statement (.courierJobStart job) := of_event rfl
theorem courierSegmentComplete (job segment : Nat) (outside : ExtData) : Statement (.courierSegmentComplete job segment outside) := of_event rfl
theorem courierNodeStop (node : Nat) : Statement (.courierNodeStop node) := of_event rfl
theorem collectiveStart (coll : Nat) : Statement (.collectiveStart coll) := of_event rfl
theorem collectiveComplete (coll : Nat) (outside : List CollIn) : Statement (.collectiveComplete coll outside) := of_event rfl
theorem rotorPhase : Statement (.rotorPhase) := of_event rfl
theorem packetArrive (packet : PacketIn) : Statement (.packetArrive packet) := of_event rfl
theorem fabricAckArrive (packet : Nat) (outside : ExtData) : Statement (.fabricAckArrive packet outside) := of_event rfl
theorem remoteReplyArrive (round : Nat) (outside : List Reply) : Statement (.remoteReplyArrive round outside) := of_event rfl
theorem packetRetransmit (packet : Nat) : Statement (.packetRetransmit packet) := of_event rfl
theorem fabricTimeout (packet : Nat) : Statement (.fabricTimeout packet) := of_event rfl
theorem relayForward (packet : Nat) : Statement (.relayForward packet) := of_event rfl
theorem wcLineAgeing (line : Nat) : Statement (.wcLineAgeing line) := of_event rfl
theorem rankMigration (partition job : Nat) (entries : Migration) : Statement (.rankMigration partition job entries) := of_event rfl
theorem inboxSlotWrite (partition offset : Nat) (data : List Byte) : Statement (.inboxSlotWrite partition offset data) := of_event rfl
theorem inboxProdWrite (partition : Nat) (value : Word) : Statement (.inboxProdWrite partition value) := of_event rfl
theorem attestationRequest (fn : Nat) : Statement (.attestationRequest fn) := of_event rfl
theorem attestationReportReady (fn : Nat) : Statement (.attestationReportReady fn) := of_event rfl
theorem powlimWrite (value : Word) : Statement (.powlimWrite value) := of_event rfl
theorem powerThrottle (clk watts : Nat) : Statement (.powerThrottle clk watts) := of_event rfl
theorem bar0Write (fn offset : Nat) (data : List Byte) : Statement (.bar0Write fn offset data) := of_event rfl
theorem packageReset : Statement (.packageReset) := of_event rfl
theorem selfTestComplete (word bit : Nat) : Statement (.selfTestComplete word bit) := of_event rfl
theorem partitionImageStart (partition core : Nat) (entry : Word) : Statement (.partitionImageStart partition core entry) := of_event rfl
theorem partitionAssign (spec : PartSpec) : Statement (.partitionAssign spec) := of_event rfl
theorem clauseFetch (round : Nat) : Statement (.clauseFetch round) := of_event rfl
theorem hostLinkWriteIssue (round : Nat) : Statement (.hostLinkWriteIssue round) := of_event rfl
theorem hostWindowWrite (partition index : Nat) (entry : Word) : Statement (.hostWindowWrite partition index entry) := of_event rfl
theorem heldFlagDiscard (flag : PacketIn) : Statement (.heldFlagDiscard flag) := of_event rfl

end Opcode

end Sys2Proof.Laws
end

