-- ==== Sys2Proof/Tests/Slice0.lean ====
section
/-! SUPPORT. Tests. Words are written out from R53 and R61, values from the spec's rules and worked examples by hand. -/
namespace Sys2Proof.Tests

open Machine

set_option Elab.async false

/-- A guard of p7, and the forms of R53 with it. -/
def p7 : Guard := { p := 7, inv := false, uni := false }
def fR (lr d a b c cmp : Nat) : RForm :=
  { g := p7, lra := lr.testBit 2, lrb := lr.testBit 1, lrc := lr.testBit 0, d := BitVec.ofNat 11 d, a := BitVec.ofNat 11 a
    b := BitVec.ofNat 11 b, c := BitVec.ofNat 11 c, cmp := BitVec.ofNat 3 cmp }
def fI (d a cmp imm : Nat) : IForm :=
  { g := p7, lra := false, d := BitVec.ofNat 11 d, a := BitVec.ofNat 11 a, cmp := BitVec.ofNat 3 cmp, imm := BitVec.ofNat 24 imm }
def fM (d a ord sz ofs : Nat) : MForm :=
  { g := p7, lrd := false, lra := false, d := BitVec.ofNat 11 d, a := BitVec.ofNat 11 a, ord := BitVec.ofNat 5 ord
    sz := BitVec.ofNat 3 sz, ofs := BitVec.ofNat 18 ofs }
def fA (d a b ord op asz : Nat) : AForm :=
  { g := p7, lrd := false, lra := false, lrb := false, d := BitVec.ofNat 11 d, a := BitVec.ofNat 11 a, b := BitVec.ofNat 11 b
    ord := BitVec.ofNat 5 ord, op := BitVec.ofNat 3 op, asz := BitVec.ofNat 2 asz, z := 0 }
def fX (h a b fa fb : Nat) (ru z : Bool) (imm : Nat) : XForm :=
  { g := p7, h := BitVec.ofNat 5 h, a := BitVec.ofNat 11 a, b := BitVec.ofNat 11 b, fa := BitVec.ofNat 3 fa, fb := BitVec.ofNat 3 fb
    ru := ru, z := z, rsv := 0, imm := BitVec.ofNat 12 imm }
def fP (ld ls a b c cmp : Nat) : PForm :=
  { g := p7, lra := false, lrb := false, lrc := false, ld := BitVec.ofNat 5 ld, ls := BitVec.ofNat 5 ls, a := BitVec.ofNat 11 a
    b := BitVec.ofNat 11 b, c := BitVec.ofNat 11 c, cmp := BitVec.ofNat 4 cmp }
def fS (bar : Nat) (ci : Bool) (cntf : Nat) : SForm :=
  { g := p7, bar := BitVec.ofNat 4 bar, ci := ci, cntf := BitVec.ofNat 11 cntf, z := 0 }
def fJ (aux off : Nat) : JForm := { g := p7, aux := BitVec.ofNat 10 aux, off := BitVec.ofNat 40 off }

/-- Whether each word decodes to its instruction, and that encodes to the word. -/
def reads (l : List (Word × Instr)) : Bool := l.all (fun x => (decode 16 false x.1).toOption == some x.2 && encode x.2 == x.1)

theorem test_decode_int : reads [
    (0b0000000000_111_0_100_00000000011_00000000001_00000000010_11010001000_101, .iadd (fR 4 3 1 2 1672 5)),
    (0b0000000001_111_0_010_00000000011_00000000001_00000000010_11010001000_101, .isub (fR 2 3 1 2 1672 5)),
    (0b0000000010_111_0_000_00000000011_00000000001_00000000010_11010001000_101, .imul (fR 0 3 1 2 1672 5)),
    (0b0000000011_111_0_000_00000000011_00000000001_00000000010_11010001000_101, .imulh (fR 0 3 1 2 1672 5)),
    (0b0000000100_111_0_110_00000000011_00000000001_00000000010_00000000100_101, .imad (fR 6 3 1 2 4 5)),
    (0b0000000101_111_0_000_00000000011_00000000001_00000000010_11010001000_101, .imin (fR 0 3 1 2 1672 5)),
    (0b0000000110_111_0_000_00000000011_00000000001_00000000010_11010001000_101, .imax (fR 0 3 1 2 1672 5)),
    (0b0000000111_111_0_000_00000000011_00000000001_11010001000_11010001000_101, .iabs (fR 0 3 1 1672 1672 5)),
    (0b0000001000_111_0_000_00000000011_00000000001_00000000010_11010001000_010, .and (fR 0 3 1 2 1672 2)),
    (0b0000001001_111_0_000_00000000011_00000000001_00000000010_11010001000_010, .or (fR 0 3 1 2 1672 2)),
    (0b0000001010_111_0_000_00000000011_00000000001_00000000010_11010001000_010, .xor (fR 0 3 1 2 1672 2)),
    (0b0000001011_111_0_000_00000000011_00000000001_00000000010_11010001000_010, .andn (fR 0 3 1 2 1672 2)),
    (0b0000001100_111_0_000_00000000011_00000000001_11010001000_11010001000_010, .not (fR 0 3 1 1672 1672 2)),
    (0b0000001101_111_0_000_00000000011_00000000001_00000000010_11010001000_101, .shl (fR 0 3 1 2 1672 5))] = true := by decide +kernel

theorem test_decode_int_2 : reads [
    (0b0000001110_111_0_000_00000000011_00000000001_00000000010_11010001000_010, .shr (fR 0 3 1 2 1672 2)),
    (0b0000001111_111_0_000_00000000011_00000000001_00000000010_11010001000_010, .sar (fR 0 3 1 2 1672 2)),
    (0b0000010000_111_0_000_00000000011_00000000001_00000000010_11010001000_010, .rol (fR 0 3 1 2 1672 2)),
    (0b0000010001_111_0_000_00000000011_00000000001_11010001000_11010001000_010, .popc (fR 0 3 1 1672 1672 2)),
    (0b0000010010_111_0_000_00000000011_00000000001_11010001000_11010001000_010, .clz (fR 0 3 1 1672 1672 2)),
    (0b0000010011_111_0_000_00000000011_00000000001_11010001000_11010001000_010, .ctz (fR 0 3 1 1672 1672 2)),
    (0b0000010100_111_0_000_00000000011_00000000001_11010001000_11010001000_010, .brev (fR 0 3 1 1672 1672 2)),
    (0b0000010101_111_0_000_00000000011_00000000001_00000000010_11010001000_101, .bfx (fR 0 3 1 2 1672 5)),
    (0b0000010110_111_0_001_00000000011_00000000001_00000000010_00000000100_010, .bfi (fR 1 3 1 2 4 2)),
    (0b0000010111_111_0_000_00000000011_00000000001_00000000010_00000000100_010, .lea (fR 0 3 1 2 4 2)),
    (0b0000011000_111_0_000_00000000011_00000000001_11010001000_11010001000_010, .mov (fR 0 3 1 1672 1672 2)),
    (0b0000011001_111_0_000_00000000011_00000000001_00000000010_00000001011_010, .sel (fR 0 3 1 2 11 2)),
    (0b0000011010_111_0_000_00000000011_00000000001_00000000010_00000000100_010, .bysel (fR 0 3 1 2 4 2)),
    (0b0000011011_111_0_000_00000011010_00000000001_00000000010_11010001000_101, .icmp (fR 0 26 1 2 1672 5))] = true := by decide +kernel

theorem test_decode_int_3 : reads [
    (0b0000011100_111_0_000_10010110101_00000001001_00000000011_00000001110_000, .pcomb (fR 0 1205 9 3 14 0)),
    (0b0000011101_111_0_000_00000000011_00000001100_11010001000_11010001000_010, .vote (fR 0 3 12 1672 1672 2)),
    (0b0000011110_111_0_000_00000000011_00000000001_11010001000_11010001000_010, .pick (fR 0 3 1 1672 1672 2)),
    (0b0000100000_111_0_0_00000000011_00000000001_101_111111111111111111111110, .iaddi (fI 3 1 5 16777214)),
    (0b0000100001_111_0_0_00000000011_00000000001_100_000000000000000000000011, .imuli (fI 3 1 4 3)),
    (0b0000100010_111_0_0_00000000011_00000000001_110_000000000000000011111111, .andi (fI 3 1 6 255)),
    (0b0000100011_111_0_0_00000000011_00000000001_100_000000000000000000000001, .ori (fI 3 1 4 1)),
    (0b0000100100_111_0_0_00000000011_00000000001_010_000000000000000000000111, .xori (fI 3 1 2 7)),
    (0b0000100101_111_0_0_00000000011_00000000001_110_000000000000000000000101, .shli (fI 3 1 6 5)),
    (0b0000100110_111_0_0_00000000011_00000000001_100_000000000000000000001111, .shri (fI 3 1 4 15)),
    (0b0000100111_111_0_0_00000000011_00000000001_000_000000000000000000000111, .sari (fI 3 1 0 7)),
    (0b0000101000_111_0_0_00000000011_11010001000_110_100000000000000000000000, .movi (fI 3 1672 6 8388608)),
    (0b0000101001_111_0_0_00000000011_00000000001_000_000000101010101111001101, .movk (fI 3 1 0 175053)),
    (0b0000101010_111_0_0_00000001110_00000000001_100_000000000000000000001001, .icmpi (fI 14 1 4 9))] = true := by decide +kernel

theorem test_decode_flt : reads [
    (0b0001000000_111_0_100_00000000011_00000000001_00000000010_11010001000_101, .fadd .f32 (fR 4 3 1 2 1672 5)),
    (0b0001010001_111_0_000_00000000011_00000000001_00000000010_11010001000_101, .fsub .f64 (fR 0 3 1 2 1672 5)),
    (0b0001100010_111_0_000_00000000011_00000000001_00000000010_11010001000_101, .fmul .f16 (fR 0 3 1 2 1672 5)),
    (0b0001110011_111_0_101_00000000011_00000000001_00000000010_00000000100_101, .ffma .bf16 (fR 5 3 1 2 4 5)),
    (0b0001000100_111_0_000_00000000011_00000000001_00000000010_11010001000_000, .fmin .f32 (fR 0 3 1 2 1672 0)),
    (0b0001010101_111_0_000_00000000011_00000000001_00000000010_11010001000_000, .fmax .f64 (fR 0 3 1 2 1672 0)),
    (0b0001100110_111_0_000_00000100001_00000000001_00000000010_11010001000_000, .fcmp .f16 (fR 0 33 1 2 1672 0)),
    (0b0001110111_111_0_000_00000000011_00000000001_11010001000_11010001000_011, .frnd .bf16 (fR 0 3 1 1672 1672 3)),
    (0b0001001000_111_0_000_00000000011_00000000001_11010001000_11010001000_000, .fneg .f32 (fR 0 3 1 1672 1672 0)),
    (0b0001011001_111_0_000_00000000011_00000000001_11010001000_11010001000_000, .fabs .f64 (fR 0 3 1 1672 1672 0)),
    (0b0001101010_111_0_000_00000000011_00000000001_00000000010_00000000100_101, .fdot .f16 (fR 0 3 1 2 4 5)),
    (0b0001111011_111_0_000_00000000011_00000000001_11010001000_11010001000_000, .fclass .bf16 (fR 0 3 1 1672 1672 0))] = true := by decide +kernel

theorem test_decode_cvt : reads [
    (0b0010000000_111_0_0_00000000011_00000000001_001_000000000000001000000001, .fcvt (fI 3 1 1 513)),
    (0b0010000001_111_0_0_00000000011_00000000001_010_000000000000011000000001, .f2i (fI 3 1 2 1537)),
    (0b0010000010_111_0_0_00000000011_00000000001_011_000000000000010100000010, .i2f (fI 3 1 3 1282)),
    (0b0010000011_111_0_000_00000000011_00000000001_11010001000_00000010010_001, .qnt (fR 0 3 1 1672 18 1)),
    (0b0010000100_111_0_000_00000000011_00000000001_11010001000_00001010010_101, .dqnt (fR 0 3 1 1672 82 5)),
    (0b0010000101_111_0_000_00000000011_00000000001_00000000110_00000010100_001, .gcomp (fR 0 3 1 6 20 1)),
    (0b0010000110_111_0_000_00000000011_00000000001_11010001000_11010001000_000, .cvtw (fR 0 3 1 1672 1672 0)),
    (0b0010000111_111_0_000_00000000011_00000000001_11010001000_11010001000_000, .wreb (fR 0 3 1 1672 1672 0)),
    (0b0010100000_111_0_000_00000000011_00000000001_00000000010_11010001000_011, .shfl (fR 0 3 1 2 1672 3)),
    (0b0010100001_111_0_000_00000000011_00000000001_00000000010_00000000010_001, .shflx (fR 0 3 1 2 2 1)),
    (0b0010100010_111_0_000_00000000011_00000000001_00000000010_11010001000_010, .bcst (fR 0 3 1 2 1672 2)),
    (0b0010100011_111_0_000_00000000011_00000000001_11010001000_11010001000_101, .radd (fR 0 3 1 1672 1672 5)),
    (0b0010100100_111_0_000_00000000011_00000000001_11010001000_11010001000_001, .rmin (fR 0 3 1 1672 1672 1)),
    (0b0010100101_111_0_000_00000000011_00000000001_11010001000_11010001000_100, .rmax (fR 0 3 1 1672 1672 4))] = true := by decide +kernel

theorem test_decode_cvt_2 : reads [
    (0b0010100110_111_0_000_00000000011_00000000001_11010001000_00000000100_010, .rminx (fR 0 3 1 1672 4 2)),
    (0b0010100111_111_0_000_00000000011_00000000001_11010001000_00000000100_100, .rmaxx (fR 0 3 1 1672 4 4)),
    (0b0010101000_111_0_000_00000000011_00000000001_11010001000_11010001000_010, .rbit (fR 0 3 1 1672 1672 2)),
    (0b0010101001_111_0_000_00000000011_00000000001_11010001000_11010001000_011, .scana (fR 0 3 1 1672 1672 3)),
    (0b0010101010_111_0_000_00000000011_00000000001_11010001000_11010001000_100, .scanae (fR 0 3 1 1672 1672 4)),
    (0b0010101011_111_0_000_00000000011_00000000001_11010001000_11010001000_000, .scanmin (fR 0 3 1 1672 1672 0)),
    (0b0010101100_111_0_000_00000000011_00000000001_11010001000_11010001000_101, .scanmax (fR 0 3 1 1672 1672 5)),
    (0b0010101101_111_0_000_00000000011_00000000001_11010001000_11010001000_011, .matchLanes (fR 0 3 1 1672 1672 3))] = true := by decide +kernel

theorem test_decode_mem : reads [
    (0b0100000000_111_0_00_00000000110_00000000100_11101_011_111111111111111000, .ld (fM 6 4 29 3 262136)),
    (0b0100000001_111_0_00_00000000110_00000000100_10100_100_000000000000010000, .st (fM 6 4 20 4 16)),
    (0b0100000010_111_0_00_00000000110_00000000100_01010_010_000000000000000100, .lds (fM 6 4 10 2 4)),
    (0b0100000011_111_0_00_00000000110_00000000100_10001_000_000000000000000001, .sts (fM 6 4 17 0 1)),
    (0b0100000100_111_0_00_00000000110_00000000100_01110_011_000000000000001000, .ldh (fM 6 4 14 3 8)),
    (0b0100000101_111_0_00_00000000110_00000000100_10110_001_000000000000000010, .sth (fM 6 4 22 1 2)),
    (0b0100000110_111_0_000_00000000011_00000000001_00000000010_11010001000_011, .stp (fR 0 3 1 2 1672 3)),
    (0b0100000111_111_0_000_00000000011_00000000001_00000000010_11101_111_10_0000, .atom (fA 3 1 2 29 7 2)),
    (0b0100001000_111_0_000_00000000011_00000000001_00000000010_01100_010_01_0000, .atomu (fA 3 1 2 12 2 1)),
    (0b0100001001_111_0_000_00000000011_00000000001_00000000010_00000000100_101, .cas (fR 0 3 1 2 4 5)),
    (0b0100001010_111_0_000_00000000011_00000000001_00000000010_10001_110_00_0000, .atoms (fA 3 1 2 17 6 0)),
    (0b0100001011_111_0_000_00000000011_00000000001_00000000010_00000000100_010, .cass (fR 0 3 1 2 4 2)),
    (0b0100001100_111_0_000_11010001000_11010001000_11010001000_11010001000_110, .fence (fR 0 1672 1672 1672 1672 6)),
    (0b0100001101_111_0_0_11010001000_11010001000_000_000000000000000000011010, .fencex (fI 1672 1672 0 26))] = true := by decide +kernel

theorem test_decode_mem_2 : reads [
    (0b0100001110_111_0_00_11010001000_00000000100_00000_000_000000000001000000, .pref (fM 1672 4 0 0 64)),
    (0b0100001111_111_0_000_00000000011_00000000001_11010001000_11010001000_000, .tlook (fR 0 3 1 1672 1672 0)),
    (0b0100010000_111_0_000_11010001000_00000000001_00000000010_11010001000_000, .tset (fR 0 1672 1 2 1672 0)),
    (0b0100010001_111_0_000_11010001000_00000000001_11010001000_11010001000_000, .tclr (fR 0 1672 1 1672 1672 0))] = true := by decide +kernel

theorem test_decode_cpy : reads [
    (0b0101000000_111_0_000_00000_00000_11000000101_11000000110_11000001010_0100, .cpy (fP 0 0 1541 1542 1546 4)),
    (0b0101000001_111_0_000_00000_00001_00000001000_00000000010_11000000101_0011, .cpyr (fP 0 1 8 2 1541 3)),
    (0b0101000010_111_0_000_00000_00000_11000000101_11010001000_11010001000_0001, .cpyi (fP 0 0 1541 1672 1672 1)),
    (0b0101000011_111_0_000_11000000101_11010001000_11010001000_11010001000_000, .cseal (fR 0 1541 1672 1672 1672 0)),
    (0b0101000100_111_0_0_11010001000_11000000101_000_000000000000000000000110, .cwait (fI 1672 1541 0 6)),
    (0b0101000101_111_0_0_11010001000_11000000101_000_000000000000000000000010, .cwaitk (fI 1672 1541 0 2)),
    (0b0101000110_111_0_000_01001_00000_11000000101_11010001000_11010001000_0001, .lyld (fP 9 0 1541 1672 1672 1)),
    (0b0101000111_111_0_000_00000_01010_11000000101_11010001000_11010001000_0000, .lyst (fP 0 10 1541 1672 1672 0)),
    (0b0101001000_111_0_000_01011_00000_00000000001_00000000010_11010001000_0000, .lyset (fP 11 0 1 2 1672 0)),
    (0b0101001001_111_0_000_00000_01100_00000000011_00000000010_11010001000_0000, .lyget (fP 0 12 3 2 1672 0)),
    (0b0101001010_111_0_000_01101_01110_00000000110_11010001000_11010001000_1001, .place (fP 13 14 6 1672 1672 9)),
    (0b0101001011_111_0_000_01111_10000_00000000011_11010001000_11010001000_0000, .plq (fP 15 16 3 1672 1672 0)),
    (0b0101001100_111_0_000_00000_10001_00000000011_00000000010_11010001000_0000, .tld (fP 0 17 3 2 1672 0)),
    (0b0101001101_111_0_000_10010_00000_00000000001_00000000010_11010001000_0000, .tst (fP 18 0 1 2 1672 0))] = true := by decide +kernel

theorem test_decode_cpy_2 : reads [
    (0b0101001110_111_0_000_00000_10011_00000000011_00000000010_11010001000_0000, .loc (fP 0 19 3 2 1672 0))] = true := by decide +kernel

theorem test_decode_mtx : reads [
    (0b0110000000_111_0_10001_00000001000_11000000110_001_000_1_0_000_000000000000, .mmah (fX 17 8 1542 1 0 true false 0)),
    (0b0110000001_111_0_00001_00000001000_11000000110_011_010_0_1_000_000000000100, .mmab (fX 1 8 1542 3 2 false true 4)),
    (0b0110000010_111_0_00010_11010001000_11010001000_001_010_0_0_000_000001000000, .scacc (fX 2 1672 1672 1 2 false false 64)),
    (0b0110000011_111_0_000_11010001000_00000000001_11010001000_11010001000_000, .spush (fR 0 1672 1 1672 1672 0)),
    (0b0110000100_111_0_000_11010001000_11010001000_11010001000_11010001000_000, .schk (fR 0 1672 1672 1672 1672 0)),
    (0b0110000101_111_0_11111_11010001000_11010001000_000_000_0_0_000_000000000000, .azero (fX 31 1672 1672 0 0 false false 0)),
    (0b0110000110_111_0_00101_11010001000_11000000110_000_000_0_0_000_000000000000, .ald (fX 5 1672 1542 0 0 false false 0)),
    (0b0110000111_111_0_00110_11010001000_11000000110_000_000_0_0_000_000000000001, .drn (fX 6 1672 1542 0 0 false false 1)),
    (0b0110001000_111_0_000_11000000110_11000000101_11000001010_11010001000_000, .pjadj (fR 0 1542 1541 1546 1672 0)),
    (0b0110001001_111_0_00111_11010001000_11010001000_000_000_0_0_000_000000000000, .achk (fX 7 1672 1672 0 0 false false 0)),
    (0b0110001010_111_0_000_11010001000_11010001000_11010001000_11010001000_000, .arel (fR 0 1672 1672 1672 1672 0)),
    (0b0110001011_111_0_0_11010001000_11000000101_000_111111111111111111111111, .aset (fI 1672 1541 0 16777215))] = true := by decide +kernel

theorem test_decode_sfq : reads [
    (0b0111000000_111_0_0_00000000011_00000000100_000_000000000000000001011001, .sfq (fI 3 4 0 89)),
    (0b0111000001_111_0_0_11010001000_11010001000_000_000000001000000000000001, .sfwait (fI 1672 1672 0 32769)),
    (0b0111000010_111_0_0_00000000100_11010001000_000_000000000000000000010000, .sfpoll (fI 4 1672 0 16))] = true := by decide +kernel

theorem test_decode_syn : reads [
    (0b1000000000_111_0_0000000000_1111111111111111111111111111111111111101, .bra (fJ 0 1099511627773)),
    (0b1000000001_111_0_000_11010001000_00000000001_11010001000_11010001000_000, .brx (fR 0 1672 1 1672 1672 0)),
    (0b1000000010_111_0_0000000000_0000000000000000000000000000000000001100, .call (fJ 0 12)),
    (0b1000000011_111_0_000_11010001000_11000000110_11010001000_11010001000_000, .callx (fR 0 1672 1542 1672 1672 0)),
    (0b1000000100_111_0_000_11010001000_11010001000_11010001000_11010001000_000, .ret (fR 0 1672 1672 1672 1672 0)),
    (0b1000000101_111_0_0000000000_0000000000000000000000000000000000000101, .mjoin (fJ 0 5)),
    (0b1000000110_111_0_000_11010001000_11010001000_11010001000_11010001000_000, .join (fR 0 1672 1672 1672 1672 0)),
    (0b1000000111_111_0_0110100000_0000000000000000000000000000000000000111, .brw (fJ 416 7)),
    (0b1000001000_111_0_000_11010001000_11010001000_11010001000_11010001000_000, .exit (fR 0 1672 1672 1672 1672 0)),
    (0b1000001001_111_0_000_11010001000_11010001000_11010001000_11010001000_000, .nop (fR 0 1672 1672 1672 1672 0)),
    (0b1000001010_111_0_0_11010001000_00000001000_000_000000000000000000000101, .rpf (fI 1672 8 0 5)),
    (0b1000001011_111_0_0_11010001000_00000001000_000_000000000000000001000000, .rdrop (fI 1672 8 0 64)),
    (0b1000001100_111_0_0_11010001000_11000000101_000_000000000000000000000111, .wbind (fI 1672 1541 0 7)),
    (0b1000001101_111_0_0_00000000011_11010001000_000_000000000000000000000110, .wstat (fI 3 1672 0 6))] = true := by decide +kernel

theorem test_decode_syn_2 : reads [
    (0b1000001110_111_0_0_11010001000_11010001000_000_000100100011010001010110, .trap (fI 1672 1672 0 1193046)),
    (0b1000001111_111_0_0_11010001000_11010001000_000_000000000000000000000001, .bkpt (fI 1672 1672 0 1)),
    (0b1000010000_111_0_000_11010001000_11010001000_11010001000_11010001000_000, .yield (fR 0 1672 1672 1672 1672 0)),
    (0b1000010001_111_0_0_11010001000_11010001000_000_000000000000000001100100, .sleep (fI 1672 1672 0 100)),
    (0b1000010010_111_0_0_00000000011_11010001000_000_000000000000000100000001, .rdsr (fI 3 1672 0 257)),
    (0b1000010011_111_0_0_00000000011_11000000101_000_000000000000000000000001, .caprd (fI 3 1541 0 1)),
    (0b1000100000_111_0_0011_1_00000000100_0000000000000000000000000000000000, .bara (fS 3 true 4)),
    (0b1000100001_111_0_1111_0_11000000101_0000000000000000000000000000000000, .barw (fS 15 false 1541)),
    (0b1000100010_111_0_0_00000000011_11010001000_000_000000000000000000001001, .barq (fI 3 1672 0 9)),
    (0b1000100011_111_0_0001_1_00000001000_0000000000000000000000000000000000, .cbar (fS 1 true 8)),
    (0b1000100100_111_0_000_11010001000_11000000101_11000000110_11000001010_000, .xwin (fR 0 1672 1541 1542 1546 0)),
    (0b1000100101_111_0_000_00000000011_00000000001_00000000010_11000000101_000, .xst (fR 0 3 1 2 1541 0)),
    (0b1000100110_111_0_000_11010001000_00000001000_00000000010_00011_111_10_0000, .xadd (fA 1672 8 2 3 7 2)),
    (0b1000100111_111_0_000_11010001000_00000000001_00000000010_11010001000_000, .semp (fR 0 1672 1 2 1672 0))] = true := by decide +kernel

theorem test_decode_syn_3 : reads [
    (0b1000101000_111_0_000_11010001000_00000000001_00000000010_11010001000_000, .semw (fR 0 1672 1 2 1672 0))] = true := by decide +kernel

theorem test_decode_f9 : reads [
    (0b1001000000_111_0_000_00000000011_00000000001_11010001000_11010001000_000, .gpost (fR 0 3 1 1672 1672 0)),
    (0b1001000001_111_0_000_11010001000_00000000001_00000000010_11010001000_000, .garm (fR 0 1672 1 2 1672 0)),
    (0b1001000010_111_0_000_00000000011_00000000001_00000000010_11010001000_000, .gwait (fR 0 3 1 2 1672 0)),
    (0b1001000011_111_0_000_11010001000_11010001000_11010001000_11010001000_000, .grdy (fR 0 1672 1672 1672 1672 0)),
    (0b1001000100_111_0_000_00000000011_00000000001_00000000010_00000000100_000, .madmit (fR 0 3 1 2 4 0)),
    (0b1001000101_111_0_000_11010001000_00000000001_00000000010_11010001000_000, .mretire (fR 0 1672 1 2 1672 0)),
    (0b1001000110_111_0_000_00000000011_00000000001_11010001000_11010001000_000, .mread (fR 0 3 1 1672 1672 0))] = true := by decide +kernel

theorem test_decode_fab : reads [
    (0b1010000000_111_0_00_00000000110_11000001010_00110_011_000000000000000000, .rld (fM 6 1546 6 3 0)),
    (0b1010000001_111_0_00_00000000110_11000001010_10110_101_000000000000100000, .rst (fM 6 1546 22 5 32)),
    (0b1010000010_111_0_000_00000000011_11000001010_00000000010_00110_100_01_0000, .ratom (fA 3 1546 2 6 4 1)),
    (0b1010000011_111_0_000_00000000011_11000001010_00000000010_11010001000_110, .rcas (fR 0 3 1546 2 1672 6)),
    (0b1010000100_111_0_000_11010001000_11000000101_11000000110_11010001000_000, .rflush (fR 0 1672 1541 1542 1672 0)),
    (0b1010000101_111_0_000_00000000011_11000001010_11010001000_11010001000_000, .rrel (fR 0 3 1546 1672 1672 0)),
    (0b1010000110_111_0_000_00000000011_00000000001_11010001000_11010001000_000, .rankq (fR 0 3 1 1672 1672 0)),
    (0b1010000111_111_0_000_00000000011_11000000101_11010001000_11010001000_110, .coll (fR 0 3 1541 1672 1672 6)),
    (0b1010001000_111_0_000_11010001000_11000000101_11010001000_11010001000_000, .collw (fR 0 1672 1541 1672 1672 0)),
    (0b1010001001_111_0_000_00000000011_11000000101_11010001000_11010001000_001, .crjob (fR 0 3 1541 1672 1672 1)),
    (0b1010001010_111_0_000_11010001000_11000000101_11010001000_11010001000_000, .crwait (fR 0 1672 1541 1672 1672 0)),
    (0b1010001011_111_0_000_00000000011_11000000101_11010001000_11010001000_000, .crstat (fR 0 3 1541 1672 1672 0)),
    (0b1010001100_111_0_000_00000000011_11000000101_11010001000_11010001000_000, .crplan (fR 0 3 1541 1672 1672 0))] = true := by decide +kernel

theorem test_decode_sys : reads [
    (0b1100000000_111_0_0_11010001000_11000000101_000_000000000000000100000011, .wrsr (fI 1672 1541 0 259)),
    (0b1100000001_111_0_000_11010001000_11000000101_11000000110_11010001000_000, .eret (fR 0 1672 1541 1542 1672 0)),
    (0b1100000010_111_0_000_11010001000_11000000101_11000000110_11010001000_000, .tlbi (fR 0 1672 1541 1542 1672 0)),
    (0b1100000011_111_0_000_11010001000_11000000101_11000000110_11000001010_000, .rtabw (fR 0 1672 1541 1542 1546 0)),
    (0b1100000100_111_0_000_11010001000_11010001000_11010001000_11010001000_000, .halt (fR 0 1672 1672 1672 1672 0)),
    (0b1100000101_111_0_000_11010001000_11000000101_11000000110_11010001000_000, .diag (fR 0 1672 1541 1542 1672 0)),
    (0b1100000110_111_0_000_11000001010_11000000101_11000000110_11010001000_000, .ctxsv (fR 0 1546 1541 1542 1672 0)),
    (0b1100000111_111_0_000_11010001000_11000000101_11000000110_11010001000_000, .ctxld (fR 0 1672 1541 1542 1672 0))] = true := by decide +kernel

/-! ### Small states -/

/-- A page table at 0x100000 whose one leaf of 8 GiB maps every low address to itself with all rights (R286), and two clause
headers of one instruction at word addresses 0x1000 and 0x1001 (R40). -/
def demoTable : Memory := [(0x8007, 0xFC), (0x800F, 0xFC), (0x100000, 1), (0x100002, 0x11), (0x110000, 0x1F)]

/-- A partition of all six dies over that table, with rank 0 of job 0 on die 0 of package 5 (R364) and one host window entry (R333). -/
def demoPart : Partition := { Partition.blank with
  num := 0, dies := 0x3F, diag := true, started := true, grants := [(0, 2 ^ 33)], ptroot := 0x100000, trapq := 0x200006
  jobs := [(0, 0x8000000000010005)], hostWin := [(0, 7)], inbox := 0x300000 }

def demoKernel : Kernel := { Kernel.none with width := 16, rounds := 3, spad := 65536, acc := 4, zslots := 2 }
def demoTeam : Team := Team.fresh none 0 0 0 0 0 false demoKernel 4 0

/-- The package with every function ready (R338). -/
def demoPackage : Package := { Package.reset with
  number := 5, domain := [4, 5, 6, 13], boot := 2, ready := (List.range 17).map (fun w => (w, BitVec.allOnes 64)) }

/-- A round of width 16 in the middle of a clause of two words; `vs` are its v registers and `ss` its first s registers. -/
def demoRound (vs : SMap Lanes) (ss : List Word) : Round := { Round.fresh 0 0 16 0 0 0 1 false 1 (ss ++ List.replicate (128 - ss.length) 0) with
  v := vs
  clause := some { h := 16, cls := 0, cnt := 1, gap := 0, yld := false, uni := 0, words := [0, 0], idx := 0 } }

/-- The page as core 0 has cached it (R287). -/
def demoLeaf : TlbEntry := { part := 0, va := 0, size := 2 ^ 33, pa := 0, u := true, x := true, w := true }

def demoState (r : Round) : State := { State.reset with
  rounds := [r], teams := [demoTeam], parts := [demoPart], mem := demoTable, package := demoPackage
  cores := [(0, { Core.reset with tlb := [demoLeaf] })]
  gangs := [{ Gang.blank with size := 1 }]
  dies := (List.range 6).map (fun _ => { Die.reset with part := some 0 }) }

def lanes16 (f : Nat → Word) : Lanes := tab f

/-- v1 counts lanes, v2 holds 8-byte steps from 0x2000, v3 ones, v4 is 0x80 in every lane, v5 zeros; s0 is 64, s1 is 0x400, s2 is 1, s3 is 2^30, s4 is 2,
s5 is 0x800000, s6 is 3, s7 is 0x8000, s8 is 0x301.
Of its 16 live lanes, lanes 0 and 1 are current. -/
def r0 : Round := { demoRound
  [(1, tab (fun l => BitVec.ofNat 64 l)), (2, tab (fun l => BitVec.ofNat 64 (0x2000 + 8 * l))), (3, tab (fun _ => 1)),
   (4, tab (fun _ => 0x80)), (5, tab (fun _ => 0))] [64, 0x400, 1, 2 ^ 30, 2, 0x800000, 3, 0x8000, 0x301] with cur := 3 }
def s0 : State := demoState r0

def startsB (s : State) (r : Round) (fs : List Field) (names : List Nat) : Bool :=
  (s.issuing == some r) && r.clause.isSome
    && (fs.flatMap (fun f => regNames f.1 1) ++ names).all (fun n => !(s.pendingNames s.cur r).contains n)
    && (unboundAt r 0 (fs.map (fun f => f.1))).isNone

theorem starts_of {s : State} {r : Round} {fs : List Field} {names : List Nat} (h : startsB s r fs names = true) :
    Starts s r fs names := by
  simp only [startsB, Bool.and_eq_true, beq_iff_eq, List.all_eq_true, Bool.not_eq_true', Option.isNone_iff_eq_none] at h
  exact ⟨h.1.1.1, h.1.1.2, fun n hn => by simpa using h.1.2 n hn, h.2⟩

def fitsB (b e : State) (fs : List Field) (write : Round → Round) : Bool :=
  match e.issuing with
  | none => false
  | some q => b.rowsFit b.cur (write (settle fs q))

theorem fits_of {b e : State} {fs : List Field} {write : Round → Round} (h : fitsB b e fs write = true) : Fits b e fs write := by
  unfold fitsB at h
  split at h
  · simp at h
  · exact ⟨_, ‹_›, h⟩

/-- Witnesses apply a statement to a state and operands, with every hypothesis shown to hold of them. -/
theorem meets {i : Instr} {g : Guard} {fs : List Field} {names : List Nat} {w : Nat → Mask → List Lanes → Round → Round}
    (h : RegisterCompletes i g fs names w) (s : State) (r : Round)
    (hs : startsB s r fs names = true)
    (hf : s.rowsFit s.cur (written s r g fs (w r.width)) = true) : ∃ t, Completes i s t :=
  ⟨_, h s r (starts_of hs) hf⟩

def isNext (x : Res) : Bool := match x with | .next _ => true | _ => false
def nextOf (x : Res) : State := match x with | .next t => t | _ => State.reset
theorem next_of {x : Res} (h : isNext x = true) : x = .next (nextOf x) := by
  cases x <;> simp_all [isNext, nextOf]

theorem some_of {α : Type} {x : Option α} (d : α) (h : x.isSome = true) : x = some (x.getD d) := by cases x <;> simp_all

/-- The issuing round of a state. -/
def roundOf (s : State) : Round := s.issuing.getD r0
theorem issuing_of {s : State} (h : s.issuing.isSome = true) : s.issuing = some (roundOf s) := by
  unfold roundOf; cases hs : s.issuing <;> simp_all

def releasesB (s : State) (r : Round) (scope : Nat) (fence : Bool) : Bool :=
  s.effScope r scope != 6 || ((s.afterRelease r scope fence).systemReady s.cur
    && match (s.afterRelease r scope fence).issuing with | some q => q.kept.isNone | none => false)
theorem releases_of {s : State} {r : Round} {scope : Nat} {fence : Bool} (h : releasesB s r scope fence = true) :
    s.Releases r scope fence := by
  intro h6
  simp only [releasesB, Bool.or_eq_true, bne_iff_ne, ne_eq, h6, not_true_eq_false, false_or, Bool.and_eq_true] at h
  refine ⟨h.1, ?_⟩
  have h2 := h.2
  split at h2
  · exact ⟨_, by assumption, by simpa using h2⟩
  · simp at h2

/-- A record of rank 1 and extent 32 of 8-bit elements (R177): kind, buffers, lane bits, first register, matrix rows. -/
def rec32 (kind : Nat) (base alt : Word) (vbase : Nat) (rows : List Word) : List Word :=
  [BitVec.ofNat 64 (1 + 2 ^ 8 * 128 + 2 ^ 16 * kind + 2 ^ 24 * (if kind = 2 then 2 else 0) + 2 ^ 32 * vbase), 0, 32, 0, 0, base, alt, 0]
    ++ rows ++ List.replicate (56 - rows.length) 0

def upRows : List Word := [1, 2, 4, 8, 16]
def downRows : List Word := [16, 8, 4, 2, 1]

/-- Where the identity page map puts z bytes at each lane's v2, and 64 or more bytes at one address for lane 0. -/
def pas2 (z : Nat) : List (Nat × List Nat) := (List.range 2).map (fun l => (l, (List.range z).map (fun i => 0x2000 + 8 * l + i)))
def pasAt (a n : Nat) : List Nat := (List.range n).map (fun i => a + i)
def pas1 (a n : Nat) : List (Nat × List Nat) := [(0, pasAt a n)]

theorem none_in {α : Type} {l : List α} {p : α → Prop} (h : l.isEmpty = true) : ∀ x ∈ l, p x := by
  rw [List.isEmpty_iff] at h; subst h; simp

/-! ### Witnesses: encodings, steps, operands -/

theorem witness_EncodeDecode : (Instr.iadd (fR 4 3 1 2 1672 5)).hasWord = true ∧ (Instr.iadd (fR 4 3 1 2 1672 5)).wf 16 = true
    ∧ (Instr.bra (fJ 0 (2 ^ 40 - 1))).wf 64 = true ∧ (Instr.movi (fI 127 1672 6 0xFFFFFF)).wf 16 = true := by decide +kernel

theorem witness_DecodeEncode : decodeOpcode false 0b0100000000_111_0_00_00000000110_00000000100_00000_011_111111111111111111
    = some (.ld (fM 6 4 0 3 0x3FFFF)) ∧ decodeOpcode true 0 = some (.iadd { fR 0 0 0 0 0 0 with g := { p := 0, inv := false, uni := true } }) := by decide +kernel

/-- The largest header and the smallest. -/
theorem witness_HeaderRoundTrip (h : Obligations.HeaderRoundTrip) :
    headerFails (packHeader { cls := 7, cnt := 15, gap := 7, yld := true, uni := 0xFFFF }) = []
    ∧ headerFails (packHeader { cls := 0, cnt := 0, gap := 0, yld := false, uni := 1 }) = [] :=
  ⟨(h _ (by decide +kernel) (by decide +kernel) (by decide +kernel) (by decide +kernel)).2.2, (h _ (by decide +kernel) (by decide +kernel) (by decide +kernel) (by decide +kernel)).2.2⟩

/-- The machine placed before a word, and the word IADD v3, v1, v2 (R53, R61). -/
def placed (w : Word) : State := State.reset.withFetchWord 64 w.toNat
def placedRound (w : Word) : Round := (placed w).rounds.headD r0
def addWord : Word := 0b0000000000_111_0_000_00000000011_00000000001_00000000010_11010001000_000

/-- The issue of a placed word, at once and left pending; an event; and a selection of a quadrant whose round stands in a clause. -/
theorem witness_StepRunsTurn (h : Obligations.StepRunsTurn) :
    step (placed addWord) = exec (.iadd (fR 0 3 1 2 1672 0)) { placed addWord with cur := 0, late := false, agenda := [] }
    ∧ step { placed addWord with agenda := [.late 0] }
      = exec (.iadd (fR 0 3 1 2 1672 0)) { placed addWord with cur := 0, late := true, agenda := [] }
    ∧ step { s0 with agenda := [.event .rotorPhase] } = exec .rotorPhase { s0 with agenda := [] }
    ∧ step { s0 with agenda := [.event (.clauseSelect 0 0 5)] } = .next (({ s0 with agenda := [] } : State).tick 5) :=
  ⟨h.1 (placed addWord) 0 false [] (placedRound addWord) false addWord _ rfl (by decide +kernel) (by decide +kernel) (by decide +kernel)
      (by decide +kernel) rfl,
   h.1 { placed addWord with agenda := [.late 0] } 0 true [] (placedRound addWord) false addWord _ rfl (by decide +kernel)
      (by decide +kernel) (by decide +kernel) (by decide +kernel) rfl,
   (h.2 { s0 with agenda := [.event .rotorPhase] } .rotorPhase [] rfl (by decide +kernel)).1 (fun _ _ _ he => by cases he),
   (h.2 { s0 with agenda := [.event (.clauseSelect 0 0 5)] } (.clauseSelect 0 0 5) [] rfl (by decide +kernel)).2 0 0 5 rfl
      (by decide +kernel)⟩

/-- An unassigned opcode; AND with completer bit 0; IADD to the reserved operand code 2047 (R47, R60, R61). -/
def badOpcode : Word := 0b1111100000_111_0_00000000000000000000000000000000000000000000000000
def badField : Word := 0b0000001000_111_0_000_00000000011_00000000001_00000000010_11010001000_001
def badOperand : Word := 0b0000000000_111_0_000_11111111111_00000000001_00000000010_11010001000_000

theorem witness_UndecodedTraps (h : Obligations.UndecodedTraps) :
    (∃ t, step (placed badOpcode) = .next t) ∧ (∃ t, step (placed badField) = .next t) ∧ (∃ t, step (placed badOperand) = .next t) := by
  obtain ⟨t1, _, h1, _⟩ := h (placed badOpcode) 0 [] (placedRound badOpcode) false badOpcode .illegalOpcode rfl (by decide +kernel) (by decide +kernel) (by decide +kernel) (by decide +kernel) rfl
  obtain ⟨t2, _, h2, _⟩ := h (placed badField) 0 [] (placedRound badField) false badField (.illegalField 0 false) rfl (by decide +kernel) (by decide +kernel) (by decide +kernel) (by decide +kernel) rfl
  obtain ⟨t3, _, h3, _⟩ := h (placed badOperand) 0 [] (placedRound badOperand) false badOperand (.illegalOperand 36) rfl (by decide +kernel) (by decide +kernel) (by decide +kernel) (by decide +kernel) rfl
  exact ⟨⟨t1, h1⟩, ⟨t2, h2⟩, ⟨t3, h3⟩⟩

theorem witness_OperandReads : operand 1672 = .zero ∧ operand 1673 = .special .lane ∧ operand (1536 + 127) = .s 127 ∧ operand 1535 = .v 1535
    ∧ SMap.find r0.v 1535 = none ∧ SMap.find r0.v 1 ≠ none ∧ operand 1664 = .t 0 := by decide +kernel

theorem witness_OperandWrites (h : Obligations.OperandWrites) :
    (writeOperand 0 6 [] r0 = r0) ∧ writeOperand 1 1672 [] r0 = r0
    ∧ laneOf ((writeOperand 1 6 (tab (fun _ => 9)) r0).readV 6) 63 = laneOf (r0.readV 6) 63
    ∧ (writeOperand (BitVec.allOnes 64) 1663 (tab (fun _ => 9)) r0).s.getD 127 0 = laneOf (tab (fun _ => 9)) 0 := by
  obtain ⟨h1, _, _, _, _⟩ := h 0 6 [] r0
  obtain ⟨_, h2, _, _, _⟩ := h 1 1672 [] r0
  obtain ⟨_, _, h3, _, _⟩ := h 1 6 (tab (fun _ => 9)) r0
  obtain ⟨_, _, _, _, h5⟩ := h (BitVec.allOnes 64) 1663 (tab (fun _ => 9)) r0
  refine ⟨h1 rfl, h2 (by decide +kernel), ?_, (h5 127 0 (by decide +kernel) (by decide +kernel) (by decide +kernel)).2⟩
  rw [h3 6 63 (by decide +kernel) (by decide +kernel) (by decide +kernel), if_neg (by decide +kernel)]

theorem witness_GuardAndPredicates (h : Obligations.GuardAndPredicates) :
    (r0.setPred 6 1 1).pred 6 = ((r0.pred 6 &&& ~~~1) ||| (1 &&& 1)) ∧ (r0.setPred 6 1 1).pred 0 = r0.pred 0
    ∧ r0.passing p7 = r0.cur ∧ r0.passing { p7 with inv := true } = 0 :=
  ⟨(h r0 p7 6 1 1).2.2.1 (by decide +kernel) (by decide +kernel), (h r0 p7 6 1 1).2.2.2.1 0 (by decide +kernel), (h r0 p7 6 1 1).2.2.2.2.1 rfl rfl rfl,
    (h r0 { p7 with inv := true } 6 1 1).2.2.2.2.2 rfl rfl rfl⟩

/-- Both ends of each width (R109, R110). -/
theorem witness_IntegerArithmetic (h : Obligations.IntegerArithmetic) (g : Obligations.SaturatingArithmetic) :
    addE 8 false 255 1 = 0 ∧ (BitVec.ofNat 8 (addE 8 true 127 127)).toInt = 127 ∧ (BitVec.ofNat 64 (absE 64 true (2 ^ 63))).toInt = 2 ^ 63 - 1 :=
  ⟨(h 8 (.inl rfl) 255 1 0).1, (g 8 (.inl rfl) 127 127).1, (g 64 (.inr (.inr (.inr rfl))) (BitVec.intMin 64) 0).2.2.2⟩

/-- Shifts of -64 by 1 and by 8 in 8-bit elements. -/
theorem witness_ShiftCounts (h : Obligations.ShiftCounts) :
    elem 8 (mapElems2 8 (shlE 8 false) 0xC0 1) 0 = 0x80 ∧ (BitVec.ofNat 8 (elem 8 (mapElems2 8 (sarE 8) 0xC0 8) 0)).toInt = -1 :=
  ⟨((h.2 8 (.inl rfl) 0xC0 1 0 (by decide)).1 (by decide +kernel)).1, ((h.2 8 (.inl rfl) 0xC0 8 0 (by decide)).2 (by decide +kernel)).2.2.2⟩

/-- A register instruction that writes, one that traps on an unbound walker, and one whose guard no lane passes. -/
theorem witness_RegisterFrame (h : Obligations.RegisterFrame) :
    (nextOf (exec (.iadd (fR 4 6 1 2 1672 0)) s0)).mem = s0.mem ∧ (nextOf (exec (.mov (fR 0 6 1696 1672 1672 0)) s0)).mem = s0.mem
    ∧ (nextOf (exec (.mov { fR 4 6 1 1672 1672 0 with g := { p := 0, inv := false, uni := false } }) s0)).mem = s0.mem :=
  have go (i : Instr) fs ds p (hi : registerShape i = some (fs, ds, p)) (hn : isNext (exec i s0) = true)
      (hq : (nextOf (exec i s0)).issuing.isSome = true) : (nextOf (exec i s0)).mem = s0.mem :=
    (h i s0 _ r0 _ fs ds p hi rfl (by decide) (next_of hn) (issuing_of hq)).1
  ⟨go _ _ _ _ rfl (by decide +kernel) (by decide +kernel), go _ _ _ _ rfl (by decide +kernel) (by decide +kernel),
    go _ _ _ _ rfl (by decide +kernel) (by decide +kernel)⟩

/-! ### Witnesses: operands and register instructions -/

theorem witness_IntegerCompletes (h : Obligations.IntegerCompletes) :
    (∃ t, Completes (.iadd (fR 0 6 1 2 3 0)) s0 t)
    ∧ (∃ t, Completes (.isub (fR 0 6 1 2 3 0)) s0 t)
    ∧ (∃ t, Completes (.imul (fR 0 6 1 2 3 0)) s0 t)
    ∧ (∃ t, Completes (.imulh (fR 0 6 1 2 3 0)) s0 t)
    ∧ (∃ t, Completes (.imad (fR 0 6 1 2 3 0)) s0 t)
    ∧ (∃ t, Completes (.imin (fR 0 6 1 2 3 0)) s0 t)
    ∧ (∃ t, Completes (.imax (fR 0 6 1 2 3 0)) s0 t)
    ∧ (∃ t, Completes (.iabs (fR 0 6 1 2 3 0)) s0 t)
    ∧ (∃ t, Completes (.and (fR 0 6 1 2 3 0)) s0 t)
    ∧ (∃ t, Completes (.or (fR 0 6 1 2 3 0)) s0 t)
    ∧ (∃ t, Completes (.xor (fR 0 6 1 2 3 0)) s0 t)
    ∧ (∃ t, Completes (.andn (fR 0 6 1 2 3 0)) s0 t)
    ∧ (∃ t, Completes (.not (fR 0 6 1 2 3 0)) s0 t)
    ∧ (∃ t, Completes (.shl (fR 0 6 1 2 3 0)) s0 t)
    ∧ (∃ t, Completes (.shr (fR 0 6 1 2 3 0)) s0 t)
    ∧ (∃ t, Completes (.sar (fR 0 6 1 2 3 0)) s0 t)
    ∧ (∃ t, Completes (.rol (fR 0 6 1 2 3 0)) s0 t)
    ∧ (∃ t, Completes (.popc (fR 0 6 1 2 3 0)) s0 t)
    ∧ (∃ t, Completes (.clz (fR 0 6 1 2 3 0)) s0 t)
    ∧ (∃ t, Completes (.ctz (fR 0 6 1 2 3 0)) s0 t)
    ∧ (∃ t, Completes (.brev (fR 0 6 1 2 3 0)) s0 t)
    ∧ (∃ t, Completes (.bfx (fR 0 6 1 2 3 0)) s0 t)
    ∧ (∃ t, Completes (.bfi (fR 0 6 1 2 3 0)) s0 t)
    ∧ (∃ t, Completes (.lea (fR 0 6 1 2 3 0)) s0 t)
    ∧ (∃ t, Completes (.mov (fR 0 6 1 2 3 0)) s0 t)
    ∧ (∃ t, Completes (.bysel (fR 0 6 1 2 3 0)) s0 t)
    ∧ (∃ t, Completes (.pick (fR 0 6 1 2 3 0)) s0 t)
    ∧ (∃ t, Completes (.sel (fR 0 6 1 2 3 0)) s0 t) := by
  obtain ⟨h1, h2, h3, h4, h5, h6, h7, h8, h9, h10, h11, h12, h13, h14, h15, h16, h17, h18, h19, h20, h21, h22, h23, h24, h25, h26, h27, h28⟩ := h (fR 0 6 1 2 3 0)
  exact ⟨meets h1 s0 r0 (by decide +kernel) (by decide +kernel),
    meets h2 s0 r0 (by decide +kernel) (by decide +kernel),
    meets h3 s0 r0 (by decide +kernel) (by decide +kernel),
    meets h4 s0 r0 (by decide +kernel) (by decide +kernel),
    meets h5 s0 r0 (by decide +kernel) (by decide +kernel),
    meets h6 s0 r0 (by decide +kernel) (by decide +kernel),
    meets h7 s0 r0 (by decide +kernel) (by decide +kernel),
    meets h8 s0 r0 (by decide +kernel) (by decide +kernel),
    meets h9 s0 r0 (by decide +kernel) (by decide +kernel),
    meets h10 s0 r0 (by decide +kernel) (by decide +kernel),
    meets h11 s0 r0 (by decide +kernel) (by decide +kernel),
    meets h12 s0 r0 (by decide +kernel) (by decide +kernel),
    meets h13 s0 r0 (by decide +kernel) (by decide +kernel),
    meets h14 s0 r0 (by decide +kernel) (by decide +kernel),
    meets h15 s0 r0 (by decide +kernel) (by decide +kernel),
    meets h16 s0 r0 (by decide +kernel) (by decide +kernel),
    meets h17 s0 r0 (by decide +kernel) (by decide +kernel),
    meets h18 s0 r0 (by decide +kernel) (by decide +kernel),
    meets h19 s0 r0 (by decide +kernel) (by decide +kernel),
    meets h20 s0 r0 (by decide +kernel) (by decide +kernel),
    meets h21 s0 r0 (by decide +kernel) (by decide +kernel),
    meets h22 s0 r0 (by decide +kernel) (by decide +kernel),
    meets h23 s0 r0 (by decide +kernel) (by decide +kernel),
    meets h24 s0 r0 (by decide +kernel) (by decide +kernel),
    meets h25 s0 r0 (by decide +kernel) (by decide +kernel),
    meets h26 s0 r0 (by decide +kernel) (by decide +kernel),
    meets h27 s0 r0 (by decide +kernel) (by decide +kernel),
    meets h28 s0 r0 (by decide +kernel) (by decide +kernel)⟩

theorem witness_ImmediateCompletes (h : Obligations.ImmediateCompletes) :
    (∃ t, Completes (.iaddi (fI 6 1 0 3)) s0 t)
    ∧ (∃ t, Completes (.imuli (fI 6 1 0 3)) s0 t)
    ∧ (∃ t, Completes (.andi (fI 6 1 0 3)) s0 t)
    ∧ (∃ t, Completes (.ori (fI 6 1 0 3)) s0 t)
    ∧ (∃ t, Completes (.xori (fI 6 1 0 3)) s0 t)
    ∧ (∃ t, Completes (.shli (fI 6 1 0 3)) s0 t)
    ∧ (∃ t, Completes (.shri (fI 6 1 0 3)) s0 t)
    ∧ (∃ t, Completes (.sari (fI 6 1 0 3)) s0 t)
    ∧ (∃ t, Completes (.movi (fI 6 1 0 3)) s0 t)
    ∧ (∃ t, Completes (.movk (fI 6 1 0 3)) s0 t) := by
  obtain ⟨h1, h2, h3, h4, h5, h6, h7, h8, h9, h10⟩ := h (fI 6 1 0 3)
  exact ⟨meets h1 s0 r0 (by decide +kernel) (by decide +kernel),
    meets h2 s0 r0 (by decide +kernel) (by decide +kernel),
    meets h3 s0 r0 (by decide +kernel) (by decide +kernel),
    meets h4 s0 r0 (by decide +kernel) (by decide +kernel),
    meets h5 s0 r0 (by decide +kernel) (by decide +kernel),
    meets h6 s0 r0 (by decide +kernel) (by decide +kernel),
    meets h7 s0 r0 (by decide +kernel) (by decide +kernel),
    meets h8 s0 r0 (by decide +kernel) (by decide +kernel),
    meets h9 s0 r0 (by decide +kernel) (by decide +kernel),
    meets h10 s0 r0 (by decide +kernel) (by decide +kernel)⟩

theorem witness_PredicateCompletes (h : Obligations.PredicateCompletes) :
    (∃ t, Completes (.icmp (fR 0 (8*3+2) 1 2 3 0)) s0 t)
    ∧ (∃ t, Completes (.icmpi (fI (8*3+2) 1 0 3)) s0 t)
    ∧ (∃ t, Completes (.pcomb (fR 0 (8*3+2) 1 2 3 0)) s0 t)
    ∧ (∃ t, Completes (.vote (fR 0 (8*3+2) 1 2 3 0)) s0 t) := by
  obtain ⟨h1, h2, h4, h5⟩ := h (fR 0 (8*3+2) 1 2 3 0) (fI (8*3+2) 1 0 3)
  exact ⟨meets h1 s0 r0 (by decide +kernel) (by decide +kernel),
    meets h2 s0 r0 (by decide +kernel) (by decide +kernel),
    meets h4 s0 r0 (by decide +kernel) (by decide +kernel),
    meets h5 s0 r0 (by decide +kernel) (by decide +kernel)⟩

theorem witness_FloatCompletes (h : Obligations.FloatCompletes) :
    (∃ t, Completes (.fadd .f32 (fR 0 6 1 2 3 0)) s0 t)
    ∧ (∃ t, Completes (.fsub .f32 (fR 0 6 1 2 3 0)) s0 t)
    ∧ (∃ t, Completes (.fmul .f32 (fR 0 6 1 2 3 0)) s0 t)
    ∧ (∃ t, Completes (.ffma .f32 (fR 0 6 1 2 3 0)) s0 t)
    ∧ (∃ t, Completes (.fmin .f32 (fR 0 6 1 2 3 0)) s0 t)
    ∧ (∃ t, Completes (.fmax .f32 (fR 0 6 1 2 3 0)) s0 t)
    ∧ (∃ t, Completes (.frnd .f32 (fR 0 6 1 2 3 0)) s0 t)
    ∧ (∃ t, Completes (.fneg .f32 (fR 0 6 1 2 3 0)) s0 t)
    ∧ (∃ t, Completes (.fabs .f32 (fR 0 6 1 2 3 0)) s0 t)
    ∧ (∃ t, Completes (.fdot .f32 (fR 0 6 1 2 3 0)) s0 t)
    ∧ (∃ t, Completes (.fclass .f32 (fR 0 6 1 2 3 0)) s0 t)
    ∧ (∃ t, Completes (.fcvt (fI 6 1 0 3)) s0 t)
    ∧ (∃ t, Completes (.f2i (fI 6 1 0 3)) s0 t)
    ∧ (∃ t, Completes (.i2f (fI 6 1 0 3)) s0 t)
    ∧ (∃ t, Completes (.qnt (fR 0 6 1 2 3 0)) s0 t)
    ∧ (∃ t, Completes (.dqnt (fR 0 6 1 2 3 0)) s0 t)
    ∧ (∃ t, Completes (.gcomp (fR 0 6 1 2 3 0)) s0 t)
    ∧ (∃ t, Completes (.fcmp .f32 (fR 0 6 1 2 3 0)) s0 t)
    ∧ (∃ t, Completes (.cvtw (fR 0 6 1 2 3 0)) s0 t)
    ∧ (∃ t, Completes (.wreb (fR 0 6 1 2 3 0)) s0 t) := by
  obtain ⟨h1, h2, h3, h4, h5, h6, h7, h8, h9, h10, h11, h12, h13, h14, h15, h16, h17, hc, h18, h19⟩ := h .f32 (fR 0 6 1 2 3 0) (fI 6 1 0 3)
  exact ⟨meets h1 s0 r0 (by decide +kernel) (by decide +kernel),
    meets h2 s0 r0 (by decide +kernel) (by decide +kernel),
    meets h3 s0 r0 (by decide +kernel) (by decide +kernel),
    meets h4 s0 r0 (by decide +kernel) (by decide +kernel),
    meets h5 s0 r0 (by decide +kernel) (by decide +kernel),
    meets h6 s0 r0 (by decide +kernel) (by decide +kernel),
    meets h7 s0 r0 (by decide +kernel) (by decide +kernel),
    meets h8 s0 r0 (by decide +kernel) (by decide +kernel),
    meets h9 s0 r0 (by decide +kernel) (by decide +kernel),
    meets h10 s0 r0 (by decide +kernel) (by decide +kernel),
    meets h11 s0 r0 (by decide +kernel) (by decide +kernel),
    meets h12 s0 r0 (by decide +kernel) (by decide +kernel),
    meets h13 s0 r0 (by decide +kernel) (by decide +kernel),
    meets h14 s0 r0 (by decide +kernel) (by decide +kernel),
    meets h15 s0 r0 (by decide +kernel) (by decide +kernel),
    meets h16 s0 r0 (by decide +kernel) (by decide +kernel),
    meets h17 s0 r0 (by decide +kernel) (by decide +kernel),
    meets hc s0 r0 (by decide +kernel) (by decide +kernel),
    meets h18 s0 r0 (by decide +kernel) (by decide +kernel),
    meets h19 s0 r0 (by decide +kernel) (by decide +kernel)⟩

theorem witness_LaneCompletes (h : Obligations.LaneCompletes) :
    (∃ t, Completes (.shfl (fR 0 6 1 2 3 0)) s0 t)
    ∧ (∃ t, Completes (.shflx (fR 0 6 1 2 3 0)) s0 t)
    ∧ (∃ t, Completes (.bcst (fR 0 6 1 2 3 0)) s0 t)
    ∧ (∃ t, Completes (.radd (fR 0 6 1 2 3 0)) s0 t)
    ∧ (∃ t, Completes (.rmin (fR 0 6 1 2 3 0)) s0 t)
    ∧ (∃ t, Completes (.rmax (fR 0 6 1 2 3 0)) s0 t)
    ∧ (∃ t, Completes (.rminx (fR 0 6 1 2 3 0)) s0 t)
    ∧ (∃ t, Completes (.rmaxx (fR 0 6 1 2 3 0)) s0 t)
    ∧ (∃ t, Completes (.rbit (fR 0 6 1 2 3 0)) s0 t)
    ∧ (∃ t, Completes (.scana (fR 0 6 1 2 3 0)) s0 t)
    ∧ (∃ t, Completes (.scanmin (fR 0 6 1 2 3 0)) s0 t)
    ∧ (∃ t, Completes (.scanmax (fR 0 6 1 2 3 0)) s0 t)
    ∧ (∃ t, Completes (.scanae (fR 0 6 1 2 3 0)) s0 t)
    ∧ (∃ t, Completes (.matchLanes (fR 0 6 1 2 3 0)) s0 t) := by
  obtain ⟨h1, h2, h3, h4, h5, h6, h7, h8, h9, h10, h11, h12, h13, h14⟩ := h (fR 0 6 1 2 3 0)
  exact ⟨meets h1 s0 r0 (by decide +kernel) (by decide +kernel),
    meets h2 s0 r0 (by decide +kernel) (by decide +kernel),
    meets h3 s0 r0 (by decide +kernel) (by decide +kernel),
    meets h4 s0 r0 (by decide +kernel) (by decide +kernel),
    meets h5 s0 r0 (by decide +kernel) (by decide +kernel),
    meets h6 s0 r0 (by decide +kernel) (by decide +kernel),
    meets h7 s0 r0 (by decide +kernel) (by decide +kernel),
    meets h8 s0 r0 (by decide +kernel) (by decide +kernel),
    meets h9 s0 r0 (by decide +kernel) (by decide +kernel),
    meets h10 s0 r0 (by decide +kernel) (by decide +kernel),
    meets h11 s0 r0 (by decide +kernel) (by decide +kernel),
    meets h12 s0 r0 (by decide +kernel) (by decide +kernel),
    meets h13 s0 r0 (by decide +kernel) (by decide +kernel),
    meets h14 s0 r0 (by decide +kernel) (by decide +kernel)⟩

/-! ### Witnesses: memory, copies -/

theorem cleanLanes_of {s : State} {pas : List (Nat × List Nat)} (h : s.lasting = []) : CleanLanes s pas := by
  intro p _ a _; simp [State.isLasting, h]

/-- LD of 8 bytes a lane, with acquire-promote and at a byte below the base; LDS; LDH. -/
theorem witness_LoadsComplete (h : Obligations.LoadsComplete) :
    (∃ t, Completes (.ld (fM 6 2 0 3 0)) s0 t) ∧ (∃ t, Completes (.ld (fM 6 2 (8 * 3 + 5) 3 0)) s0 t)
    ∧ (∃ t, Completes (.ld (fM 6 2 0 0 0x3FFFF)) s0 t)
    ∧ (∃ t, Completes (.lds (fM 6 2 0 3 0)) s0 t) ∧ (∃ t, Completes (.ldh (fM 6 2 0 3 0)) s0 t) :=
  ⟨⟨_, (h s0 r0 (fM 6 2 0 3 0)).1 (pas2 8) (starts_of (by decide +kernel)) rfl (by decide +kernel) (by decide +kernel) (cleanLanes_of rfl) (fits_of (by decide +kernel))⟩,
   ⟨_, (h s0 r0 (fM 6 2 (8 * 3 + 5) 3 0)).1 (pas2 8) (starts_of (by decide +kernel)) rfl (by decide +kernel) (by decide +kernel) (cleanLanes_of rfl) (fits_of (by decide +kernel))⟩,
   ⟨_, (h s0 r0 (fM 6 2 0 0 0x3FFFF)).1 ((List.range 2).map (fun l => (l, [0x1FFF + 8 * l]))) (starts_of (by decide +kernel)) rfl (by decide +kernel) (by decide +kernel) (cleanLanes_of rfl) (fits_of (by decide +kernel))⟩,
   ⟨_, (h s0 r0 (fM 6 2 0 3 0)).2.1 (starts_of (by decide +kernel)) rfl (by unfold SpadOk; decide +kernel) (fits_of (by decide +kernel))⟩,
   ⟨_, (h s0 r0 (fM 6 2 0 3 0)).2.2 (starts_of (by decide +kernel)) (by decide +kernel) (by decide +kernel) (by decide +kernel) (fits_of (by decide +kernel))⟩⟩

/-- A second address for the pairs of STP. -/
def rPair : Round := { r0 with s := r0.s.set 8 0x3000 }
def sPair : State := { s0 with rounds := [rPair] }

/-- ST of 8 bytes a lane, plain and with releases at die and at system scope; STS; STH; STP of 4 bytes. -/
theorem witness_StoresComplete (h : Obligations.StoresComplete) :
    (∃ t, Completes (.st (fM 1 2 0 3 0)) s0 t) ∧ (∃ t, Completes (.st (fM 1 2 (8 * 2 + 4) 3 0)) s0 t)
    ∧ (∃ t, Completes (.st (fM 1 2 (8 * 2 + 6) 3 0)) s0 t)
    ∧ (∃ t, Completes (.sts (fM 1 2 0 3 0)) s0 t) ∧ (∃ t, Completes (.sts (fM 1 2 (8 * 2 + 1) 3 0)) s0 t)
    ∧ (∃ t, Completes (.sth (fM 1 2 0 3 0)) s0 t) ∧ (∃ t, Completes (.sth (fM 1 2 (8 * 2 + 6) 3 0)) s0 t)
    ∧ (∃ t, Completes (.stp (fR 0 3 2 1544 1672 2)) sPair t) := by
  have p := fun f => h s0 r0 f (fR 0 0 0 0 0 0)
  exact ⟨⟨_, (p (fM 1 2 0 3 0)).1 (pas2 8) (starts_of (by decide +kernel)) (by decide +kernel) (by decide +kernel) (fun h => absurd h (by decide +kernel)) (fits_of (by decide +kernel))⟩,
   ⟨_, (p (fM 1 2 (8 * 2 + 4) 3 0)).1 (pas2 8) (starts_of (by decide +kernel)) (by decide +kernel) (by decide +kernel) (fun _ => releases_near _ _ _ _ (by decide +kernel)) (fits_of (by decide +kernel))⟩,
   ⟨_, (p (fM 1 2 (8 * 2 + 6) 3 0)).1 (pas2 8) (starts_of (by decide +kernel)) (by decide +kernel) (by decide +kernel) (fun _ => releases_of (by decide +kernel)) (fits_of (by decide +kernel))⟩,
   ⟨_, (p (fM 1 2 0 3 0)).2.1 (starts_of (by decide +kernel)) rfl (by unfold SpadOk; decide +kernel) (fun h => absurd h (by decide +kernel)) (fits_of (by decide +kernel))⟩,
   ⟨_, (p (fM 1 2 (8 * 2 + 1) 3 0)).2.1 (starts_of (by decide +kernel)) rfl (by unfold SpadOk; decide +kernel) (fun _ => releases_near _ _ _ _ (by decide +kernel)) (fits_of (by decide +kernel))⟩,
   ⟨_, (p (fM 1 2 0 3 0)).2.2.1 (starts_of (by decide +kernel)) (by decide +kernel) (fun h => absurd h (by decide +kernel)) (fits_of (by decide +kernel))⟩,
   ⟨_, (p (fM 1 2 (8 * 2 + 6) 3 0)).2.2.1 (starts_of (by decide +kernel)) (by decide +kernel) (fun _ => releases_of (by decide +kernel)) (fits_of (by decide +kernel))⟩,
   ⟨_, (h sPair rPair (fM 1 2 0 3 0) (fR 0 3 2 1544 1672 2)).2.2.2 ((List.range 2).flatMap (fun l =>
        [(l, pasAt (0x2000 + 8 * l) 4), (l, pasAt 0x3000 4)])) (starts_of (by decide +kernel)) rfl (by decide +kernel) (by decide +kernel) (by decide +kernel) (fits_of (by decide +kernel))⟩⟩

theorem witness_AtomicsComplete (h : Obligations.AtomicsComplete) :
    (∃ t, Completes (.atom (fA 6 2 1 0 7 1)) s0 t) ∧ (∃ t, Completes (.atomu (fA 6 2 1 (8 * 3 + 6) 1 0)) s0 t)
    ∧ (∃ t, Completes (.cas (fR 0 6 2 1 3 5)) s0 t) ∧ (∃ t, Completes (.atoms (fA 6 2 1 (8 * 2 + 1) 6 0)) s0 t)
    ∧ (∃ t, Completes (.cass (fR 0 6 2 1 3 2)) s0 t) := by
  obtain ⟨h1, h2, _, h4, _⟩ := h (fA 6 2 1 0 7 1) (fR 0 6 2 1 3 5)
  obtain ⟨_, h5, h3, _, _⟩ := h (fA 6 2 1 (8 * 3 + 6) 1 0) (fR 0 6 2 1 3 5)
  obtain ⟨_, _, _, h6, h7⟩ := h (fA 6 2 1 (8 * 2 + 1) 6 0) (fR 0 6 2 1 3 2)
  exact ⟨⟨_, h1 s0 r0 _ (pas2 (aszBytes 1)) (starts_of (by decide +kernel)) rfl (by decide +kernel) (by decide +kernel) (cleanLanes_of rfl) (fun h => absurd h (by decide +kernel)) (issuing_of (by decide +kernel)) (fits_of (by decide +kernel))⟩,
    ⟨_, h5 s0 r0 _ (pas2 (aszBytes 0)) (starts_of (by decide +kernel)) rfl (by decide +kernel) (by decide +kernel) (cleanLanes_of rfl) (fun _ => releases_of (by decide +kernel)) (issuing_of (by decide +kernel)) (fits_of (by decide +kernel))⟩,
    ⟨_, h3 s0 r0 _ (pas2 8) (starts_of (by decide +kernel)) rfl (by decide +kernel) (by decide +kernel) (cleanLanes_of rfl) (fun _ => releases_near _ _ _ _ (by decide +kernel)) (issuing_of (by decide +kernel)) (fits_of (by decide +kernel))⟩,
    ⟨_, h6 s0 r0 _ (starts_of (by decide +kernel)) rfl (by unfold SpadOk; decide +kernel) (fun _ => releases_near _ _ _ _ (by decide +kernel)) (issuing_of (by decide +kernel)) (fits_of (by decide +kernel))⟩,
    ⟨_, h7 s0 r0 _ (starts_of (by decide +kernel)) rfl (by unfold SpadOk; decide +kernel) (fun _ => releases_near _ _ _ _ (by decide +kernel)) (issuing_of (by decide +kernel)) (fits_of (by decide +kernel))⟩⟩

/-- LD left pending; then one of its two units takes effect, then both at once, by a turn of the agenda. -/
def sLateLd : State := { s0 with late := true }
def pend1 : Access :=
  { accessOf false .load 6 1 3 0 0 (piecesOf 8 (pas2 8) (fun _ => [])) with id := 3 }
def rPend : Round := { r0 with pending := [pend1] }

theorem witness_PendingAccesses (h : Obligations.PendingAccesses) :
    (∃ t, Completes (.ld (fM 6 2 0 3 0)) sLateLd t)
    ∧ (∃ t, (demoState rPend).performUnits 0 3 (some [0]) = t) ∧ (∃ t, (demoState rPend).perform 0 3 none = t)
    ∧ (∃ t, (demoState rPend).performUnits 0 3 none = t) ∧ (∃ t, (s0.performPiece 0 r0 pend1 ((pend1.pieces).headD ⟨0, 0, [], [], 0, 0⟩)) = t)
    ∧ (∃ t, s0.performPiece 0 r0 { pend1 with op := .store } ⟨0, 0, [0x2000], [7], 0, 0⟩ = t)
    ∧ ∃ t, step { demoState rPend with agenda := [.perform 0 3 none] } = .next t :=
  ⟨⟨_, h.1 sLateLd r0 (fM 6 2 0 3 0) (pas2 8) (starts_of (by decide +kernel)) rfl (by decide +kernel) (by decide +kernel) (by decide +kernel) (cleanLanes_of rfl) (fits_of (by decide +kernel))⟩,
   ⟨_, (h.2.1 (demoState rPend) 0 3 (some [0]) rPend pend1 rfl (by decide +kernel) (by decide +kernel) _ rfl).2 (by decide +kernel)⟩,
   ⟨_, (h.2.2.1 (demoState rPend) 0 3 none rPend pend1 rfl (by decide +kernel)).1 (by decide)⟩,
   ⟨_, (h.2.1 (demoState rPend) 0 3 none rPend pend1 rfl (by decide +kernel) (by decide +kernel) _ rfl).1 (by decide +kernel)⟩,
   ⟨_, h.2.2.2.1 s0 0 r0 pend1 _ rfl rfl rfl⟩, ⟨_, h.2.2.2.2.1 s0 0 r0 { pend1 with op := .store } _ rfl rfl rfl rfl⟩,
   ⟨_, h.2.2.2.2.2 { demoState rPend with agenda := [.perform 0 3 none] } 0 3 none [] rfl⟩⟩

theorem witness_FencesComplete (h : Obligations.FencesComplete) :
    (∃ t, Completes (.fence (fR 0 1672 1672 1672 1672 4)) s0 t) ∧ (∃ t, Completes (.fence (fR 0 1672 1672 1672 1672 6)) s0 t)
    ∧ (∃ t, Completes (.fencex (fI 1672 1672 0 (2 + 8 * 3))) s0 t) ∧ (∃ t, Completes (.pref (fM 1672 2 0 0 64)) s0 t) :=
  ⟨⟨_, (h s0 r0).1 (fR 0 1672 1672 1672 1672 4) (starts_of (by decide +kernel)) (releases_near _ _ _ _ (by decide +kernel)) (fits_of (by decide +kernel))⟩,
   ⟨_, (h s0 r0).1 (fR 0 1672 1672 1672 1672 6) (starts_of (by decide +kernel)) (releases_of (by decide +kernel)) (fits_of (by decide +kernel))⟩,
   ⟨_, (h s0 r0).2.1 (fI 1672 1672 0 (2 + 8 * 3)) r0 (starts_of (by decide +kernel)) (by decide +kernel) (by decide +kernel) (by decide +kernel) (fits_of (by decide +kernel))⟩,
   ⟨_, (h s0 r0).2.2 (fM 1672 2 0 0 64) (starts_of (by decide +kernel)) (fits_of (by decide +kernel))⟩⟩

/-- TSET of slot 0 with the key of lane 0 in set 0: the keys of v5 are zeros, the slots of v5 are zeros. -/
theorem witness_TagTableCompletes (h : Obligations.TagTableCompletes) :
    (∃ t, Completes (.tlook (fR 0 6 5 1672 1672 0)) s0 t) ∧ (∃ t, Completes (.tset (fR 0 1672 5 5 1672 0)) s0 t)
    ∧ (∃ t, Completes (.tclr (fR 0 1672 1 1672 1672 0)) s0 t) :=
  ⟨⟨_, (h s0 r0 (fR 0 6 5 1672 1672 0) (by decide +kernel)).1 (starts_of (by decide +kernel)) (fits_of (by decide +kernel))⟩, ⟨_, (h s0 r0 (fR 0 1672 5 5 1672 0) (by decide +kernel)).2.1 (starts_of (by decide +kernel)) (by decide +kernel) (fits_of (by decide +kernel))⟩,
   ⟨_, (h s0 r0 (fR 0 1672 1 1672 1672 0) (by decide +kernel)).2.2 (starts_of (by decide +kernel)) (by decide +kernel) (fits_of (by decide +kernel))⟩⟩

/-! ### Witnesses: copies and layouts -/

/-- Two rounds of one team, of which the second stands between clauses. -/
def two : State := { s0 with rounds := [r0, { r0 with rix := 1, clause := none }] }

/-- A descriptor of CPYI at 0x1000 (R165): 2 channels and 3 positions of 1 byte, from scratchpad 0x3000 to scratchpad 0x2000. -/
def weave : State := { s0 with teams := [{ demoTeam with
  spad := Memory.writeList [] 0x400 (toBytes 8 0x2000 ++ toBytes 8 0x3000 ++ toBytes 4 2 ++ toBytes 4 3 ++ [2, 0, 5, 0, 0, 0, 0, 0]
    ++ List.replicate 32 0) }] }

/-- CPY of 1 byte between scratchpad places and of 2^30 bytes of memory; CPYR into this round, another, and none; CPYI; CSEAL. -/
theorem witness_CopiesIssue (h : Obligations.CopiesIssue) :
    (∃ t, Completes (.cpy (fP 0 0 1536 1537 1538 5)) s0 t) ∧ (∃ t, Completes (.cpy (fP 0 0 1536 1537 1539 0)) s0 t)
    ∧ (∃ t, Completes (.cpyr (fP 0 1 8 2 1672 3)) s0 t) ∧ (∃ t, Completes (.cpyr (fP 0 1 8 2 1538 3)) two t)
    ∧ (∃ t, Completes (.cpyr (fP 0 0 8 2 1540 0)) s0 t) ∧ (∃ t, Completes (.cpyi (fP 0 0 1537 1672 1672 0)) weave t)
    ∧ (∃ t, Completes (.cseal (fR 0 1546 1672 1672 1672 0)) s0 t) := by
  have p := fun s f => h s r0 f (fR 0 0 0 0 0 0)
  exact ⟨⟨_, (p s0 (fP 0 0 1536 1537 1538 5)).1 (starts_of (by decide +kernel)) (by decide +kernel) (by decide +kernel) (fun _ => by unfold AreaOk; decide +kernel)
      (fun _ => by unfold AreaOk; decide +kernel) (fits_of (by decide +kernel))⟩,
   ⟨_, (p s0 (fP 0 0 1536 1537 1539 0)).1 (starts_of (by decide +kernel)) (by decide +kernel) (by decide +kernel) (fun h => absurd h (by decide +kernel)) (fun h => absurd h (by decide +kernel)) (fits_of (by decide +kernel))⟩,
   ⟨_, ((p s0 (fP 0 1 8 2 1672 3)).2.1 (starts_of (by decide +kernel)) (by decide +kernel) (by decide +kernel) (fun _ => (by decide +kernel))).1 (by decide +kernel) (by decide +kernel) (fits_of (by decide +kernel))⟩,
   ⟨_, ((p two (fP 0 1 8 2 1538 3)).2.1 (starts_of (by decide +kernel)) (by decide +kernel) (by decide +kernel) (fun _ => (by decide +kernel))).2.1 1 { r0 with rix := 1, clause := none } (by decide +kernel) (by decide +kernel) rfl (by decide +kernel) (by decide +kernel) (by decide +kernel) (fits_of (by decide +kernel))⟩,
   ⟨_, ((p s0 (fP 0 0 8 2 1540 0)).2.1 (starts_of (by decide +kernel)) (by decide +kernel) (by decide +kernel) (fun _ => (by decide +kernel))).2.2 (by decide +kernel) (fits_of (by decide +kernel))⟩,
   ⟨_, (p weave (fP 0 0 1537 1672 1672 0)).2.2.1 (starts_of (by decide +kernel)) (by decide +kernel) (by decide +kernel) (by unfold AreaOk; decide +kernel) (by decide +kernel)
      (fun _ => by unfold AreaOk; decide +kernel) (fun _ => by unfold AreaOk; decide +kernel) (fits_of (by decide +kernel))⟩,
   ⟨_, (h s0 r0 (fP 0 0 0 0 0 0) (fR 0 1546 1672 1672 1672 0)).2.2.2 (starts_of (by decide +kernel)) (by decide +kernel) (by decide +kernel) (fits_of (by decide +kernel))⟩⟩

/-- A batch that has finished with a record, one that has not, and the round that sealed them as numbers 1 and 2. -/
def failedBatch : Batch := { num := 1, members := [], fault := some { kind := 0, addr := 0x40, cause := 0x20 }, reported := false }
def openMember : Member := { id := 7, work := .copy 1 0x1000 1 0x2000 2, moved := [], service := none, read := [] }
def rb : Round := { r0 with last := 2, sealed := [failedBatch, { num := 2, members := [openMember], fault := none, reported := false }] }
def sb : State := demoState rb

/-- Waits with nothing to wait for, and with a record to report. -/
theorem witness_CopyWaits (h : Obligations.CopyWaits) :
    (∃ t, Completes (.cwait (fI 1672 1672 0 0)) s0 t) ∧ (∃ t, Completes (.cwaitk (fI 1672 1672 0 64)) s0 t)
    ∧ (∃ t, Completes (.cwait (fI 1672 1672 0 1)) sb t) ∧ (∃ t, Completes (.cwaitk (fI 1672 1672 0 1)) sb t) :=
  ⟨⟨_, (h s0 r0 (fI 1672 1672 0 0) _ (starts_of (by decide +kernel)) (issuing_of (by decide +kernel))).1 (.inr (by decide +kernel)) (by decide +kernel) (fits_of (by decide +kernel))⟩,
   ⟨_, (h s0 r0 (fI 1672 1672 0 64) _ (starts_of (by decide +kernel)) (issuing_of (by decide +kernel))).2.1 (by decide +kernel) (by decide +kernel) (fits_of (by decide +kernel))⟩,
   ((h sb rb (fI 1672 1672 0 1) _ (starts_of (by decide +kernel)) (issuing_of (by decide +kernel))).2.2.1 failedBatch { kind := 0, addr := 0x40, cause := 0x20 } (.inr (by decide +kernel)) (by decide +kernel) (by decide +kernel)).imp
     (fun _ h => h.choose_spec.choose_spec.1),
   ((h sb rb (fI 1672 1672 0 1) _ (starts_of (by decide +kernel)) (issuing_of (by decide +kernel))).2.2.2 failedBatch { kind := 0, addr := 0x40, cause := 0x20 } (by decide +kernel) (by decide +kernel) (by decide +kernel)).imp
     (fun _ h => h.choose_spec.choose_spec.1)⟩

def regMember : Member := { id := 8, work := .regs 1 (tab (fun _ => 0x1000)) 3 8 1 0, moved := [], service := none, read := [] }
def sr : State := demoState { r0 with sealed := [{ num := 1, members := [regMember], fault := none, reported := false }] }

def moveOf (w : Work) : Move × (Nat → Nat ⊕ Byte) := w.move.getD ({ srcKind := 0, src := 0, dstKind := 0, dst := 0, len := 0 }, fun i => .inl i)
def movedState (x : Moved) : State := match x with | .done s => s | _ => s0
def moveDone (x : Moved) : Bool := match x with | .done _ => true | _ => false
theorem moved_of {x : Moved} (h : moveDone x = true) : x = .done (movedState x) := by
  cases x <;> simp_all [moveDone, movedState]

def gatheredOk {α : Type} (x : Gathered α) : Bool := match x with | .ok _ => true | _ => false
def gatheredOf {α : Type} (x : Gathered α) : List α := match x with | .ok l => l | _ => []
theorem gather_of {α : Type} {x : Gathered α} (h : gatheredOk x = true) : x = .ok (gatheredOf x) := by
  cases x <;> simp_all [gatheredOk, gatheredOf]

/-- A whole member, its first byte alone, and a register copy. -/
theorem witness_CopyEvents (h : Obligations.CopyEvents) :
    (∃ t, Completes (.copyMemberComplete 0 7 none) sb t) ∧ (∃ t, Completes (.copyMemberComplete 0 7 (some [0])) sb t)
    ∧ (∃ t, Completes (.cpyrDataLand 0 8) sr t) :=
  ⟨⟨_, (h sb 0 7).1 _ _ none rb openMember openMember _ (by decide +kernel) rfl rfl (fun h => absurd h (by decide +kernel)) (by decide +kernel) (by decide +kernel) (moved_of (by decide +kernel))⟩,
   ⟨_, (h sb 0 7).1 _ _ (some [0]) rb openMember openMember _ (by decide +kernel) rfl rfl (fun h => absurd h (by decide +kernel)) (by decide +kernel) (by decide +kernel) (moved_of (by decide +kernel))⟩,
   ⟨_, (h sr 0 8).2 1 (tab (fun _ => 0x1000)) 3 8 1 0 0 _ _ regMember regMember _ (by decide +kernel) rfl rfl (by decide +kernel) rfl rfl (by decide +kernel) (gather_of (by decide +kernel))
      (by decide +kernel) rfl (by decide +kernel)⟩⟩

/-! ### Witnesses: layouts, the matrix engine, the drain, special functions -/

def planned (w : List Word) (src : List Word) : LayoutReg := startPlan w src (planOf w src) true
/-- Layout registers: 0 in memory, 1 and 3 in scratchpad with opposite matrices, 2 and 5 in registers, 4 singular, 6 with a plan that
runs. -/
def teamL : Team := { demoTeam with
  layouts := [{ words := rec32 0 0x10000 0x20000 0 upRows, plan := none }, { words := rec32 1 0x1000 0x2000 0 upRows, plan := none },
    { words := rec32 2 0 0 16 upRows, plan := none }, { words := rec32 1 0x3000 0x4000 0 downRows, plan := none },
    { words := rec32 1 0x1000 0x2000 0 [0, 2, 4, 8, 16], plan := none }, { words := rec32 2 0 0 16 [2, 1, 4, 8, 16], plan := none },
    planned (rec32 1 0x1000 0x2000 0 upRows) (rec32 1 0x3000 0x4000 0 downRows)] ++ List.replicate 25 LayoutReg.empty }
def placeMember : Member := { id := 9, work := .place 6 true, moved := [], service := none, read := [] }
def rl : Round := { r0 with sealed := [{ num := 1, members := [placeMember], fault := none, reported := false }] }
def sl : State := { demoState rl with teams := [teamL] }

theorem layoutAt_spad {s : State} {r : Round} {write : Bool} {m : Mask} {a : Word} {pas : List Nat}
    (h : a.toNat % 64 = 0) (ha : AreaOk s r a 512) (hp : pas = (List.range 512).map (fun i => a.toNat + i)) :
    LayoutAt s r true write m a pas := ⟨h, ha, hp⟩
theorem layoutAt_mem {s : State} {r : Round} {write : Bool} {m : Mask} {a : Word} {ps : List (Nat × List Nat)} {pas : List Nat}
    (h : a.toNat % 64 = 0) (ht : translateLanes (s.xlat r write) 512 [((lowestLane m).getD 0, a)] = .ok ps)
    (hp : pas = pasOf ps ((lowestLane m).getD 0)) : LayoutAt s r false write m a pas := ⟨h, ps, ht, hp⟩

theorem witness_LayoutMoves (h : Obligations.LayoutMoves) :
    (∃ t, Completes (.lyld (fP 7 0 1537 1672 1672 1)) sl t) ∧ (∃ t, Completes (.lyld (fP 7 0 1537 1672 1672 0)) sl t)
    ∧ (∃ t, Completes (.lyst (fP 0 1 1537 1672 1672 1)) sl t) ∧ (∃ t, Completes (.lyst (fP 0 1 1537 1672 1672 0)) sl t)
    ∧ (∃ t, Completes (.lyset (fP 31 0 1 1536 1672 0)) { sl with rounds := [{ rl with s := rl.s.set 0 60 }] } t)
    ∧ (∃ t, Completes (.lyget (fP 0 1 6 3 1672 0)) sl t) := by
  have near : ∀ w, LayoutAt sl rl true w (rl.passing p7) 0x400 (pasAt 0x400 512) := fun w =>
    layoutAt_spad (a := 0x400) (by decide +kernel) (by unfold AreaOk; decide +kernel) (by decide +kernel)
  have far : ∀ w, LayoutAt sl rl false w (rl.passing p7) 0x400 (pasAt 0x400 512) := fun w =>
    layoutAt_mem (a := 0x400) (ps := pas1 0x400 512) (by decide +kernel) (by cases w <;> decide +kernel) (by decide +kernel)
  exact ⟨⟨_, (h sl rl (fP 7 0 1537 1672 1672 1) (pasAt 0x400 512) (by decide +kernel)).1 (starts_of (by decide +kernel)) (by decide +kernel) (near _) (fun h => absurd h (by decide +kernel)) (fits_of (by decide +kernel))⟩,
   ⟨_, (h sl rl (fP 7 0 1537 1672 1672 0) (pasAt 0x400 512) (by decide +kernel)).1 (starts_of (by decide +kernel)) (by decide +kernel) (far _) (fun _ => (by decide +kernel)) (fits_of (by decide +kernel))⟩,
   ⟨_, (h sl rl (fP 0 1 1537 1672 1672 1) (pasAt 0x400 512) (by decide +kernel)).2.1 (starts_of (by decide +kernel)) (near _) (fits_of (by decide +kernel))⟩,
   ⟨_, (h sl rl (fP 0 1 1537 1672 1672 0) (pasAt 0x400 512) (by decide +kernel)).2.1 (starts_of (by decide +kernel)) (far _) (fits_of (by decide +kernel))⟩,
   ⟨_, (h { sl with rounds := [{ rl with s := rl.s.set 0 60 }] } { rl with s := rl.s.set 0 60 } (fP 31 0 1 1536 1672 0) [] (by decide +kernel)).2.2.1
      (starts_of (by decide +kernel)) (by decide +kernel) (by decide +kernel) (fits_of (by decide +kernel))⟩,
   ⟨_, (h sl rl (fP 0 1 6 3 1672 0) [] (by decide +kernel)).2.2.2 (starts_of (by decide +kernel)) (by decide +kernel) (fits_of (by decide +kernel))⟩⟩

theorem elementsOk_of {s : State} {r : Round} {w : List Word} {l : List (Nat × Word)}
    (h1 : layoutReason { kinds := [0, 1], storage := true, alt := false } r.width w = none) (h2 : ∀ p ∈ l, p.2.toNat < 2 ^ recN w)
    (h3 : recKind w ≠ 1 ∨ AreaOk s r (recBase w) (recSpan w)) : ElementsOk s r w l :=
  ⟨h1, h2, fun h => h3.resolve_left (fun k => k h)⟩

/-- Indices are the lane numbers of v1; the record of layout register 0 lies in memory, that of 1 in the scratchpad. -/
theorem witness_LayoutElements (h : Obligations.LayoutElements) :
    (∃ t, Completes (.loc (fP 0 1 6 1 1672 0)) sl t) ∧ (∃ t, Completes (.tld (fP 0 1 6 1 1672 0)) sl t)
    ∧ (∃ t, Completes (.tld (fP 0 0 6 1 1672 0)) sl t) ∧ (∃ t, Completes (.tst (fP 1 0 3 1 1672 0)) sl t)
    ∧ (∃ t, Completes (.tst (fP 0 0 3 1 1672 0)) sl t) ∧ (∃ t, Completes (.plq (fP 1 3 6 1672 1672 0)) sl t) := by
  exact ⟨⟨_, ((h sl rl (fP 0 1 6 1 1672 0) [] (by decide +kernel)).1 (starts_of (by decide +kernel))).1 (by decide +kernel) (by decide +kernel) (fits_of (by decide +kernel))⟩,
   ⟨_, ((h sl rl (fP 0 1 6 1 1672 0) [] (by decide +kernel)).1 (starts_of (by decide +kernel))).2.1 rfl (elementsOk_of (by decide +kernel) (by decide +kernel) (.inr (by unfold AreaOk; decide +kernel))) (by decide +kernel) (fits_of (by decide +kernel))⟩,
   ⟨_, ((h sl rl (fP 0 0 6 1 1672 0) [(0, [0x10000]), (1, [0x10001])] (by decide +kernel)).1 (starts_of (by decide +kernel))).2.2 rfl (elementsOk_of (by decide +kernel) (by decide +kernel) (.inl (by decide +kernel))) (by decide +kernel) (by decide +kernel) (cleanLanes_of rfl) (fits_of (by decide +kernel))⟩,
   ⟨_, ((h sl rl (fP 1 0 3 1 1672 0) [] (by decide +kernel)).2.1 (starts_of (by decide +kernel)) rfl (by decide +kernel) (elementsOk_of (by decide +kernel) (by decide +kernel) (.inr (by unfold AreaOk; decide +kernel)))).1 (by decide +kernel) (fits_of (by decide +kernel))⟩,
   ⟨_, ((h sl rl (fP 0 0 3 1 1672 0) [(0, [0x10000]), (1, [0x10001])] (by decide +kernel)).2.1 (starts_of (by decide +kernel)) rfl (by decide +kernel) (elementsOk_of (by decide +kernel) (by decide +kernel) (.inl (by decide +kernel)))).2 (by decide +kernel) (by decide +kernel) (fits_of (by decide +kernel))⟩,
   ⟨_, (h sl rl (fP 1 3 6 1672 1672 0) [] (by decide +kernel)).2.2 (starts_of (by decide +kernel)) (by decide +kernel) (by decide +kernel) (fits_of (by decide +kernel))⟩⟩

/-- A round whose guard no lane passes; and one that stands between two passes of layout register 7, whose plan has done one pass. -/
def rBetween : Round := { rl with status := .waiting .pass }
def regPlan (src : List Word) : LayoutReg := startPlan (rec32 2 0 0 16 upRows) src (planOf (rec32 2 0 0 16 upRows) src) false
def downPlan : Plan := (regPlan (rec32 2 0 0 16 downRows)).plan.getD ⟨[], 0, []⟩
def sBetween : State := { sl with
  rounds := [rBetween], teams := [{ teamL with layouts := teamL.layouts.set 7 (regPlan (rec32 2 0 0 16 downRows)) }] }
/-- Layout register 6 with its plan standing still. -/
def stillReg : LayoutReg := { teamL.layout 6 with words := setWord (teamL.layout 6).words 61 (progressWord 3 0 false true false 0) }
def sStill : State := { sl with rounds := [r0], teams := [{ teamL with layouts := teamL.layouts.set 6 stillReg }] }

/-- No lane; a pass of a plan that has more; the .STEP form on a plan that stands still; singular records of the .NF form; a plan with no
pass, with passes in a scratchpad buffer, and with one and with more over registers. -/
theorem witness_PlacementCompletes (h : Obligations.PlacementCompletes) :
    (∃ t, Completes (.place { fP 1 3 6 1672 1672 9 with g := { p := 0, inv := false, uni := false } }) sl t)
    ∧ (∃ t, Completes (.place (fP 7 5 6 1672 1672 0)) sBetween t) ∧ (∃ t, Completes (.place (fP 6 3 6 1672 1672 13)) sStill t)
    ∧ (∃ t, Completes (.place (fP 1 4 6 1672 1672 9)) sl t) ∧ (∃ t, Completes (.place (fP 1 1 6 1672 1672 9)) sl t)
    ∧ (∃ t, Completes (.place (fP 1 3 6 1672 1672 9)) sl t) ∧ (∃ t, Completes (.place (fP 2 5 6 1672 1672 0)) sl t) := by
  have open_ := fun f hs hm hb => (h sl rl f hs).2.2.2 hm (by decide) hb
  exact ⟨⟨_, (h sl rl { fP 1 3 6 1672 1672 9 with g := { p := 0, inv := false, uni := false } } (starts_of (by decide +kernel))).1 (by decide +kernel) (fits_of (by decide +kernel))⟩,
   ⟨_, ((h sBetween rBetween (fP 7 5 6 1672 1672 0) (starts_of (by decide +kernel))).2.1 (by decide +kernel) rfl
      downPlan (downPlan.passes.headD ⟨true, [], 0⟩) (by decide +kernel) (by decide +kernel) (by decide +kernel)).2 (by decide +kernel)⟩,
   ⟨_, (h sStill r0 (fP 6 3 6 1672 1672 13) (starts_of (by decide +kernel))).2.2.1 (by decide +kernel) (by decide +kernel) (by decide +kernel) rfl (by decide +kernel) (fits_of (by decide +kernel))⟩,
   ⟨_, (open_ (fP 1 4 6 1672 1672 9) (starts_of (by decide +kernel)) (by decide +kernel) (by decide +kernel) (by decide +kernel) (by decide +kernel) (fun _ => by unfold AreaOk; decide +kernel)).1 (.inr (by decide +kernel)) (by decide +kernel) (fits_of (by decide +kernel))⟩,
   ⟨_, ((open_ (fP 1 1 6 1672 1672 9) (starts_of (by decide +kernel)) (by decide +kernel) (by decide +kernel) (by decide +kernel) (by decide +kernel) (fun _ => by unfold AreaOk; decide +kernel)).2 (by decide +kernel) (by decide +kernel)).1 (by decide +kernel) (fits_of (by decide +kernel))⟩,
   ⟨_, ((open_ (fP 1 3 6 1672 1672 9) (starts_of (by decide +kernel)) (by decide +kernel) (by decide +kernel) (by decide +kernel) (by decide +kernel) (fun _ => by unfold AreaOk; decide +kernel)).2 (by decide +kernel) (by decide +kernel)).2.1 (by decide +kernel) (by decide +kernel) (fits_of (by decide +kernel))⟩,
   ⟨_, (((open_ (fP 2 5 6 1672 1672 0) (starts_of (by decide +kernel)) (by decide +kernel) (by decide +kernel) (by decide +kernel) (by decide +kernel) (fun h => absurd h (by decide +kernel))).2 (by decide +kernel) (by decide +kernel)).2.2
      ((regPlan (rec32 2 0 0 16 [2, 1, 4, 8, 16])).plan.getD ⟨[], 0, []⟩) ⟨true, [2, 1, 4, 8, 16], 0⟩ (by decide +kernel)
      (by decide +kernel) (by decide +kernel) (by decide +kernel) (by decide +kernel) (by decide +kernel)).1 (by decide +kernel) (fits_of (by decide +kernel))⟩⟩

theorem witness_PassEvent (h : Obligations.PassEvent) : ∃ t, Completes (.passComplete 0 9 none) sl t :=
  ⟨_, h sl 0 9 6 true rl rl placeMember placeMember
    ((teamL.layout 6).plan.getD ⟨[], 0, []⟩) ((planOf (rec32 1 0x1000 0x2000 0 upRows) (rec32 1 0x3000 0x4000 0 downRows)).headD ⟨true, [], 0⟩)
    _ rfl (by decide +kernel) rfl rfl rfl (by decide +kernel) (by decide +kernel) (by decide +kernel) (by decide +kernel) (by decide +kernel) rfl (moved_of (by decide +kernel))⟩

/-! ### Witnesses: matrix engine, drain, special functions -/

/-- A round with 128 bytes of scales and partial slot 0 pending in E4M3 by E4M3. -/
def pend : PartialSlot := { pending := true, fa := 1, fb := 1, ka := 0, kb := 0, vals := [] }
def noPend : PartialSlot := { pending := false, fa := 0, fb := 0, ka := 0, kb := 0, vals := [] }
def rm : Round := { r0 with fifo := List.replicate 128 0, parts := [pend, noPend] }
def sm : State := demoState rm
/-- A record of L 64, psel 1, count 1 with bit 0 of its bitmap and p1 1.0 at 0x400 (R243), and 256 bytes each of gradient and output. -/
def sj : State := { s0 with teams := [{ demoTeam with
  spad := Memory.writeList [] 0x400 ([1, 0, 0x3F, 0x90, 0, 0, 0, 0, 0, 0, 0, 0, 0, 0, 0x80, 0x3F, 1] ++ List.replicate 15 0) }] }
def recordAt : RowRecord := parseRecord (Memory.readList (sj.teamOf r0).spad 0x400 32)

theorem spadRead_of {s : State} {addrs : List Nat} (h : (s.readSpadNow addrs).issuing.isSome = true) :
    SpadRead s addrs (s.readSpadNow addrs) (roundOf (s.readSpadNow addrs))
      (addrs.map (Memory.read ((s.readSpadNow addrs).teamOf (roundOf (s.readSpadNow addrs))).spad)) := ⟨rfl, issuing_of h, rfl⟩

theorem witness_MatrixCompletes (h : Obligations.MatrixCompletes) :
    (∃ t, Completes (.mmah (fX 3 8 1537 1 0 false false 0)) sm t) ∧ (∃ t, Completes (.mmab (fX 0 8 1537 1 1 false false 0)) sm t)
    ∧ (∃ t, Completes (.mmab (fX 1 8 1537 3 2 false true 4)) sm t) ∧ (∃ t, Completes (.scacc (fX 3 1672 1672 1 1 false false 0)) sm t)
    ∧ (∃ t, Completes (.spush (fR 0 1672 1 1672 1672 0)) sm t) ∧ (∃ t, Completes (.schk (fR 0 1672 1672 1672 1672 0)) s0 t)
    ∧ (∃ t, Completes (.pjadj (fR 0 1545 1672 1537 1672 0)) sj t) :=
  ⟨⟨_, (h sm rm (fX 3 8 1537 1 0 false false 0) (fR 0 0 0 0 0 0) 3 pend).1 (starts_of (by decide +kernel)) (by decide +kernel) (by unfold SlotsOk; decide +kernel)
      (by unfold TileAt AreaOk; decide +kernel) (fits_of (by decide +kernel))⟩,
   ⟨_, (h sm rm (fX 0 8 1537 1 1 false false 0) (fR 0 0 0 0 0 0) 3 pend).2.1 (starts_of (by decide +kernel)) (by decide +kernel) (by unfold PartialAt; decide +kernel)
      (by unfold TileAt AreaOk; decide +kernel) (fun _ => ⟨rfl, by unfold PartialSlot.sameFormat; decide +kernel⟩) (fits_of (by decide +kernel))⟩,
   ⟨_, (h sm rm (fX 1 8 1537 3 2 false true 4) (fR 0 0 0 0 0 0) 3 noPend).2.1 (starts_of (by decide +kernel)) (by decide +kernel) (by unfold PartialAt; decide +kernel)
      (by unfold TileAt AreaOk; decide +kernel) (fun h => absurd h (by decide +kernel)) (fits_of (by decide +kernel))⟩,
   ⟨_, (h sm rm (fX 3 1672 1672 1 1 false false 0) (fR 0 0 0 0 0 0) 3 pend).2.2.1 (starts_of (by decide +kernel)) (by decide +kernel) (by unfold SlotsOk; decide +kernel)
      (by unfold PartialAt; decide +kernel) rfl (by decide +kernel) (by unfold PartialSlot.sameFormat; decide +kernel) (fits_of (by decide +kernel))⟩,
   ⟨_, (h sm rm (fX 0 0 0 0 0 false false 0) (fR 0 1672 1 1672 1672 0) 0 pend).2.2.2.1 (starts_of (by decide +kernel)) (by decide +kernel) (by decide +kernel) (fits_of (by decide +kernel))⟩,
   ⟨_, (h s0 r0 (fX 0 0 0 0 0 false false 0) (fR 0 1672 1672 1672 1672 0) 0 pend).2.2.2.2.1 (starts_of (by decide +kernel)) rfl (by decide +kernel) (fits_of (by decide +kernel))⟩,
   ⟨_, (h sj r0 (fX 0 0 0 0 0 false false 0) (fR 0 1545 1672 1537 1672 0) 0 pend).2.2.2.2.2 _ _ _ _ (starts_of (by decide +kernel)) (by decide +kernel)
      ⟨(by decide +kernel), rfl, rfl, by unfold AreaOk; decide +kernel, _, _, _, _, _, _, spadRead_of (by decide +kernel), (by decide +kernel), by unfold AreaOk; decide +kernel,
        by unfold AreaOk; decide +kernel, by unfold AreaOk; decide +kernel, spadRead_of (by decide +kernel), rfl, (by decide +kernel), fun h => absurd h (by decide +kernel), spadRead_of (by decide +kernel)⟩ (fits_of (by decide +kernel))⟩⟩

def isBad (v : Verdict) : Bool := match v with | .bad _ _ => true | _ => false
theorem notBad : isBad (s0.verdict r0 1) = false := (by decide +kernel)

theorem witness_AccumulatorCompletes (h : Obligations.AccumulatorCompletes) :
    (∃ t, Completes (.azero (fX 3 1672 1672 0 0 false false 0)) s0 t) ∧ (∃ t, Completes (.ald (fX 0 1672 1537 0 0 false false 0)) s0 t)
    ∧ (∃ t, Completes (.achk (fX 1 1672 1672 0 0 false false 0)) s0 t) ∧ (∃ t, Completes (.arel (fR 0 1672 1672 1672 1672 0)) s0 t)
    ∧ (∃ t, Completes (.aset (fI 1672 1536 0 0xFFFFFF)) s0 t) :=
  ⟨⟨_, ((h s0 r0 (fX 3 1672 1672 0 0 false false 0) (fR 0 0 0 0 0 0) (fI 0 0 0 0) 3).1 (by unfold SlotsOk; decide +kernel) (by decide +kernel)).1 (starts_of (by decide +kernel)) (fits_of (by decide +kernel))⟩,
   ⟨_, ((h s0 r0 (fX 0 1672 1537 0 0 false false 0) (fR 0 0 0 0 0 0) (fI 0 0 0 0) 0).1 (by unfold SlotsOk; decide +kernel) (by decide +kernel)).2.1 (starts_of (by decide +kernel)) (by unfold TileAt AreaOk; decide +kernel) (fits_of (by decide +kernel))⟩,
   ⟨_, ((h s0 r0 (fX 1 1672 1672 0 0 false false 0) (fR 0 0 0 0 0 0) (fI 0 0 0 0) 1).1 (by unfold SlotsOk; decide +kernel) (by decide +kernel)).2.2 (starts_of (by decide +kernel))
      (fun rows cols hv => Bool.noConfusion (notBad.symm.trans (congrArg isBad hv))) (fits_of (by decide +kernel))⟩,
   ⟨_, (h s0 r0 (fX 1 0 0 0 0 false false 0) (fR 0 1672 1672 1672 1672 0) (fI 0 0 0 0) 1).2.1 (starts_of (by decide +kernel)) (by decide +kernel) (fits_of (by decide +kernel))⟩,
   ⟨_, (h s0 r0 (fX 1 0 0 0 0 false false 0) (fR 0 0 0 0 0 0) (fI 1672 1536 0 0xFFFFFF) 1).2.2 0 (by decide +kernel) (starts_of (by decide +kernel)) (fits_of (by decide +kernel))⟩⟩

theorem witness_ChecksumProcedure (h : Obligations.ChecksumProcedure) :
    verify (Tile.zero.write (List.replicate 4096 5)) (some { slot := 0, elem := 4095, bit := 31 }) = .reread (List.replicate 4096 5)
    ∧ verify (Tile.zero.write (List.replicate 4096 5)) none = .clean (List.replicate 4096 5) :=
  ⟨(h Tile.zero (List.replicate 4096 5) { slot := 0, elem := 4095, bit := 31 } rfl List.length_replicate (by decide) (by decide)).2,
   (h Tile.zero (List.replicate 4096 5) { slot := 0, elem := 4095, bit := 31 } rfl List.length_replicate (by decide) (by decide)).1⟩

/-- A descriptor of DRN at 0x400 (R224): FP32 rows of 64 columns at scratchpad 0x2000. -/
def sd : State := { s0 with teams := [{ demoTeam with
  spad := Memory.writeList [] 0x400 (toBytes 8 (0x2000 + 2 ^ 57 + 2 ^ 58) ++ toBytes 8 (2 ^ 58) ++ toBytes 8 0 ++ toBytes 8 (64 + 63 * 2 ^ 26)
    ++ List.replicate 32 0) }] }
def rd : Round := { r0 with status := .waiting .drain }
def rdw : Round := { r0 with status := .waiting .drain, drain := [(1, [(0x2000, 1), (0x2001, 2)])] }
/-- DRN of slot 3. -/
def fd : XForm := fX 3 1672 1537 0 0 false false 0
def sd0 : State := sd.begun r0 fd.g [(fd.b, false)]
def sd1 : State := sd0.readSpadNow (spadRange 0x400 64)
def descAt : List Byte := (spadRange 0x400 64).map (Memory.read (sd1.teamOf (roundOf sd1)).spad)
def drainOut : State × (Option (Nat × Mask × Mask)) × List (List (BitVec 32)) := drainReads sd1 (roundOf sd1) [3]

theorem triple {α β γ : Type} {x : α × β × γ} {b : β} (h : x.2.1 = b) : x = (x.1, b, x.2.2) := by subst h; rfl
theorem drainGood : drainOut.2.1 = none := (by decide +kernel)
theorem drainEq : drainOut = (drainOut.1, none, drainOut.2.2) := triple drainGood
theorem drainOk : DrainOk sd1 (roundOf sd1) fd.h.toNat (readDrain descAt) [3] :=
  ⟨by unfold SlotsOk; decide +kernel, (by decide +kernel), by decide, by decide, (by decide +kernel), (by decide +kernel), (by decide +kernel), by unfold AreaOk; decide +kernel, none_in (by decide +kernel), none_in (by decide +kernel), .inr (by decide +kernel)⟩

theorem witness_DrainCompletes (h : Obligations.DrainCompletes) :
    (∃ t, Completes (.drn fd) sd t) ∧ (∃ t, Completes (.drn fd) (demoState rd) t)
    ∧ (∃ t, Completes (.drainComplete 0 none) (demoState rdw) t) :=
  ⟨⟨_, (h sd r0 fd).1 descAt [3] sd1 (roundOf sd1) drainOut.1 drainOut.2.2 _ (starts_of (by decide +kernel)) (by decide +kernel) (by decide +kernel) (by unfold TileAt AreaOk; decide +kernel)
      (spadRead_of (s := sd0) (by decide +kernel)) drainOk drainEq (issuing_of (by decide +kernel))⟩,
   ⟨_, (h (demoState rd) rd fd).2.1 (starts_of (by decide +kernel)) rfl rfl (fits_of (by decide +kernel))⟩,
   ⟨_, (h (demoState rdw) r0 fd).2.2.1 0 rdw _ rfl (some_of r0 (by decide +kernel))⟩⟩

def req : SfqReq := { token := 9, fn := 5, dst := 6, mask := 3, vals := tab (fun _ => 0) }
def rq : Round := { r0 with tokens := [req] }

theorem witness_SpecialFunctionsComplete (h : Obligations.SpecialFunctionsComplete) :
    (∃ t, Completes (.sfq (fI 6 1 0 (16 * 5 + 9))) s0 t) ∧ (∃ t, Completes (.sfwait (fI 1672 1672 0 0xFFFF)) s0 t)
    ∧ (∃ t, Completes (.sfpoll (fI 4 1672 0 0x10)) s0 t) ∧ (∃ t, Completes (.sfqResultLand 0 9) (demoState rq) t)
    ∧ ∃ t, Completes (.sfq (fI 6 6 0 9)) (demoState rq) t :=
  ⟨⟨_, (h s0 r0 (fI 6 1 0 (16 * 5 + 9))).1 (starts_of (by decide +kernel)) (by decide +kernel) (by decide +kernel) (by decide +kernel) (fits_of (by decide +kernel))⟩, ⟨_, (h s0 r0 (fI 1672 1672 0 0xFFFF)).2.2.1 _ (starts_of (by decide +kernel)) (by decide +kernel) (issuing_of (by decide +kernel)) (by decide +kernel) (fits_of (by decide +kernel))⟩,
   meets (h s0 r0 (fI 4 1672 0 0x10)).2.2.2.1 s0 r0 (by decide +kernel) (by decide +kernel),
   ⟨_, (h (demoState rq) rq (fI 0 0 0 0)).2.2.2.2 0 rq req rfl (by decide +kernel)⟩, ⟨_, (h (demoState rq) rq (fI 6 6 0 9)).2.1 rfl (by decide +kernel)⟩⟩

/-! ### Witnesses: control flow, traps, barriers, exchange -/

def retE : JoinEntry := { kind := .call, addr := 0x1000, mask := 3 }
def joinE : JoinEntry := { kind := .join, addr := 0x1000, mask := 3 }
def pathE : JoinEntry := { kind := .path, addr := 0x1000, mask := 2 ^ 20 }
/-- Guards that no lane, that lane 0, and that both current lanes pass. -/
def p0 : Guard := { p := 0, inv := false, uni := false }
def p1 : Guard := { p := 1, inv := false, uni := false }
def boundWalker : Walker := { Walker.unbound with bound := true, ndim := 2, extent := [2, 2], stride := [1, 2], c := [0, 0], wrap := 2 }
def rf (st : List JoinEntry) : Round := { r0 with
  p := [0, 1, 0, 0, 0, 0, 0], stack := st, walkers := [boundWalker] ++ List.replicate 7 Walker.unbound
  v := SMap.set r0.v 6 (tab (fun l => BitVec.ofNat 64 (0x1000 + l))) }
def sf (st : List JoinEntry) : State := demoState (rf st)

theorem witness_FlowCompletes_jumps (h : Obligations.FlowCompletes) :
    (∃ t, Completes (.bra { fJ 0 0xFF0 with g := p0 }) (sf []) t) ∧ (∃ t, Completes (.bra (fJ 0 0xFF0)) (sf []) t)
    ∧ (∃ t, Completes (.bra { fJ 0 0xFF0 with g := p1 }) (sf (List.replicate 31 retE)) t)
    ∧ (∃ t, Completes (.brw (fJ 0 0xFF0)) (sf []) t) ∧ (∃ t, Completes (.brw (fJ 32 0xFF0)) (sf []) t)
    ∧ (∃ t, Completes (.brw { fJ 32 0xFF0 with g := p1 }) (sf []) t)
    ∧ (∃ t, Completes (.call { fJ 0 0xFF0 with g := p0 }) (sf []) t) ∧ (∃ t, Completes (.call { fJ 0 0xFF0 with g := p1 }) (sf []) t)
    ∧ (∃ t, Completes (.mjoin (fJ 0 0xFF0)) (sf []) t) := by
  have h1 := fun f => (h (sf []) (rf []) rfl).1 f
  refine ⟨⟨_, (h1 { fJ 0 0xFF0 with g := p0 }).1.1 (by decide +kernel)⟩, ⟨_, (h1 (fJ 0 0xFF0)).1.2.1 (by decide +kernel) (by decide +kernel) ⟨0xFC00000000000000, (by decide +kernel), (by decide +kernel)⟩⟩,
    ⟨_, ((h (sf (List.replicate 31 retE)) (rf (List.replicate 31 retE)) rfl).1 { fJ 0 0xFF0 with g := p1 }).1.2.2 (by decide +kernel) (by decide +kernel) ⟨0xFC00000000000000, (by decide +kernel), (by decide +kernel)⟩ (by decide +kernel)⟩,
    ⟨_, ((h1 (fJ 0 0xFF0)).2.1 (by decide +kernel)).1 (by decide +kernel)⟩, ⟨_, ((h1 (fJ 32 0xFF0)).2.1 (by decide +kernel)).2.1 (by decide +kernel) (by decide +kernel) ⟨0xFC00000000000000, (by decide +kernel), (by decide +kernel)⟩⟩,
    ⟨_, ((h1 { fJ 32 0xFF0 with g := p1 }).2.1 (by decide +kernel)).2.2 (by decide +kernel) (by decide +kernel) ⟨0xFC00000000000000, (by decide +kernel), (by decide +kernel)⟩ (by decide +kernel)⟩,
    ⟨_, (h1 { fJ 0 0xFF0 with g := p0 }).2.2.1.1 (by decide +kernel)⟩, ⟨_, (h1 { fJ 0 0xFF0 with g := p1 }).2.2.1.2 (by decide +kernel) ⟨0xFC00000000000000, (by decide +kernel), (by decide +kernel)⟩ (by decide +kernel)⟩,
    ⟨_, (h1 (fJ 0 0xFF0)).2.2.2 (by decide +kernel) ⟨0xFC00000000000000, (by decide +kernel), (by decide +kernel)⟩ (by decide +kernel) (fits_of (by decide +kernel))⟩⟩

def rx : Round := { rf [] with s := r0.s.set 0 0x1000 }

theorem headers : ∀ p ∈ laneValues ((rf []).passing p7) (arg (sources (sf []) (rf []) [rA (fR 0 1672 6 1672 1672 0)]) 0), HeaderAt (sf []) (rf []) p.2 := by
  have e : laneValues ((rf []).passing p7) (arg (sources (sf []) (rf []) [rA (fR 0 1672 6 1672 1672 0)]) 0) = [(0, 0x1000), (1, 0x1001)] :=
    (by decide +kernel)
  rw [e]
  intro p hp
  rcases List.mem_cons.1 hp with rfl | hp
  · exact ⟨0xFC00000000000000, (by decide +kernel), (by decide +kernel)⟩
  · rcases List.mem_singleton.1 hp with rfl
    exact ⟨0xFC00000000000000, (by decide +kernel), (by decide +kernel)⟩

theorem witness_FlowCompletes_registers (h : Obligations.FlowCompletes) :
    (∃ t, Completes (.callx { fR 0 1672 1536 1672 1672 0 with g := p0 }) (demoState rx) t)
    ∧ (∃ t, Completes (.callx (fR 0 1672 1536 1672 1672 0)) (demoState rx) t)
    ∧ (∃ t, Completes (.ret (fR 0 1672 1672 1672 1672 0)) (sf [joinE, retE]) t)
    ∧ (∃ t, Completes (.join (fR 0 1672 1672 1672 1672 0)) (sf [joinE]) t)
    ∧ (∃ t, Completes (.join (fR 0 1672 1672 1672 1672 0)) (sf [pathE, joinE]) t)
    ∧ (∃ t, Completes (.brx (fR 0 1672 6 1672 1672 0)) (sf []) t) :=
  ⟨⟨_, (((h (demoState rx) rx rfl).2 { fR 0 1672 1536 1672 1672 0 with g := p0 }).1 (starts_of (by decide +kernel)) rfl).1 (by decide +kernel)⟩,
   ⟨_, (((h (demoState rx) rx rfl).2 (fR 0 1672 1536 1672 1672 0)).1 (starts_of (by decide +kernel)) rfl).2 (by decide +kernel) ⟨0xFC00000000000000, (by decide +kernel), (by decide +kernel)⟩ (by decide +kernel)⟩,
   ⟨_, ((h (sf [joinE, retE]) (rf [joinE, retE]) rfl).2 (fR 0 1672 1672 1672 1672 0)).2.1 (by decide +kernel) (by decide +kernel)⟩,
   ⟨_, (((h (sf [joinE]) (rf [joinE]) rfl).2 (fR 0 1672 1672 1672 1672 0)).2.2.1 joinE [] (by decide +kernel) (by decide +kernel) rfl).1 (by decide +kernel)⟩,
   ⟨_, (((h (sf [pathE, joinE]) (rf [pathE, joinE]) rfl).2 (fR 0 1672 1672 1672 1672 0)).2.2.1 pathE [joinE] (by decide +kernel) (by decide +kernel) rfl).2 (by decide +kernel)⟩,
   ⟨_, ((h (sf []) (rf []) rfl).2 (fR 0 1672 6 1672 1672 0)).2.2.2 (0x1000, 1) [(0x1001, 2)] (starts_of (by decide +kernel)) (by decide +kernel) headers (by decide +kernel) (by decide +kernel)⟩⟩

/-- A round of the two lanes 0 and 1 that has a scale outstanding, and one with a failure kept. -/
def rEdge : Round := { r0 with live := 3 }
def rDesync : Round := { rEdge with fifo := [1] }
def keptOne : KeptFailure := { rankWord := 7, addr := 0x40, cause := 0x61, timeout := false }
def rKept : Round := { rEdge with kept := some keptOne }
def rOut : Round := { rEdge with sysCtr := 1 }

/-- Some lanes stay; none stays; none stays, with a scale outstanding, with a packet unanswered, and with a failure kept. -/
theorem witness_ExitCompletes (h : Obligations.ExitCompletes) :
    (∃ t, Completes (.exit { fR 0 1672 1672 1672 1672 0 with g := p1 }) (sf [pathE]) t)
    ∧ (∃ t, Completes (.exit (fR 0 1672 1672 1672 1672 0)) (demoState rEdge) t)
    ∧ (∃ t, Completes (.exit (fR 0 1672 1672 1672 1672 0)) (demoState rDesync) t)
    ∧ (∃ t, Completes (.exit (fR 0 1672 1672 1672 1672 0)) (demoState rKept) t)
    ∧ (∃ t, Completes (.exit (fR 0 1672 1672 1672 1672 0)) (demoState rOut) t) := by
  have p := fun r (hi : (demoState r).issuing = some r) hg => h (demoState r) r (fR 0 1672 1672 1672 1672 0) hi hg
  exact ⟨⟨_, (h (sf [pathE]) (rf [pathE]) { fR 0 1672 1672 1672 1672 0 with g := p1 } rfl (by decide +kernel)).1 (by decide +kernel)⟩,
   ⟨_, (((p rEdge rfl (by decide +kernel)).2.2 rEdge (by decide +kernel) rfl (by decide +kernel)).1 (by decide +kernel) rfl rfl).1⟩,
   ((p rDesync rfl (by decide +kernel)).2.1 (by decide +kernel) (by decide +kernel)).imp (fun _ h => h.choose_spec.1),
   (((p rKept rfl (by decide +kernel)).2.2 rKept (by decide +kernel) rfl (by decide +kernel)).2.2 keptOne rfl rfl).imp (fun _ h => h.choose_spec.1),
   ⟨_, ((p rOut rfl (by decide +kernel)).2.2 rOut (by decide +kernel) rfl (by decide +kernel)).2.1 (by decide)⟩⟩

/-- A walker descriptor of one dimension of extent 2 at 0x400 (R98). -/
def sw : State := { s0 with teams := [{ demoTeam with
  spad := Memory.writeList [] 0x400 (List.replicate 12 0 ++ [3, 1, 0, 0, 2] ++ List.replicate 47 0) }] }
def rp : Round := { r0 with priv := true }

/-- A round that gives way, in a clause and between two. -/
def rWay : Round := { r0 with yields := true }

theorem witness_SmallCompletes (h : Obligations.SmallCompletes) :
    (∃ t, Completes (.nop (fR 0 1672 1672 1672 1672 0)) s0 t) ∧ (∃ t, Completes (.yield (fR 0 1672 1672 1672 1672 0)) s0 t)
    ∧ (∃ t, Completes (.sleep (fI 1672 1672 0 0)) s0 t) ∧ (∃ t, Completes (.sleep (fI 1672 1672 0 1)) s0 t)
    ∧ s0.stand rWay = s0.setRound rWay
    ∧ s0.stand { rWay with clause := none } = (s0.lastIssuer rWay).setRound { rWay with clause := none, yields := false, giveway := true }
    ∧ (∃ t, Completes (.rpf (fI 1672 8 0 64)) s0 t) ∧ (∃ t, Completes (.rdrop (fI 1672 8 0 1)) s0 t)
    ∧ (∃ t, Completes (.wbind (fI 1672 1672 0 7)) s0 t) ∧ (∃ t, Completes (.wbind (fI 1672 1537 0 0)) sw t)
    ∧ (∃ t, Completes (.wstat (fI 6 1672 0 6)) s0 t) ∧ (∃ t, Completes (.rdsr (fI 6 1672 0 0)) s0 t)
    ∧ (∃ t, Completes (.rdsr (fI 6 1672 0 0x101)) (demoState rp) t) ∧ (∃ t, Completes (.caprd (fI 6 1672 0 1)) s0 t) := by
  have h1 := fun f g => (h s0 r0 f g).1 (starts_of (by decide +kernel))
  have h2 := fun f => (h s0 r0 f (fR 0 0 0 0 0 0)).2
  have nop := fR 0 1672 1672 1672 1672 0
  exact ⟨⟨_, (h1 (fI 0 0 0 0) (fR 0 1672 1672 1672 1672 0)).1 (fits_of (by decide +kernel))⟩, ⟨_, (h1 (fI 0 0 0 0) (fR 0 1672 1672 1672 1672 0)).2.1 (by decide +kernel) (fits_of (by decide +kernel))⟩,
    ⟨_, (h1 (fI 1672 1672 0 0) nop).2.2.1 (by decide +kernel) rfl (fits_of (by decide +kernel))⟩, ⟨_, (h1 (fI 1672 1672 0 1) nop).2.2.2.2.1 (by decide +kernel) (by decide +kernel) (fits_of (by decide +kernel))⟩,
    ((h1 (fI 0 0 0 0) nop).2.2.2.1 rWay _ rfl).2 rfl,
    ((h1 (fI 0 0 0 0) nop).2.2.2.1 { rWay with clause := none } ⟨0, 0, 0, 0, false, 0, [], 0⟩ rfl).1 rfl,
    ⟨_, (h1 (fI 1672 8 0 64) nop).2.2.2.2.2.1 (fits_of (by decide +kernel))⟩, ⟨_, (h1 (fI 1672 8 0 1) nop).2.2.2.2.2.2 (fits_of (by decide +kernel))⟩,
    ⟨_, ((h2 (fI 1672 1672 0 7)).1 (starts_of (by decide +kernel))).1 (by decide +kernel) (fits_of (by decide +kernel))⟩,
    ⟨_, ((h sw r0 (fI 1672 1537 0 0) nop).2.1 (starts_of (by decide +kernel))).2 _ _ _ _
      (by decide +kernel) (by unfold TileAt AreaOk; decide +kernel) (spadRead_of (by decide +kernel)) (some_of Walker.unbound (by decide +kernel)) (fits_of (by decide +kernel))⟩,
    ⟨_, ((h2 (fI 6 1672 0 6)).2.1 (starts_of (by decide +kernel))).1 (fits_of (by decide +kernel))⟩, ⟨_, ((h2 (fI 6 1672 0 0)).2.1 (starts_of (by decide +kernel))).2 (by decide +kernel) (fits_of (by decide +kernel))⟩,
    ⟨_, ((h (demoState rp) rp (fI 6 1672 0 0x101) nop).2.2.1 (starts_of (by decide +kernel))).2 (fun _ => rfl) (fits_of (by decide +kernel))⟩,
    ⟨_, (h2 (fI 6 1672 0 1)).2.2 (starts_of (by decide +kernel)) (fits_of (by decide +kernel))⟩⟩

def rlast : Round := { r0 with clause := r0.clause.map (fun c => { c with idx := 1 }) }

theorem witness_SoftTraps (h : Obligations.SoftTraps) :
    (∃ t, Completes (.trap (fI 1672 1672 0 0x123456)) s0 t) ∧ (∃ t, Completes (.bkpt (fI 1672 1672 0 1)) s0 t)
    ∧ (∃ t, Completes (.trap { fI 1672 1672 0 1 with g := p0 }) s0 t)
    ∧ (returnTo 5 1 r0).clause.isSome = true ∧ returnTo 5 2 rlast = endClause 5 rlast.fallThrough rlast :=
  ⟨⟨_, ((h s0 r0 (fI 1672 1672 0 0x123456) (starts_of (by decide +kernel))).1 (by decide +kernel)).1⟩,
    ⟨_, ((h s0 r0 (fI 1672 1672 0 1) (starts_of (by decide +kernel))).1 (by decide +kernel)).2⟩,
    ⟨_, ((h s0 r0 { fI 1672 1672 0 1 with g := p0 } (starts_of (by decide +kernel))).2.2 (by decide +kernel)
      (fits_of (by decide +kernel))).1⟩,
    (congrArg Option.isSome (((h s0 r0 (fI 1672 1672 0 1) (starts_of (by decide +kernel))).2.1 _ 5 rfl).1 (by decide +kernel))),
    ((h (demoState rlast) rlast (fI 1672 1672 0 1) (starts_of (by decide +kernel))).2.1 _ 5 rfl).2 (by decide +kernel)⟩

def someTrap : TrapRec := { cause := 0x20, index := 0, h := 16, info0 := 1, info1 := 2, info2 := 3, mask := 1 }

theorem witness_TrapTaken (h : Obligations.TrapTaken) :
    ((parkTrap s0 r0 someTrap true 0).part (s0.teamOf r0).part).queue.length = 1
    ∧ (parkTrap (demoState rp) rp someTrap true 0).parts = (demoState rp).parts := by
  obtain ⟨_, _, _, _, _, _, _, h1⟩ := h s0 r0 someTrap true 0 rfl
  obtain ⟨_, _, _, _, _, _, h2, _⟩ := h (demoState rp) rp someTrap true 0 rfl
  refine ⟨?_, h2 rfl⟩
  have := congrArg List.length (h1 rfl (by decide +kernel))
  rw [List.length_append] at this
  exact this.trans (by decide +kernel)

def rbar : Round := { r0 with status := .waiting (.barrier 3) }

theorem witness_BarriersComplete (h : Obligations.BarriersComplete) :
    (∃ t, Completes (.bara (fS 3 true 1)) s0 t) ∧ (∃ t, Completes (.bara (fS 3 true 2)) two t)
    ∧ (∃ t, Completes (.barw (fS 15 true 1)) s0 t) ∧ (∃ t, Completes (.barw (fS 0 true 2)) two t)
    ∧ (∃ t, Completes (.barw (fS 3 true 1)) (demoState rbar) t) ∧ (∃ t, Completes (.barq (fI 6 1672 0 15)) s0 t) := by
  refine ⟨⟨_, (((h s0 r0 _ (fS 3 true 1) rfl).1 (by unfold MayArrive; decide +kernel) rfl (issuing_of (by decide +kernel))).1 (by decide +kernel) (fits_of (by decide +kernel))).1⟩,
    ⟨_, (((h two r0 _ (fS 3 true 2) rfl).1 (by unfold MayArrive; decide +kernel) rfl (issuing_of (by decide +kernel))).2 (by decide +kernel) (by decide +kernel)).1 (fits_of (by decide +kernel))⟩,
    ⟨_, (((h s0 r0 _ (fS 15 true 1) rfl).1 (by unfold MayArrive; decide +kernel) rfl (issuing_of (by decide +kernel))).1 (by decide +kernel) (fits_of (by decide +kernel))).2⟩,
    ⟨_, (((h two r0 _ (fS 0 true 2) rfl).1 (by unfold MayArrive; decide +kernel) rfl (issuing_of (by decide +kernel))).2 (by decide +kernel) (by decide +kernel)).2⟩,
    ⟨_, (h (demoState rbar) rbar rbar (fS 3 true 1) rfl).2.1 rfl (by decide +kernel) (fits_of (by decide +kernel))⟩,
    ⟨_, (h s0 r0 r0 (fS 3 true 1) rfl).2.2 (fI 6 1672 0 15) (starts_of (by decide +kernel)) (fits_of (by decide +kernel))⟩⟩

/-- A gang of two teams with one round each; windows 0 are declared at 0x1000. -/
def teamW (m : Nat) : Team := { demoTeam with
  member := m
  windows := [{ declared := true, base := 0x1000, size := 4096, bank := false }] ++ List.replicate 3 Window.reset }
def gang2 : State := { s0 with
  rounds := [r0, { r0 with team := 1 }]
  teams := [teamW 0, teamW 1]
  gangs := [{ Gang.blank with size := 2 }] }
/-- The same once the second round waits. -/
def gang2b : State := { gang2 with
  gangs := [{ Gang.blank with size := 2, count := 2, swap := true, arrived := [1], waiters := [1] }] }
def rcl : Round := { r0 with status := .waiting .cluster }

theorem witness_ClusterBarrierCompletes (h : Obligations.ClusterBarrierCompletes) :
    (∃ t, Completes (.cbar (fS 1 true 2)) gang2b t) ∧ (∃ t, Completes (.cbar (fS 0 true 2)) gang2 t)
    ∧ (∃ t, Completes (.cbar (fS 0 true 1)) (demoState rcl) t) :=
  ⟨⟨_, ((h gang2b r0 _ (fS 1 true 2) rfl).1 (by unfold MayArriveAtGang; decide +kernel) (issuing_of (by decide +kernel))).1 (by decide +kernel) (fits_of (by decide +kernel))⟩,
   ⟨_, ((h gang2 r0 _ (fS 0 true 2) rfl).1 (by unfold MayArriveAtGang; decide +kernel) (issuing_of (by decide +kernel))).2 (by decide +kernel) (by decide +kernel)⟩,
   ⟨_, (h (demoState rcl) rcl rcl (fS 0 true 1) rfl).2 rfl (by decide +kernel) (fits_of (by decide +kernel))⟩⟩

def item1 : XItem := { id := 5, round := 0, team := 1, window := 0, offset := 0, op := 0, data := 7 }
def upd1 : WindowUpdate := { id := 6, team := 1, window := 0, base := 0, size := 0 }

theorem witness_ExchangeCompletes (h : Obligations.ExchangeCompletes) :
    (∃ t, Completes (.xwin (fR 0 1672 1544 1545 1538 0)) { s0 with rounds := [{ r0 with s := (r0.s.set 8 0x8000).set 9 0x4000 }] } t)
    ∧ (∃ t, Completes (.xst (fR 0 3 5 3 1672 0)) gang2 t) ∧ (∃ t, Completes (.xadd (fA 1672 8 3 3 7 2)) gang2 t)
    ∧ (∃ t, Completes (.exchangeItemLand 5) { gang2 with items := [item1] } t)
    ∧ (∃ t, Completes (.windowTableUpdate 6) { gang2 with updates := [upd1] } t) :=
  ⟨⟨_, (h { s0 with rounds := [{ r0 with s := (r0.s.set 8 0x8000).set 9 0x4000 }] } { r0 with s := (r0.s.set 8 0x8000).set 9 0x4000 }
      (fR 0 1672 1544 1545 1538 0) (fA 0 0 0 0 0 0)).1 (starts_of (by decide +kernel)) (by decide +kernel) (by decide +kernel) (by decide +kernel) (by decide +kernel) (fits_of (by decide +kernel))⟩,
   ⟨_, (h gang2 r0 (fR 0 3 5 3 1672 0) (fA 0 0 0 0 0 0)).2.1 (starts_of (by decide +kernel)) (by unfold TargetsOk; decide +kernel) (fits_of (by decide +kernel))⟩,
   ⟨_, (h gang2 r0 (fR 0 0 0 0 0 0) (fA 1672 8 3 3 7 2)).2.2.1 (starts_of (by decide +kernel)) (by unfold TargetsOk; decide +kernel) (fits_of (by decide +kernel))⟩,
   ⟨_, (h { gang2 with items := [item1] } r0 (fR 0 0 0 0 0 0) (fA 0 0 0 0 0 0)).2.2.2.1 item1 (by decide +kernel) (by decide +kernel)⟩,
   ⟨_, (h { gang2 with updates := [upd1] } r0 (fR 0 0 0 0 0 0) (fA 0 0 0 0 0 0)).2.2.2.2 upd1 (by decide +kernel) (by decide +kernel) (by decide +kernel) (by decide +kernel)⟩⟩

/-! ### The identity page in general -/

theorem ready_ok {s : State} {pa : Nat} (hr : s.package = demoPackage) (h : pa < 2 ^ 33) : s.channelReady pa = true := by
  have h0 : homeDie pa = 0 := by unfold homeDie; exact Nat.div_eq_of_lt (by omega)
  have h1 : SMap.get demoPackage.ready 0 6 = BitVec.allOnes 64 := (by decide +kernel)
  unfold State.channelReady
  rw [hr, h0, h1]
  simp

theorem cached_ok {s : State} {r : Round} {w : Bool} {va : Word} (hc : (s.core r.core).tlb = [demoLeaf]) (hp : s.partOf r = demoPart)
    (hr : s.package = demoPackage) (h : va.toNat < 2 ^ 33) : s.xlat r w va = .ok va.toNat := by
  have h1 : canonical va = true := by
    unfold canonical
    rw [Nat.div_eq_of_lt (by omega)]; rfl
  have h2 : cachedLeaf s r.core (0 : Nat) va = some { size := 2 ^ 33, pa := 0, u := true, x := true, w := true } := by
    unfold cachedLeaf
    rw [hc]
    have e1 : va.toNat / 8589934592 = 0 := Nat.div_eq_of_lt h
    simp [demoLeaf, e1]
  have h3 : mapped va.toNat = true := by
    unfold mapped
    rw [Nat.div_eq_of_lt (by omega), Nat.mod_eq_of_lt (by omega)]
    simp; omega
  have h4 : granted demoPart va.toNat = true := by
    have e : homeDie va.toNat = 0 := Nat.div_eq_of_lt (by omega)
    have h4' : va.toNat < 8589934592 := by omega
    simp [granted, demoPart, e, h4']
  unfold State.xlat Machine.translate
  rw [hp]
  have h5 : demoPart.num = 0 := rfl
  rw [h5, h2]
  have e2 : va.toNat % 8589934592 = va.toNat := Nat.mod_eq_of_lt h
  simp [h1, checkLeaf, e2, h3, h4, ready_ok hr h]

theorem range_ok {tr : Word → Xlat} {va : Word} {z : Nat} (ht : ∀ x : Word, x.toNat < 2 ^ 33 → tr x = .ok x.toNat) (hz : 0 < z)
    (h : va.toNat + z ≤ 2 ^ 33) : translateRange tr va z = .ok ((List.range z).map (fun i => va.toNat + i)) := by
  have hp : ∀ x : Word, x.toNat < 2 ^ 33 → (pageOf x).toNat < 2 ^ 33 := by
    intro x hx
    unfold pageOf
    rw [BitVec.toNat_and]
    exact Nat.lt_of_le_of_lt Nat.and_le_left hx
  have hi : ∀ i < z, (va + BitVec.ofNat 64 i).toNat = va.toNat + i := by
    intro i hi
    rw [BitVec.toNat_add, BitVec.toNat_ofNat, Nat.mod_eq_of_lt (a := i) (by omega), Nat.mod_eq_of_lt (by omega)]
  have hl : ∀ x ∈ rangePages va z, tr x = .ok x.toNat := by
    intro x hx
    unfold rangePages at hx
    split at hx
    · rcases List.mem_singleton.1 hx with rfl
      exact ht _ (by omega)
    · rcases List.mem_cons.1 hx with rfl | hx
      · exact ht _ (by omega)
      · rcases List.mem_singleton.1 hx with rfl
        exact ht _ (hp _ (by rw [hi _ (by omega)]; omega))
  unfold translateRange
  simp only
  split
  · rename_i e
    have h1 := List.find?_some e
    obtain ⟨a, ha, e2⟩ := List.mem_map.1 (List.mem_of_find?_eq_some e)
    rw [hl a ha] at e2
    simp at e2
  · split
    · have hm : (List.range z).map (fun i => tr (va + BitVec.ofNat 64 i)) = (List.range z).map (fun i => Xlat.ok (va.toNat + i)) := by
        apply List.map_congr_left
        intro i h
        have h := List.mem_range.1 h
        rw [ht _ (by rw [hi i h]; omega), hi i h]
      rw [hm, if_neg (by simp), List.map_map]
      rfl
    · rename_i e
      have h1 := e ▸ List.mem_cons_self
      obtain ⟨x, hx, e2⟩ := List.mem_filterMap.1 h1
      obtain ⟨a, ha, rfl⟩ := List.mem_map.1 hx
      rw [hl a ha] at e2
      simp at e2

theorem pages_ok {s : State} {r : Round} {w : Bool} {l n : Nat} {a : Word} (hc : (s.core r.core).tlb = [demoLeaf])
    (hp : s.partOf r = demoPart) (hr : s.package = demoPackage) (hl : s.lasting = []) (hn : 0 < n) (h : a.toNat + n ≤ 2 ^ 33) : PagesAt s r w l a n (pasAt a.toNat n) := by
  refine ⟨[(l, pasAt a.toNat n)], ?_, ?_, ?_⟩
  · unfold translateLanes
    simp [range_ok (fun x hx => cached_ok hc hp hr hx) hn h, pasAt]
  · intro p _ a _
    simp [State.isLasting, hl]
  · simp [pasOf]

/-- The state after a load of n bytes at a by the instruction that issues, where virtual and physical addresses agree. -/
def after (s : State) (r : Round) (a n : Nat) : State := s.loadNow r (pasAt a n)
theorem loads_at {s : State} {r : Round} {m : Mask} {a : Word} {n : Nat} (hc : (s.core r.core).tlb = [demoLeaf]) (hp : s.partOf r = demoPart)
    (hr : s.package = demoPackage) (hl : s.lasting = []) (hn : 0 < n) (h : a.toNat + n ≤ 2 ^ 33)
    (hi : (after s r a.toNat n).issuing.isSome = true) :
    LoadsAt s r m a n (after s r a.toNat n) (roundOf (after s r a.toNat n)) ((after s r a.toNat n).bytesOf (pasAt a.toNat n)) := by
  refine ⟨[((lowestLane m).getD 0, pasAt a.toNat n)], ?_, cleanLanes_of hl, by simp [after], issuing_of hi, by simp⟩
  unfold translateLanes
  simp [range_ok (fun x hx => cached_ok hc hp hr hx) hn h, pasAt]

/-! ### Witnesses: the dispatch graph -/

def recG (standing : Bool) : NodeRec :=
  { kind := 0, priority := 0, standing := standing, pair := false, gang := 1, die := 0, teams := 1, kernel := 0, text := 0, data := 0
    tagsets := 0, reserve := 0, preds := 1, manifest := 0, params := List.replicate 8 0, succ := [] }
def nodeG (handle : Nat) (st : NodeState) (standing : Bool) : Node :=
  { handle := handle, part := 0, record := recG standing, kernel := demoKernel, state := st, remaining := 1, post := 1, since := 0, started := 0
    firstSince := none, completions := 3, grdy := false, standing := standing, nextTix := 0, resumable := [], snapshot := none
    work := none, fault := none }
/-- Node 0 with handle 64 waits; counter 64 of die 0 holds 2; every die has a context pool. -/
def sgr (standing : Bool) : State := { s0 with
  nodes := [nodeG 64 .waiting standing]
  dies := (List.range 6).map (fun _ => { Die.reset with part := some 0, sems := [(64, 2)], ctxsize := 0x100000, poolSet := true }) }
def gA : RForm := fR 0 6 1536 1538 1672 0
def gZ : RForm := fR 0 6 1536 1672 1672 0
def gBig : RForm := fR 0 6 1536 1536 1672 0

theorem semAt_of {s : State} {r : Round} {a n : Word} (h : (decide (a.toNat < 2 ^ 15) && decide (bits a 14 12 < 6)
    && (s.partOf r).dies.getLsbD (bits a 14 12) && decide (n.toNat < 2 ^ 32)) = true) :
    SemAt s r a n (bits a 14 12) (bits a 11 0) := by
  simp only [Bool.and_eq_true, decide_eq_true_eq] at h
  exact ⟨h.1.1.1, rfl, rfl, h.1.1.2, h.1.2, h.2⟩

/-- SEMP of 1; SEMW of 0, of 1 and of 64; GARM of 0, and of 1 at a node that does not stand and at one that then leaves; GWAIT with and without its
node. -/
theorem witness_GraphCompletes_counts (h : Obligations.GraphCompletes) :
    (∃ t, Completes (.semp gA) (sgr true) t) ∧ (∃ t, Completes (.semw gZ) (sgr true) t) ∧ (∃ t, Completes (.semw gA) (sgr true) t)
    ∧ (∃ t, Completes (.semw gBig) (sgr true) t) ∧ (∃ t, Completes (.garm gZ) (sgr true) t) ∧ (∃ t, Completes (.garm gA) (sgr false) t)
    ∧ (∃ t, Completes (.garm gA) (sgr true) t) ∧ (∃ t, Completes (.gwait gA) s0 t) ∧ (∃ t, Completes (.gwait gA) (sgr true) t)
    ∧ (∃ t, Completes (.gwait gBig) (sgr true) t) :=
  ⟨⟨_, (((h (sgr true) r0 gA).1 (by decide +kernel)).1 _ _ (starts_of (by decide +kernel)) (semAt_of (by decide +kernel))).1 (by decide +kernel) (fits_of (by decide +kernel))⟩,
   ⟨_, (((h (sgr true) r0 gZ).1 (by decide +kernel)).1 _ _ (starts_of (by decide +kernel)) (semAt_of (by decide +kernel))).2.1 (by decide +kernel) (fits_of (by decide +kernel))⟩,
   ⟨_, (((h (sgr true) r0 gA).1 (by decide +kernel)).1 _ _ (starts_of (by decide +kernel)) (semAt_of (by decide +kernel))).2.2.1 (by decide +kernel) (by decide +kernel) (by decide +kernel) (fits_of (by decide +kernel))⟩,
   ⟨_, (((h (sgr true) r0 gBig).1 (by decide +kernel)).1 _ _ (starts_of (by decide +kernel)) (semAt_of (by decide +kernel))).2.2.2 (by decide +kernel) (by decide +kernel)⟩,
   ⟨_, (((h (sgr true) r0 gZ).1 (by decide +kernel)).2.1 0 (nodeG 64 .waiting true) (starts_of (by decide +kernel)) (by decide +kernel) rfl).1 (by decide +kernel) (fits_of (by decide +kernel))⟩,
   ⟨_, (((h (sgr false) r0 gA).1 (by decide +kernel)).2.1 0 (nodeG 64 .waiting false) (starts_of (by decide +kernel)) (by decide +kernel) rfl).2 (by decide +kernel) (fits_of (by decide +kernel))⟩,
   ⟨_, (((h (sgr true) r0 gA).1 (by decide +kernel)).2.1 0 (nodeG 64 .waiting true) (starts_of (by decide +kernel)) (by decide +kernel) rfl).2 (by decide +kernel) (fits_of (by decide +kernel))⟩,
   ⟨_, (((h s0 r0 gA).1 (by decide +kernel)).2.2 (starts_of (by decide +kernel))).1 (by decide +kernel) (fits_of (by decide +kernel))⟩,
   ⟨_, ((((h (sgr true) r0 gA).1 (by decide +kernel)).2.2 (starts_of (by decide +kernel))).2 0 (nodeG 64 .waiting true) (by decide +kernel) rfl).1 (by decide +kernel) (fits_of (by decide +kernel))⟩,
   ⟨_, ((((h (sgr true) r0 gBig).1 (by decide +kernel)).2.2 (starts_of (by decide +kernel))).2 0 (nodeG 64 .waiting true) (by decide +kernel) rfl).2 (by decide +kernel) (by decide +kernel)⟩⟩

/-- A graph node of kind 3, and a kernel node with its kernel record of width 16 and one round at 0x600 (R75, R305). -/
def sPost (l k : List Byte) : State := { sgr true with mem := Memory.writeList (Memory.writeList demoTable 0x400 l) 0x600 k }
def kernelBytes : List Byte := List.replicate 40 0 ++ [16, 0, 1, 0] ++ List.replicate 16 0 ++ [255, 0, 0, 0]

theorem witness_GraphCompletes_posts (h : Obligations.GraphCompletes) :
    (∃ t, Completes (.gpost (fR 0 6 1537 1672 1672 0)) (sPost [3, 0, 1, 0, 1] []) t)
    ∧ (∃ t, Completes (.gpost (fR 0 6 1537 1672 1672 0)) (sPost [0, 0, 1, 0, 1, 0, 0, 0, 0, 6] kernelBytes) t)
    ∧ (∃ t, Completes (.grdy (fR 0 1672 1672 1672 1672 0)) { sgr true with teams := [{ demoTeam with node := some 0 }] } t) :=
  ⟨⟨_, (h (sPost [3, 0, 1, 0, 1] []) r0 (fR 0 6 1537 1672 1672 0)).2.1 _ [] [] _ _ (starts_of (by decide +kernel)) (by decide +kernel)
      ⟨_, _, _, _, loads_at (a := 0x400) (by decide +kernel) rfl rfl rfl (by decide +kernel) (by decide +kernel) (by decide +kernel), (by decide +kernel), fun h => absurd h (by decide +kernel), fun _ => ⟨rfl, rfl, rfl⟩,
        fun h => absurd h (by decide +kernel), fun _ => ⟨rfl, rfl, rfl⟩, (by decide +kernel)⟩ (fits_of (by decide +kernel))⟩,
   ⟨_, (h (sPost [0, 0, 1, 0, 1, 0, 0, 0, 0, 6] kernelBytes) r0 (fR 0 6 1537 1672 1672 0)).2.1 _ _ [] _ _ (starts_of (by decide +kernel)) (by decide +kernel)
      ⟨_, _, _, _, loads_at (a := 0x400) (by decide +kernel) rfl rfl rfl (by decide +kernel) (by decide +kernel) (by decide +kernel), (by decide +kernel),
        fun _ => loads_at (a := 0x600) (by decide +kernel) rfl rfl rfl (by decide +kernel) (by decide +kernel) (by decide +kernel), fun h => absurd (by decide +kernel) h,
        fun h => absurd h (by decide +kernel), fun _ => ⟨rfl, rfl, rfl⟩, (by decide +kernel)⟩ (fits_of (by decide +kernel))⟩,
   ⟨_, (h { sgr true with teams := [{ demoTeam with node := some 0 }] } r0 (fR 0 1672 1672 1672 1672 0)).2.2 0 (starts_of (by decide +kernel)) (by decide +kernel) rfl (fits_of (by decide +kernel))⟩⟩

/-! ### Witnesses: the manifest -/

theorem pas_getD {a n i : Nat} (h : i < n) : (pasAt a n).getD i 0 = a + i := by simp [pasAt, h]
theorem slot_of {m : Memory} {a : Nat} (k : Nat) (hk : k < manifestSlots) :
    slotState (fun i => Memory.read m ((pasAt a manifestSize).getD i 0)) k
      = (Memory.read m (a + (64 + k / 4))).toNat / 2 ^ (2 * (k % 4)) % 4 := by
  have : 64 + k / 4 < manifestSize := by unfold manifestSlots at hk; unfold manifestSize; omega
  unfold slotState
  simp only [pas_getD this]

/-- A manifest at 0x800000 whose slots are all free, whose slot 0 is a member, and whose slots are all members. -/
def memberMem : Memory := demoTable ++ [(0x800040, 1)]
def runMem (lo : Nat) : Nat → Memory
  | 0 => []
  | n + 1 => (lo, 0x55) :: runMem (lo + 1) n
def fullMem : Memory := demoTable ++ runMem 0x800040 1024
def sMan (m : Memory) : State := { s0 with mem := m }

theorem run_find {a : Nat} : ∀ (n lo : Nat), lo ≤ a → a < lo + n → SMap.find (runMem lo n) a = some 0x55
  | 0, _, h, g => absurd g (by omega)
  | n + 1, lo, h, g => by
    unfold runMem SMap.find
    split
    · rfl
    · exact run_find n (lo + 1) (by omega) (by omega)

theorem full_read (k : Nat) (hk : k < manifestSlots) : (Memory.read fullMem (0x800000 + (64 + k / 4))).toNat / 2 ^ (2 * (k % 4)) % 4 ≠ 0 := by
  unfold manifestSlots at hk
  have h : SMap.find fullMem (0x800000 + (64 + k / 4)) = some 0x55 := by
    have := run_find (a := 0x800000 + (64 + k / 4)) 1024 0x800040 (by omega) (by omega)
    simp only [fullMem, demoTable, List.cons_append, List.nil_append, SMap.find]
    rw [if_neg (by omega), if_neg (by omega), if_neg (by omega), if_neg (by omega), if_neg (by omega), this]
  unfold Memory.read SMap.get
  rw [h]
  have : k % 4 = 0 ∨ k % 4 = 1 ∨ k % 4 = 2 ∨ k % 4 = 3 := by omega
  rcases this with h | h | h | h <;> rw [h] <;> decide

def mF : RForm := fR 0 6 1541 1672 1672 0
def snapNode : Node := { nodeG 64 .running true with snapshot := some ([0, 65], 2) }
def sSnap : State := { s0 with nodes := [snapNode], teams := [{ demoTeam with node := some 0 }] }

theorem witness_ManifestCompletes (h : Obligations.ManifestCompletes) :
    (∃ t, Completes (.madmit mF) (sMan demoTable) t) ∧ (∃ t, Completes (.madmit mF) (sMan fullMem) t)
    ∧ (∃ t, Completes (.mretire mF) (sMan memberMem) t) ∧ (∃ t, Completes (.mretire mF) (sMan demoTable) t)
    ∧ (∃ t, Completes (.mread (fR 0 6 1536 1672 1672 0)) sSnap t) :=
  ⟨⟨_, ((h (sMan demoTable) r0 mF _ (by decide +kernel)).1 (starts_of (by decide +kernel)) (pages_ok (by decide +kernel) rfl rfl rfl (by decide +kernel) (by decide +kernel))).1 0 (by decide +kernel) ((slot_of 0 (by decide +kernel)).trans (by decide +kernel)) (fun j hj => absurd hj (Nat.not_lt_zero j)) (fits_of (by decide +kernel))⟩,
   ⟨_, ((h (sMan fullMem) r0 mF _ (by decide +kernel)).1 (starts_of (by decide +kernel)) (pages_ok (by decide +kernel) rfl rfl rfl (by decide +kernel) (by decide +kernel))).2
      (fun k hk hz => full_read k hk ((slot_of k hk).symm.trans hz)) (fits_of (by decide +kernel))⟩,
   ⟨_, ((h (sMan memberMem) r0 mF _ (by decide +kernel)).2.1 (starts_of (by decide +kernel)) (pages_ok (by decide +kernel) rfl rfl rfl (by decide +kernel) (by decide +kernel)) (by decide +kernel)).1 ((slot_of 0 (by decide +kernel)).trans (by decide +kernel)) (fits_of (by decide +kernel))⟩,
   ⟨_, ((h (sMan demoTable) r0 mF _ (by decide +kernel)).2.1 (starts_of (by decide +kernel)) (pages_ok (by decide +kernel) rfl rfl rfl (by decide +kernel) (by decide +kernel)) (by decide +kernel)).2 (fun hz => absurd ((slot_of 0 (by decide +kernel)).symm.trans hz) (by decide +kernel)) (fits_of (by decide +kernel))⟩,
   ⟨_, (h sSnap r0 (fR 0 6 1536 1672 1672 0) [] (by decide +kernel)).2.2 snapNode ([0, 65], 2) (starts_of (by decide +kernel)) (by decide +kernel) rfl (by decide +kernel) (fits_of (by decide +kernel))⟩⟩

/-! ### Witnesses: the fabric, jobs, the system instructions -/

theorem replied_of {r : Round} {l : List RLane}
    (h : l.all (fun x => match r.reply x with | some y => y.cause.isNone | none => false) = true) : Replied r l := by
  intro x hx
  have := List.all_eq_true.1 h x hx
  split at this
  · exact ⟨_, by assumption, by simpa using this⟩
  · simp at this

/-- v4 and v5 give address 0x80 at rank 0 of job 0; requests that have left with their entries, and their replies. -/
def entry0 : Word := 0x8000000000010005
def answer (l : Nat) (data : List Byte) : Reply := { lane := l, cause := none, apply := false, data := data }
def rAsk (wave z : Nat) : Round := { r0 with
  remote := [(0, 0, entry0), (1, 0, entry0)], wave := wave, replies := [answer 0 (List.replicate z 1), answer 1 (List.replicate z 2)] }
def sAsk (wave z : Nat) : State := demoState (rAsk wave z)
def noLane : Guard := { p := 0, inv := false, uni := false }

theorem witness_RemoteAccessCompletes_loads (h : Obligations.RemoteAccessCompletes) :
    (∃ t, Completes (.rld { fM 6 4 6 3 0 with g := noLane }) s0 t) ∧ (∃ t, Completes (.rld (fM 6 4 6 3 0)) s0 t)
    ∧ (∃ t, Completes (.rld (fM 6 4 6 3 0)) (sAsk 1 8) t)
    ∧ (∃ t, Completes (.rst (fM 1 4 6 3 0)) s0 t) ∧ (∃ t, Completes (.rst (fM 1 4 (8 * 2 + 6) 3 0)) s0 t) :=
  ⟨⟨_, ((h.1 s0 r0 { fM 6 4 6 3 0 with g := noLane } (starts_of (by decide +kernel))).1 rfl (by unfold RanksOk; decide +kernel)).1 (by decide +kernel) (fits_of (by decide +kernel))⟩,
   ⟨_, ((h.1 s0 r0 (fM 6 4 6 3 0) (starts_of (by decide +kernel))).1 rfl (by unfold RanksOk; decide +kernel)).2 (by decide +kernel) (none_in (by decide +kernel))⟩,
   ⟨_, (h.1 (sAsk 1 8) (rAsk 1 8) (fM 6 4 6 3 0) (starts_of (by decide +kernel))).2 (by decide +kernel) (replied_of (by decide +kernel)) (fits_of (by decide +kernel))⟩,
   ⟨_, (h.2.2.2 s0 r0 (fM 1 4 6 3 0) (starts_of (by decide +kernel))).1 (by decide +kernel) (by unfold RanksOk; decide +kernel) (fits_of (by decide +kernel))⟩,
   ⟨_, (h.2.2.2 s0 r0 (fM 1 4 (8 * 2 + 6) 3 0) (starts_of (by decide +kernel))).2 (by decide +kernel) (by unfold RanksOk; decide +kernel) (releases_of (by decide +kernel)) (fits_of (by decide +kernel))⟩⟩

/-- RATOM of 8 bytes relaxed and of 4 with release, and RCAS: with no lane, at its start, and with the answers of each of its waves. -/
theorem witness_RemoteAccessCompletes_atomics (h : Obligations.RemoteAccessCompletes) :
    (∃ t, Completes (.ratom { fA 6 4 1 6 4 1 with g := noLane }) s0 t) ∧ (∃ t, Completes (.ratom (fA 6 4 1 6 4 1)) s0 t)
    ∧ (∃ t, Completes (.ratom (fA 6 4 1 (8 * 3 + 6) 4 0)) s0 t) ∧ (∃ t, Completes (.ratom (fA 6 4 1 (8 * 3 + 6) 4 0)) (sAsk 1 4) t)
    ∧ (∃ t, Completes (.ratom (fA 6 4 1 (8 * 3 + 6) 4 0)) (sAsk 2 4) t)
    ∧ (∃ t, Completes (.rcas (fR 0 6 4 1 1672 6)) s0 t) ∧ (∃ t, Completes (.rcas (fR 0 6 4 1 1672 6)) (sAsk 1 8) t)
    ∧ (∃ t, Completes (.rcas (fR 0 6 4 1 1672 6)) (sAsk 2 8) t) :=
  ⟨⟨_, ((h.2.1 { fA 6 4 1 6 4 1 with g := noLane } s0 r0 r0 (starts_of (by decide +kernel))).1 rfl (by unfold RanksOk; decide +kernel) (fun h => absurd h (by decide +kernel))).1 (by decide +kernel) (fits_of (by decide +kernel))⟩,
   ⟨_, ((h.2.1 (fA 6 4 1 6 4 1) s0 r0 _ (starts_of (by decide +kernel))).1 rfl (by unfold RanksOk; decide +kernel) (fun h => absurd h (by decide +kernel))).2 (by decide +kernel) (issuing_of (by decide +kernel))
      (none_in (by decide +kernel))⟩,
   ⟨_, ((h.2.1 (fA 6 4 1 (8 * 3 + 6) 4 0) s0 r0 _ (starts_of (by decide +kernel))).1 rfl (by unfold RanksOk; decide +kernel) (fun _ => releases_of (by decide +kernel))).2 (by decide +kernel)
      (issuing_of (by decide +kernel)) (none_in (by decide +kernel))⟩,
   ⟨_, (h.2.1 (fA 6 4 1 (8 * 3 + 6) 4 0) (sAsk 1 4) (rAsk 1 4) r0 (starts_of (by decide +kernel))).2.1 rfl (replied_of (by decide +kernel))⟩,
   ⟨_, (h.2.1 (fA 6 4 1 (8 * 3 + 6) 4 0) (sAsk 2 4) (rAsk 2 4) r0 (starts_of (by decide +kernel))).2.2 (by decide +kernel) (replied_of (by decide +kernel)) (fits_of (by decide +kernel))⟩,
   ⟨_, ((h.2.2.1 (fR 0 6 4 1 1672 6) s0 r0 _ (starts_of (by decide +kernel))).1 rfl (by unfold RanksOk; decide +kernel) (fun _ => releases_of (by decide +kernel))).2 (by decide +kernel)
      (issuing_of (by decide +kernel)) (none_in (by decide +kernel))⟩,
   ⟨_, (h.2.2.1 (fR 0 6 4 1 1672 6) (sAsk 1 8) (rAsk 1 8) r0 (starts_of (by decide +kernel))).2.1 rfl (replied_of (by decide +kernel))⟩,
   ⟨_, (h.2.2.1 (fR 0 6 4 1 1672 6) (sAsk 2 8) (rAsk 2 8) r0 (starts_of (by decide +kernel))).2.2 (by decide +kernel) (replied_of (by decide +kernel)) (fits_of (by decide +kernel))⟩⟩

theorem witness_FabricCompletes (h : Obligations.FabricCompletes) :
    (∃ t, Completes (.rrel (fR 0 3 4 1672 1672 0)) s0 t) ∧ (∃ t, Completes (.rflush (fR 0 1672 1672 1540 1672 0)) s0 t)
    ∧ (∃ t, Completes (.rankq (fR 0 6 5 1672 1672 0)) s0 t) :=
  ⟨⟨_, (h s0 r0 (fR 0 3 4 1672 1672 0)).1 (starts_of (by decide +kernel)) (by unfold RanksOk; decide +kernel) (by decide +kernel) (fits_of (by decide +kernel))⟩,
   ⟨_, (h s0 r0 (fR 0 1672 1672 1540 1672 0)).2.1 _ (starts_of (by decide +kernel)) (by decide +kernel) (.inr ⟨by decide, .inr ⟨(by decide +kernel), (by decide +kernel)⟩⟩) (issuing_of (by decide +kernel)) rfl rfl (fits_of (by decide +kernel))⟩,
   ⟨_, (h s0 r0 (fR 0 6 5 1672 1672 0)).2.2 (starts_of (by decide +kernel)) (by decide +kernel) (fits_of (by decide +kernel))⟩⟩

/-- A collective descriptor at 0x400 over rank 0 alone (R378), FP32, one element, with its list at 0x600. -/
def sc : State := { s0 with
  mem := [(0x400, 1), (0x404, 1), (0x406, 1), (0x409, 6), (0x412, 1), (0x41A, 2), (0x420, 1)] ++ demoTable }
/-- A key-value job of one block (R346, R349) at 0x400 with its block list at 0x600 and its cursor at 0x30000; and a
tensor job over a mesh of one rank (R343), whose two records are the one at 0x1000. -/
def kvMem (cursor : List (Nat × Byte)) : Memory :=
  [(0x400, 1), (0x404, 1), (0x41A, 1), (0x422, 2), (0x42A, 3), (0x431, 6), (0x438, 1), (0x43D, 1), (0x608, 1)] ++ cursor ++ demoTable
def sk (cursor : List (Nat × Byte)) : State := { s0 with mem := kvMem cursor }
def kvJob : JobRec := { jobid := 1, kind := 1, job := 0, srclay := 0, dstlay := 0, srcbase := 0x10000, dstbase := 0x20000
                        cursor := 0x30000, list := 0x600, nblk := 1, blkbytes := 256, zeros := true }
def tJob : JobRec := { kvJob with kind := 0, srclay := 0x1000, dstlay := 0x1000, list := 0, nblk := 0, blkbytes := 0 }
def planOf1 : List Segment := blockPlan kvJob [(0, 0, 1)]
def st : State := { s0 with
  mem := [(0x400, 1), (0x409, 0x10), (0x411, 0x10), (0x41A, 1), (0x422, 2), (0x42A, 3), (0x1000, 1), (0x1001, 128), (0x1010, 32), (0x102A, 1)
    , (0x1032, 2), (0x1040, 1), (0x1048, 2), (0x1050, 4), (0x1058, 8), (0x1060, 16), (0x11C8, 1)] ++ demoTable }
def recT : List Word := (rec32 0 0x10000 0x20000 0 upRows).set 57 1

/-- The state and the round in which a record of n bytes at a is read, and what follows. -/
def jb (s : State) : State := s.begun r0 p7 [(1537, false)]
def jr : Round := r0.noted p7 [(1537, false)]
def c1 : State := after (jb sc) jr 0x400 64
def cDesc : CollDesc := readColl (c1.bytesOf (pasAt 0x400 64))
def c2 : State := after c1 (roundOf c1) cDesc.list.toNat (2 * cDesc.n)
theorem coll_at : CollAt (jb sc) jr (r0.passing p7) 0x400 2 false cDesc [0] c2 (roundOf c2) :=
  ⟨(by decide +kernel), (by decide +kernel), ⟨c1, roundOf c1, _, _, loads_at (a := 0x400) (by decide +kernel) rfl rfl rfl (by decide +kernel) (by decide +kernel) (by decide +kernel), rfl, (by decide +kernel), loads_at (by decide +kernel) rfl rfl rfl (by decide +kernel) (by decide +kernel) (by decide +kernel), (by decide +kernel)⟩,
    (by decide +kernel), (by decide +kernel), ⟨0, (by decide +kernel), (by decide +kernel)⟩, fun h => absurd h (by decide +kernel)⟩
def k1 (cursor : List (Nat × Byte)) : State := after (jb (sk cursor)) jr 0x400 128
def k2 (cursor : List (Nat × Byte)) : State := after (k1 cursor) (roundOf (k1 cursor)) 0x600 16
/-- Cursors of a job that was stopped and of one that is complete (R350). -/
def liveCursor : List (Nat × Byte) := [(0x30000, 1), (0x30004, 1)]
def doneCursor : List (Nat × Byte) := [(0x30000, 1), (0x30004, 2)]
theorem job_at (cursor : List (Nat × Byte)) (hc : cursor = [] ∨ cursor = liveCursor ∨ cursor = doneCursor) :
    JobAt (jb (sk cursor)) jr (r0.passing p7) 0x400 kvJob planOf1 (k2 cursor) (roundOf (k2 cursor)) := by
  rcases hc with rfl | rfl | rfl <;>
    exact ⟨(by decide +kernel), (by decide +kernel), (by decide +kernel), (by decide +kernel), _, _, _, loads_at (a := 0x400) (by decide +kernel) rfl rfl rfl (by decide +kernel) (by decide +kernel) (by decide +kernel), (by decide +kernel), fun h => absurd h (by decide +kernel),
      fun _ => ⟨_, loads_at (a := 0x600) (by decide +kernel) rfl rfl rfl (by decide +kernel) (by decide +kernel) (by decide +kernel), (by decide +kernel)⟩⟩
/-- What a resuming CRJOB that reads its cursor goes on in. -/
def k3 (cursor : List (Nat × Byte)) : State := (k2 cursor).loadNow (roundOf (k2 cursor)) (pasAt 0x30000 64)
def t1 : State := after (jb st) jr 0x400 128
def t2 : State := after t1 (roundOf t1) 0x1000 512
def t3 : State := after t2 (roundOf t2) 0x1000 512
theorem recs : recordOf (t2.bytesOf (pasAt (BitVec.toNat (0x1000 : Word)) 512)) = recT := (by decide +kernel)
theorem recs2 : recordOf (t3.bytesOf (pasAt (BitVec.toNat (0x1000 : Word)) 512)) = recT := (by decide +kernel)
theorem tensor_at : JobAt (jb st) jr (r0.passing p7) 0x400 tJob (tensorPlan tJob recT recT 0) t3 (roundOf t3) :=
  ⟨(by decide +kernel), (by decide +kernel), (by decide +kernel), (by decide +kernel), _, _, _, loads_at (a := 0x400) (by decide +kernel) rfl rfl rfl (by decide +kernel) (by decide +kernel) (by decide +kernel), (by decide +kernel),
    fun _ => ⟨_, _, _, _, loads_at (a := 0x1000) (by decide +kernel) rfl rfl rfl (by decide +kernel) (by decide +kernel) (by decide +kernel), loads_at (a := 0x1000) (by decide +kernel) rfl rfl rfl (by decide +kernel) (by decide +kernel) (by decide +kernel),
      by
        show planOrReason _ _ _ _ (recordOf (t2.bytesOf (pasAt (BitVec.toNat (0x1000 : Word)) 512)))
          (recordOf (t3.bytesOf (pasAt (BitVec.toNat (0x1000 : Word)) 512))) _ = _
        rw [recs, recs2]; decide +kernel⟩, fun h => absurd (by decide +kernel) h⟩

theorem witness_JobsComplete (h : Obligations.JobsComplete) :
    (∃ t, Completes (.coll (fR 0 6 1537 1672 1672 2)) sc t) ∧ (∃ t, Completes (.crjob (fR 0 6 1537 1672 1672 0)) (sk []) t)
    ∧ (∃ t, Completes (.crjob (fR 0 6 1537 1672 1672 1)) (sk liveCursor) t)
    ∧ (∃ t, Completes (.crjob (fR 0 6 1537 1672 1672 1)) (sk doneCursor) t) ∧ (∃ t, Completes (.crplan (fR 0 6 1537 1672 1672 0)) st t)
    ∧ (∃ t, Completes (.crstat (fR 0 6 1537 1672 1672 0)) s0 t) ∧ (∃ t, Completes (.crwait (fR 0 1672 1537 1672 1672 0)) s0 t)
    ∧ (∃ t, Completes (.collw (fR 0 1672 1537 1672 1672 0)) s0 t) :=
  have job := fun cursor (f : RForm) hs hm => ((h (sk cursor) r0 f).1 hs hm).2.1 kvJob planOf1 (pas1 0x30000 64) (k2 cursor) (roundOf (k2 cursor))
  ⟨⟨_, ((h sc r0 (fR 0 6 1537 1672 1672 2)).1 (starts_of (by decide +kernel)) (by decide +kernel)).1 cDesc [0] 0 c2 (roundOf c2) (by decide +kernel) (by decide +kernel) coll_at (by decide +kernel) (fits_of (by decide +kernel))⟩,
   ⟨_, (job [] (fR 0 6 1537 1672 1672 0) (starts_of (by decide +kernel)) (by decide +kernel) (by decide +kernel) (by decide +kernel) (job_at [] (.inl rfl)) (by decide +kernel)).1 rfl (by decide +kernel) (fits_of (by decide +kernel))⟩,
   ⟨_, ((job liveCursor (fR 0 6 1537 1672 1672 1) (starts_of (by decide +kernel)) (by decide +kernel) (by decide +kernel) (by decide +kernel) (job_at liveCursor (.inr (.inl rfl))) (by decide +kernel)).2 (roundOf (k3 liveCursor)) rfl (by decide +kernel)
      (cleanLanes_of rfl) (issuing_of (s := k3 liveCursor) (by decide +kernel)) (by decide +kernel)).2 (by decide +kernel) (by decide +kernel) (fits_of (by decide +kernel))⟩,
   ⟨_, ((job doneCursor (fR 0 6 1537 1672 1672 1) (starts_of (by decide +kernel)) (by decide +kernel) (by decide +kernel) (by decide +kernel) (job_at doneCursor (.inr (.inr rfl))) (by decide +kernel)).2 (roundOf (k3 doneCursor)) rfl (by decide +kernel)
      (cleanLanes_of rfl) (issuing_of (s := k3 doneCursor) (by decide +kernel)) (by decide +kernel)).1 (by decide +kernel) (fits_of (by decide +kernel))⟩,
   ⟨_, ((h st r0 (fR 0 6 1537 1672 1672 0)).1 (starts_of (by decide +kernel)) (by decide +kernel)).2.2 tJob (tensorPlan tJob recT recT 0) t3 (roundOf t3) tensor_at (fits_of (by decide +kernel))⟩,
   ⟨_, (h s0 r0 (fR 0 6 1537 1672 1672 0)).2.1 (starts_of (by decide +kernel)) (fits_of (by decide +kernel))⟩,
   ⟨_, ((h s0 r0 (fR 0 1672 1537 1672 1672 0)).2.2 (starts_of (by decide +kernel))).1 (none_in (by decide +kernel)) (fits_of (by decide +kernel))⟩,
   ⟨_, ((h s0 r0 (fR 0 1672 1537 1672 1672 0)).2.2 (starts_of (by decide +kernel))).2 (none_in (by decide +kernel)) (fits_of (by decide +kernel))⟩⟩

/-! ### Witnesses: the system instructions -/

def parked1 : Park := { service := false, trap := { cause := 0x20, index := 0, h := 16, info0 := 0, info1 := 0, info2 := 0, mask := 1 }
                        die := 0, pages := [], asked := [], canStep := true, resume := 0 }
def parkedS : Park := { parked1 with service := true, pages := [0x80000], asked := [0x80000], canStep := false }
def rPark : Round := { r0 with rix := 1, handle := 64, status := .parked parked1 }
/-- A second round, whose handle is 64, is parked; service request 0x8000 stands; an entry waits for the trap queue. -/
def sSys : State := { s0 with
  rounds := [r0, rPark]
  services := [{ handle := 0x8000, part := 0, work := .member 0 7, addr := 0x80000 }]
  parts := [{ demoPart with queue := [[[0, 0, 0, 0, 0, 0, 0, 0]]] }] }
/-- The second round waits for a page that it has asked for, and a third for the same page. -/
def sAsked : State := { s0 with
  rounds := [r0, { rPark with status := .parked parkedS }, { rPark with rix := 2, handle := 65, status := .parked { parkedS with asked := [] } }] }
theorem rangeAt_of {s : State} {r : Round} {w : Bool} {a : Word} {n : Nat}
    (h : (pagesOf a n).all (fun p => match s.xlat r w p with | .ok _ => true | _ => false) = true) : RangeAt s r w a n := by
  intro p hp
  have := List.all_eq_true.1 h p hp
  split at this
  · exact ⟨_, by assumption⟩
  · simp at this

/-- Where a round reads a range, and that it goes on. -/
def rangePas (s : State) (r : Round) (a : Word) (n : Nat) : List Nat :=
  (List.range n).map (fun i => match s.xlat r false (a + BitVec.ofNat 64 i) with | .ok pa => pa | _ => 0)
def ranged (s : State) (r : Round) (a : Word) (n : Nat) : State := s.loadNow r (rangePas s r a n)
theorem range_read {s : State} {r : Round} {m : Mask} {a : Word} {n : Nat}
    (h : (pagesOf a n).all (fun p => match s.xlat r false p with | .ok _ => true | _ => false) = true) (hl : s.lasting = [])
    (hi : (ranged s r a n).issuing.isSome = true) :
    RangeRead s r m a n (ranged s r a n) (roundOf (ranged s r a n)) ((ranged s r a n).bytesOf (rangePas s r a n)) :=
  ⟨_, rangeAt_of h, rfl, cleanLanes_of hl, rfl, issuing_of hi, rfl⟩

/-- A team saved by CTXSV as context 1 of 128 bytes, whose bytes stand at 0x400, and its node with handle 64 (R327). -/
def sCtx0 : State := { sgr true with
  teams := [demoTeam, { demoTeam with gang := 1, status := .unloaded }]
  rounds := [r0, { r0 with team := 1, handle := 64 }]
  nodes := [nodeG 64 .running true] }
def ctx : SavedContext := sCtx0.contextOf 1 1 128
def sCtx : State := { sCtx0 with contexts := [ctx], mem := Memory.writeList demoTable 0x400 (contextImage ctx) }
/-- The same once the team runs again, so that its context is copied. -/
def sCtx2 : State := { sCtx with teams := [demoTeam, { demoTeam with gang := 1 }] }

/-- The state and the round in which CTXLD reads a context, and what follows. -/
def xs3 : List Field := [(1536, false), (1537, false), (1672, false)]
def x0 (s : State) : State := s.begun r0 p7 xs3
def x1 (s : State) : State := ranged (x0 s) (r0.noted p7 xs3) 0x400 128
def ctxHead (s : State) : List Byte := (x1 s).bytesOf (rangePas (x0 s) (r0.noted p7 xs3) 0x400 128)
def ctxLen (s : State) : Nat := max 128 (bytesAt (ctxHead s) 4 4)
def x2 (s : State) : State := ranged (x1 s) (roundOf (x1 s)) 0x400 (ctxLen s)

theorem witness_SystemCompletes (h : Obligations.SystemCompletes) :
    (∃ t, Completes (.wrsr (fI 1672 1538 0 0x103)) sSys t)
    ∧ (∃ t, Completes (.tlbi { fR 0 1672 1536 1672 1672 0 with g := noLane }) sSys t)
    ∧ (∃ t, Completes (.tlbi (fR 0 1672 1536 1672 1672 0)) sSys t) ∧ (∃ t, Completes (.tlbi (fR 0 1672 1536 1538 1672 0)) sSys t)
    ∧ (∃ t, Completes (.rtabw (fR 0 1672 1672 1672 1672 0)) sSys t) ∧ (∃ t, Completes (.halt (fR 0 1672 1672 1672 1672 0)) sSys t)
    ∧ (∃ t, Completes (.diag (fR 0 1672 1544 1672 1672 0)) sSys t) := by
  have e := fun f (hs : startsB sSys r0 [(f.a, false), (f.b, false), (f.c, false)] [] = true) =>
    (h sSys r0 (fI 0 0 0 0) f).2.1 (starts_of hs)
  exact ⟨⟨_, (h sSys r0 (fI 1672 1538 0 0x103) (fR 0 0 0 0 0 0)).1 _ (starts_of (by decide +kernel)) (by decide +kernel) (some_of s0 (by decide +kernel)) (fits_of (by decide +kernel))⟩,
    ⟨_, (e { fR 0 1672 1536 1672 1672 0 with g := noLane } (by decide +kernel)).1.1 (by decide +kernel) (fits_of (by decide +kernel))⟩,
    ⟨_, (e (fR 0 1672 1536 1672 1672 0) (by decide +kernel)).1.2 (by decide +kernel) (.inl (by decide +kernel)) (fits_of (by decide +kernel))⟩, ⟨_, (e (fR 0 1672 1536 1538 1672 0) (by decide +kernel)).1.2 (by decide +kernel) (.inr (by decide +kernel)) (fits_of (by decide +kernel))⟩,
    ⟨_, ((e (fR 0 1672 1672 1672 1672 0) (by decide +kernel)).2 (by decide +kernel)).2.2.1 (by decide +kernel) (by decide +kernel) (by decide +kernel) (fits_of (by decide +kernel))⟩,
    ⟨_, ((e (fR 0 1672 1672 1672 1672 0) (by decide +kernel)).2 (by decide +kernel)).2.2.2.1 (.inr (by decide +kernel)) (fits_of (by decide +kernel))⟩,
    ⟨_, ((e (fR 0 1672 1544 1672 1672 0) (by decide +kernel)).2 (by decide +kernel)).2.2.2.2 (by decide +kernel) (by decide +kernel) (by decide +kernel) (by decide +kernel) (fits_of (by decide +kernel))⟩⟩

/-- Register 10 holds the action 4. -/
def rFour : Round := { r0 with s := r0.s.set 10 4 }

def sRefuse : State := { sAsked with rounds := rFour :: sAsked.rounds.drop 1 }
def rAsked : Round := { rPark with status := .parked parkedS }

/-- ERET: each action on a parked round, and action 0 on a service handle. -/
theorem witness_SystemCompletes_answers (h : Obligations.SystemCompletes) :
    (∃ t, Completes (.eret (fR 0 1672 1536 1672 1672 0)) sSys t) ∧ (∃ t, Completes (.eret (fR 0 1672 1536 1538 1672 0)) sSys t)
    ∧ (∃ t, Completes (.eret (fR 0 1672 1536 1540 1672 0)) sSys t) ∧ (∃ t, Completes (.eret (fR 0 1672 1536 1542 1672 0)) sSys t)
    ∧ (∃ t, Completes (.eret (fR 0 1672 1536 1672 1672 0)) sAsked t) ∧ (∃ t, Completes (.eret (fR 0 1672 1536 1546 1672 0)) sRefuse t)
    ∧ (∃ t, Completes (.eret (fR 0 1672 1543 1672 1672 0)) sSys t) := by
  have e := fun s r f hm (hs : startsB s r [(f.a, false), (f.b, false), (f.c, false)] [] = true) =>
    ((h s r (fI 0 0 0 0) f).2.1 (starts_of hs)).2 hm
  exact ⟨⟨_, (e sSys r0 (fR 0 1672 1536 1672 1672 0) (by decide +kernel) (by decide +kernel)).1 1 rPark parked1 _ (by decide +kernel) (by decide +kernel) (.inl ⟨(by decide +kernel), rfl⟩) (fits_of (by decide +kernel))⟩,
    ⟨_, (e sSys r0 (fR 0 1672 1536 1538 1672 0) (by decide +kernel) (by decide +kernel)).1 1 rPark parked1 _ (by decide +kernel) (by decide +kernel) (.inr (.inl ⟨(by decide +kernel), rfl, rfl, rfl⟩)) (fits_of (by decide +kernel))⟩,
    ⟨_, (e sSys r0 (fR 0 1672 1536 1540 1672 0) (by decide +kernel) (by decide +kernel)).1 1 rPark parked1 _ (by decide +kernel) (by decide +kernel) (.inr (.inr (.inl ⟨(by decide +kernel), rfl⟩))) (fits_of (by decide +kernel))⟩,
    ⟨_, (e sSys r0 (fR 0 1672 1536 1542 1672 0) (by decide +kernel) (by decide +kernel)).1 1 rPark parked1 _ (by decide +kernel) (by decide +kernel) (.inr (.inr (.inr (.inl ⟨(by decide +kernel), rfl⟩)))) (fits_of (by decide +kernel))⟩,
    ⟨_, (e sAsked r0 (fR 0 1672 1536 1672 1672 0) (by decide +kernel) (by decide +kernel)).1 1 rAsked parkedS _ (by decide +kernel) (by decide +kernel) (.inl ⟨(by decide +kernel), rfl⟩) (fits_of (by decide +kernel))⟩,
    ⟨_, (e sRefuse rFour (fR 0 1672 1536 1546 1672 0) (by decide +kernel) (by decide +kernel)).1 1 rAsked parkedS _ (by decide +kernel) (by decide +kernel) (.inr (.inr (.inr (.inr ⟨(by decide +kernel), rfl, rfl⟩)))) (fits_of (by decide +kernel))⟩,
    ⟨_, (e sSys r0 (fR 0 1672 1543 1672 1672 0) (by decide +kernel) (by decide +kernel)).2.1 { handle := 0x8000, part := 0, work := .member 0 7, addr := 0x80000 } (by decide +kernel) (by decide +kernel) (.inl (by decide +kernel)) (by decide +kernel) (fits_of (by decide +kernel))⟩⟩

/-- CTXLD of a team and of a copy; CTXSV. -/
theorem witness_SystemCompletes_contexts (h : Obligations.SystemCompletes) :
    (∃ t, Completes (.ctxld (fR 0 1672 1536 1537 1672 0)) sCtx t) ∧ (∃ t, Completes (.ctxld (fR 0 1672 1536 1537 1672 0)) sCtx2 t)
    ∧ (∃ t, Completes (.ctxsv (fR 0 6 1536 1541 1672 0)) sCtx t) := by
  have ld := fun s (hs : startsB s r0 xs3 [] = true) hm => ((h s r0 (fI 0 0 0 0) (fR 0 1672 1536 1537 1672 0)).2.2 hm).1 0
    (nodeG 64 .running true) ctx (x1 s) (roundOf (x1 s)) (x2 s) (roundOf (x2 s)) (ctxHead s) ((x2 s).bytesOf (rangePas (x1 s) (roundOf (x1 s)) 0x400 (ctxLen s)))
  exact ⟨⟨_, ld sCtx (by decide +kernel) (by decide +kernel) (x2 sCtx) 1 (starts_of (by decide +kernel)) (by decide +kernel) rfl rfl rfl (range_read (a := 0x400) (by decide +kernel) rfl (by decide +kernel)) (range_read (a := 0x400) (n := ctxLen sCtx) (by decide +kernel) (by decide +kernel) (by decide +kernel)) (by decide +kernel)
      (fun _ => ⟨rfl, rfl⟩) (fun hn => absurd ⟨(by decide +kernel), (by decide +kernel)⟩ hn) (fits_of (by decide +kernel))⟩,
    ⟨_, ld sCtx2 (by decide +kernel) (by decide +kernel) ((x2 sCtx2).copyContext ctx).1 2 (starts_of (by decide +kernel)) (by decide +kernel) rfl rfl rfl (range_read (a := 0x400) (by decide +kernel) rfl (by decide +kernel))
      (range_read (a := 0x400) (n := ctxLen sCtx2) (by decide +kernel) (by decide +kernel) (by decide +kernel)) (by decide +kernel) (fun ha => absurd ha.2 (by decide +kernel)) (fun _ => (by decide +kernel)) (fits_of (by decide +kernel))⟩,
    ⟨_, ((h sCtx r0 (fI 0 0 0 0) (fR 0 6 1536 1541 1672 0)).2.2 (by decide +kernel)).2 1 { r0 with team := 1, handle := 64 } (starts_of (by decide +kernel)) (by decide +kernel) rfl (by decide +kernel) (rangeAt_of (by decide +kernel)) (.inr rfl) (fits_of (by decide +kernel))⟩⟩

/-! ### Witnesses: events -/

def headW : Word := 0xFC00000000000000
def rF (pc : Word) : Round := { r0 with clause := none, pc := pc, cur := 0xFFFF }
def rS (ws : List Word) : Round := { rF 0x1000 with fetched := some (0x1000, ws) }
def pointKernel : Kernel := { demoKernel with points := [{ addr := 0, p := 0, vranges := [], s := 0, acc := 0, lay := 0, walk := 0, z := 0 }] }
def teamP : Team := { demoTeam with node := some 0, kernel := pointKernel }
def withRound (r : Round) : State := { sgr true with rounds := [r], teams := [teamP], nodes := [{ nodeG 64 .running true with kernel := pointKernel }] }
def rStop (st : Status) (pc : Word) : Round := { rF pc with status := st, stopReq := some 0 }
def rDog : Round := { rF 0x2000 with stopReq := some 65536 }
def rEnd : Round := { rF 0x2000 with status := .ending, live := 0, cur := 0 }
def rRows : Round := { rF 0x2000 with status := .waiting (.rows 0 100000) }
def sSave : State := { withRound { rF 0x2000 with status := .stopped (.listed 0) } with teams := [{ teamP with status := .saving false }] }
def rSleep : Round := { rF 0x2000 with status := .waiting .sleep, sleep := 0 }

theorem witness_RoundEvents (h : Obligations.RoundEvents) :
    (∃ t, Completes (.clauseFetch 0) (demoState (rF 0x1000)) t) ∧ (∃ t, Completes (.clauseFetch 0) (demoState (rF 0x2000)) t)
    ∧ (∃ t, Completes (.clauseSelect 0 0 1) (demoState (rS [headW, addWord])) t)
    ∧ (∃ t, Completes (.clauseSelect 0 0 1) (demoState (rS [headW, badOpcode])) t)
    ∧ (∃ t, Completes (.sleepExpire 0) (demoState rSleep) t) ∧ (∃ t, Completes (.roundStop 0) (withRound (rStop (.waiting .semaphore) 0x2000)) t)
    ∧ (∃ t, Completes (.roundStop 0) (withRound (rStop .ready 0)) t) ∧ (∃ t, Completes (.watchdog 0) (withRound rDog) t)
    ∧ (∃ t, Completes (.contextSave 0) sSave t) ∧ (∃ t, Completes (.spill 0) (demoState rRows) t)
    ∧ (∃ t, Completes (.roundEnd 0) (demoState rEnd) t) := by
  have fetch := fun r => (h (demoState r) 0 r rfl).1
  have select := fun r => (h (demoState r) 0 r rfl).2.1 0 0 1 r
  have stop := fun r => (h (withRound r) 0 r rfl).2.2.2
  exact ⟨⟨_, (fetch (rF 0x1000) headW (fun _ => headW) (by decide +kernel) (by decide +kernel)).1 (by decide +kernel) (fun i hi => by
      obtain rfl : i = 0 := Nat.le_zero.1 (Nat.le_trans hi (show _ ≤ 0 from (by decide +kernel)))
      decide +kernel)⟩,
   ⟨_, (fetch (rF 0x2000) 0 (fun _ => 0) (by decide +kernel) (by decide +kernel)).2 (by decide +kernel)⟩,
   ⟨_, (select (rS [headW, addWord]) [headW, addWord] (by decide +kernel) rfl).1 (by decide +kernel)⟩,
   ⟨_, (select (rS [headW, badOpcode]) [headW, badOpcode] (by decide +kernel) rfl).2 { cause := 1, index := 1, bit := 54, header := false } (by decide +kernel)⟩,
   ⟨_, (h (demoState rSleep) 0 rSleep rfl).2.2.1 rfl rfl⟩,
   ⟨_, ((stop (rStop (.waiting .semaphore) 0x2000)).1 (by decide +kernel)).1 .semaphore rfl rfl⟩,
   ⟨_, ((stop (rStop .ready 0)).1 (by decide +kernel)).2 0 rfl (by decide +kernel)⟩,
   ⟨_, (stop rDog).2.1 65536 rfl (by decide +kernel) rfl rfl⟩,
   ⟨_, (h sSave 0 { rF 0x2000 with status := .stopped (.listed 0) } rfl).2.2.2.2.2.1 0 false (by decide +kernel) (by decide +kernel)⟩,
   ⟨_, (h (demoState rRows) 0 rRows rfl).2.2.2.2.2.2.1 rRows (by decide +kernel) (fun m q hm _ _ => by
      match m, hm with
      | 0, hm => exact ⟨(Option.some.inj hm) ▸ (by decide +kernel), fun hn => absurd rfl hn⟩) (by decide +kernel) (by decide +kernel)⟩,
   ⟨_, (h (demoState rEnd) 0 rEnd rfl).2.2.2.2.2.2.2 _ rfl rfl rfl rfl rfl rfl (by decide +kernel) (by decide +kernel) (by decide +kernel) (by decide +kernel) (by decide +kernel)⟩⟩

def entry1 : StoreEntry :=
  { id := 3, round := 0, core := 0, bytes := [(0x2000, 7), (0x2001, 8)], chunk := 1, loose := [], left := [], shown := [], released := false, entered := 0, seen := [] }
def sStore : State := { s0 with stores := [entry1] }
def waitQueue : Partition := { demoPart with queue := [[[1, 2, 3, 4, 5, 6, 7, 8]]] }
def hw : HostWrite := { round := 0, part := 0, addr := 0x40, data := [1] }

/-- The HBM channels of die 0 are not ready yet (R338). -/
def sDark : State := { s0 with package := { demoPackage with ready := (List.range 17).map (fun w => (w, if w = 6 then 0 else BitVec.allOnes 64)) } }
theorem dark {s : State} {pa : Nat} (hs : s.package = sDark.package) (h : pa < 2 ^ 33) : s.channelReady pa = false := by
  have h0 : homeDie pa = 0 := Nat.div_eq_of_lt (by omega)
  have h1 : SMap.get sDark.package.ready 0 6 = 0 := (by decide +kernel)
  have h2 : mapped pa = true := by
    unfold mapped
    rw [Nat.div_eq_of_lt (by omega), Nat.mod_eq_of_lt (by omega)]
    simp; omega
  unfold State.channelReady State.isReady
  rw [hs, h0, h1, h2]
  simp
theorem dark_inbox : sDark.inboxPlaces demoPart 65535 1 = .held := by
  have h1 : sDark.channelReady (demoPart.ptroot.toNat + 8 * ((demoPart.inbox + 65535).toNat / 2 ^ 46 % 2 ^ 11)) = false := dark rfl (by decide +kernel)
  have h2 : walk sDark demoPart (demoPart.inbox + 65535) = .held := by
    unfold walk tableLevels walkFrom
    simp only [h1]
    rfl
  have h3 : translateWalk sDark demoPart { write := true, fetch := false, user := false } (demoPart.inbox + BitVec.ofNat 64 (65535 + 0)) = .held := by
    unfold translateWalk
    rw [show demoPart.inbox + BitVec.ofNat 64 (65535 + 0) = demoPart.inbox + 65535 from rfl, h2]
    rfl
  unfold State.inboxPlaces
  simp only [List.range_one, List.map_cons, List.map_nil, h3]
  rfl
theorem dark_move {s : State} (hs : s.package = sDark.package) : s.moveReady (0x2000, 2 ^ 31, 16) = false := by
  unfold State.moveReady
  rw [List.all_eq_false]
  exact ⟨0, (by decide +kernel), by rw [dark hs (by decide +kernel)]; exact Bool.false_ne_true⟩

theorem witness_MemoryEvents (h : Obligations.MemoryEvents) :
    (∃ t, Completes (.storeBufferDrain ⟨3, none⟩) sStore t) ∧ (∃ t, Completes (.storeBufferTimeout 3) sStore t)
    ∧ exec (.storeBufferTimeout 3) { sStore with now := 2 ^ 30 } = exec (.storeBufferDrain ⟨3, none⟩) { sStore with now := 2 ^ 30 }
    ∧ (∃ t, Completes (.storeBufferDrain ⟨3, some [0x2001]⟩) sStore t)
    ∧ (∃ t, Completes (.storeAck 0 false) s0 t) ∧ (∃ t, Completes (.storeAck 0 true) s0 t)
    ∧ (∃ t, Completes (.translationWalkComplete 0 0 0x2000) s0 t)
    ∧ (∃ t, Completes (.trapQueueEntryWrite 0) { s0 with parts := [waitQueue] } t)
    ∧ (∃ t, Completes (.hostLinkWriteIssue 0) { s0 with hostq := [hw] } t) ∧ (∃ t, Completes (.hostWindowWrite 0 4095 7) s0 t)
    ∧ (∃ t, Completes (.inboxSlotWrite 0 65535 [9]) s0 t) ∧ (∃ t, Completes (.inboxSlotWrite 0 65535 [9]) sDark t)
    ∧ (∃ t, Completes (.inboxProdWrite 0 1) s0 t)
    ∧ ∀ e : HbmError, ∃ t, step { s0 with agenda := [.hbm 7 e] } = .next t := by
  obtain ⟨h1, h2, h3, h4, h5, h6, h7, h8⟩ := h
  exact ⟨((h1 sStore [] [] entry1 rfl (none_in rfl)).1 (none_in rfl)).1.imp (fun _ x => x.1),
   ⟨_, ((h1 sStore [] [] entry1 rfl (none_in rfl)).1 (none_in rfl)).2.2 (by decide +kernel)⟩,
   ((h1 { sStore with now := 2 ^ 30 } [] [] entry1 rfl (none_in rfl)).1 (none_in rfl)).2.1 (by decide +kernel),
   ((h1 sStore [] [] entry1 rfl (none_in rfl)).2 [0x2001] ⟨_, List.mem_cons_self, (by decide +kernel)⟩ (none_in rfl)).imp (fun _ x => x.1),
   ⟨_, (h2 s0 0 r0 rfl).1⟩, ⟨_, (h2 s0 0 r0 rfl).2⟩,
   ⟨_, h3 s0 demoPart 0 0x2000 { size := 2 ^ 33, pa := 0, u := true, x := true, w := true } rfl (by decide +kernel) (by decide +kernel)⟩,
   ⟨_, h4 { s0 with parts := [waitQueue] } waitQueue [[1, 2, 3, 4, 5, 6, 7, 8]] [] (pasAt 0x200000 64) rfl rfl (by decide +kernel) (by decide +kernel)⟩,
   ⟨_, h5 { s0 with hostq := [hw] } hw rfl (by decide +kernel)⟩, ⟨_, h6 s0 demoPart 4095 7 rfl (by decide +kernel)⟩,
   ⟨_, ((h7 s0 demoPart 65535 [9] 1 _ rfl (by decide +kernel) (by decide +kernel) (by decide +kernel)).1 (by decide +kernel) (by decide +kernel)).1 (gather_of (by decide +kernel))⟩,
   ⟨_, ((h7 sDark demoPart 65535 [9] 1 [] rfl (by decide +kernel) (by decide +kernel) (by decide +kernel)).1 (by decide +kernel) (by decide +kernel)).2 dark_inbox⟩,
   ⟨_, (h7 s0 demoPart 65535 [9] 1 _ rfl (by decide +kernel) (by decide +kernel) (by decide +kernel)).2 (gather_of (by decide +kernel))⟩,
   fun e => (h8 { s0 with agenda := [.hbm 7 e] } 7 e [] rfl (by decide +kernel) (show homeDie (32 * 7) < s0.dies.length from (by decide +kernel))).imp (fun _ x => x.1)⟩

def sNode (x : Node) : State := { sgr true with nodes := [x], teams := [{ demoTeam with node := some 0, status := .ended }] }
def copyMember : Member := { id := 7, work := .copy 0 0x1000 0 0x2000 2, moved := [], service := none, read := [] }
def copyNode : Node := { nodeG 64 .running false with
  record := { recG false with kind := 1 }, work := some copyMember }
def jobN (st : JobState) (node : Option Nat) : CourierJob :=
  { id := 9, round := none, node := node, num := 1, part := 0, die := 0, jobid := 1, table := 0, cursor := 0x30000, plan := blockPlan kvJob [(0, 0, 1)]
    done := [], read := [], wrote := [], committed := 0, bytes := 0, segs := 0, state := st, cause := 0, faddr := 0, failed := false, resume := false, reported := false }
def courierNode (p : Nat) (st : NodeState) : Node := { nodeG (64 + p) st false with record := { recG false with kind := 2, priority := p } }
def sUrgent : State := { sgr true with
  nodes := [courierNode 0 .running, courierNode 6 .ready]
  jobs := jobN .running (some 0) :: List.replicate 63 (jobN .running none) }
def rBack : Round := { rF 0x2000 with status := .stopped .spilled }
def readyNode : Node := nodeG 64 .ready true
def sReady : State := { sgr true with nodes := [readyNode] }

def kind3 : Node := { nodeG 64 .running false with record := { recG false with kind := 3 } }
def courierDone : Node := courierNode 0 .running
def coll1 (st : JobState) : Coll :=
  { id := 9, round := 0, num := 1, part := 0, die := 0, rank := 0, kind := 2, bfp4 := false, collid := 1, etype := 1, table := 0, ranks := [0]
    entries := [0x8000000000010005], owed := [], src := 0x10000, dst := 0x20000, count := 1, root := 0, state := st, desc := 0x400, cause := 0, addr := 0, remote := 0, tcause := 0
    read := [], out := none, reported := false }

/-- A standing node that has been told to go. -/
def goneNode : Node := { nodeG 64 .waiting true with standing := false }

theorem witness_OfficeEvents_nodes (h : Obligations.OfficeEvents) :
    (∃ t, Completes (.sortingOfficeAdmit 0) (demoState rBack) t) ∧ (∃ t, Completes (.sortingOfficeAdmit 0) { sReady with nodes := [goneNode] } t)
    ∧ (∃ t, Completes (.sortingOfficeAdmit 0) sReady t)
    ∧ (∃ t, Completes (.nodeComplete 0) (sNode (nodeG 64 .running true)) t) ∧ (∃ t, Completes (.nodeComplete 0) (sNode copyNode) t)
    ∧ (∃ t, Completes (.nodeComplete 0) { sNode courierDone with jobs := [jobN .complete (some 0)] } t)
    ∧ (∃ t, Completes (.nodeComplete 0) (sNode kind3) t) ∧ (∃ t, Completes (.courierNodeStop 0) sUrgent t) := by
  obtain ⟨h1, h2, _, h4, _⟩ := h
  exact ⟨⟨_, (h1 (demoState rBack) 0).1 0 rBack (by decide +kernel)⟩, ⟨_, ((h1 { sReady with nodes := [goneNode] } 0).2 (by decide +kernel)).1 0 goneNode (by decide +kernel)⟩,
   ⟨_, ((h1 sReady 0).2 (by decide +kernel)).2 0 readyNode [] _ (by decide +kernel) (by decide +kernel) rfl rfl rfl rfl (by decide +kernel) (some_of [] (by decide +kernel))⟩,
   ⟨_, (h2 (sNode (nodeG 64 .running true)) 0 _ rfl rfl).1 rfl (by decide +kernel)⟩,
   ⟨_, (h2 (sNode copyNode) 0 copyNode rfl rfl).2.1 copyMember _ _ _ rfl rfl rfl rfl rfl (fun h => absurd h (by decide +kernel)) (moved_of (by decide +kernel))⟩,
   ⟨_, (h2 { sNode courierDone with jobs := [jobN .complete (some 0)] } 0 courierDone rfl rfl).2.2.1 _ rfl rfl rfl rfl⟩,
   ⟨_, (h2 (sNode kind3) 0 kind3 rfl rfl).2.2.2 rfl⟩,
   ⟨_, h4 sUrgent 0 1 (courierNode 0 .running) (courierNode 6 .ready) [] rfl (by decide +kernel) rfl (by decide +kernel) (by decide +kernel) rfl (by decide +kernel)
      ⟨jobN .running (some 0), List.mem_cons_self, rfl, .inr rfl, rfl⟩ (fun k z hk hz _ _ ⟨j, hj, hn, _⟩ => by
        exfalso
        rcases List.mem_cons.1 hj with rfl | hj
        · exact hk (Option.some.inj hn).symm
        · rw [List.eq_of_mem_replicate hj] at hn; exact absurd hn (by simp [jobN]))⟩⟩

def sJob (st : JobState) : State := { s0 with jobs := [jobN st none] }
def sColl (st : JobState) : State := { s0 with colls := [coll1 st] }

def eColl : State := ((sColl .running).peers (coll1 .running) []).foldl
  (fun e p => match p.1 with | .here _ x => e.readyColl x (x.unread p.2) | _ => e) (sColl .running)
theorem one_peer {s : State} {p : Peer × Nat} (hs : s.peers (coll1 .running) [] = [(Peer.here 0 (coll1 .running), 0)])
    (hp : p ∈ s.peers (coll1 .running) []) : p = (.here 0 (coll1 .running), 0) := List.mem_singleton.1 (hs ▸ hp)
theorem collHere : ∀ p ∈ (sColl .running).peers (coll1 .running) [], ∃ i x, p.1 = .here i x := by
  intro p hp
  obtain rfl := one_peer rfl hp
  exact ⟨0, _, rfl⟩
theorem collGot : ∀ p ∈ eColl.peers (coll1 .running) [], ∃ i x, p.1 = .here i x
    ∧ eColl.collSource x p.2 = .ok ([0, 0, 0, 0] : List Byte) ∧ eColl.collDest x p.2 = .ok (pasAt 0x20000 4) := by
  intro p hp
  obtain rfl := one_peer rfl hp
  exact ⟨0, _, rfl, rfl, rfl⟩
/-- The collective with a byte of its result still to write. -/
def collOut : Coll := { coll1 .running with out := some [(0x20000, 7)] }

/-- A job that goes on from its cursor record, which stands at its only segment. -/
def sResume : State := { sk [(0x30000, 1), (0x30004, 1)] with jobs := [{ jobN .waiting none with resume := true }] }

theorem witness_OfficeEvents_jobs (h : Obligations.OfficeEvents) :
    (∃ t, Completes (.courierJobStart 0) (sJob .waiting) t) ∧ (∃ t, Completes (.courierJobStart 0) sResume t)
    ∧ (∃ t, Completes (.courierSegmentComplete 0 0 .none) (sJob .running) t)
    ∧ (∃ t, Completes (.collectiveStart 0) (sColl .waiting) t) ∧ (∃ t, Completes (.collectiveComplete 0 []) (sColl .running) t)
    ∧ (∃ t, Completes (.collectiveComplete 0 []) { s0 with colls := [collOut] } t) := by
  obtain ⟨_, _, h3, _, h5⟩ := h
  have start := fun s hj => (h3 s 0 (s.jobs.headD (jobN .waiting none)) hj).1
  exact ⟨⟨_, (start (sJob .waiting) rfl rfl (by decide +kernel) (by decide +kernel) (by decide +kernel)).1 rfl⟩,
   ((start sResume rfl rfl (by decide +kernel) (by decide +kernel) (by decide +kernel)).2 _ _ rfl (gather_of (by decide +kernel)) (gather_of (by decide +kernel)) (by decide +kernel) (.inl (by decide +kernel)) ⟨_, List.mem_cons_self, (by decide +kernel), (by decide +kernel)⟩).imp (fun _ h => h.1)
     |>.elim fun _ h => ⟨_, h⟩,
   ⟨_, (h3 (sJob .running) 0 (jobN .running none) rfl).2 0 _ .none _ _ (jobN .running none) (.inl rfl) rfl (by decide +kernel) (by decide +kernel) (none_in (by decide +kernel))
      (.inr ⟨rfl, rfl, (by decide +kernel)⟩) (.inr (by decide +kernel)) rfl (gather_of (by decide +kernel)) (gather_of (by decide +kernel)) (by decide +kernel)⟩,
   ⟨_, (h5 (sColl .waiting) 0 (coll1 .waiting) rfl).1 rfl (by decide +kernel) (by decide +kernel)⟩,
   ⟨_, (h5 (sColl .running) 0 (coll1 .running) rfl).2.1 (fun _ => [0, 0, 0, 0]) (fun _ => pasAt 0x20000 4) rfl rfl (by decide +kernel) (none_in (by decide +kernel)) collHere collGot⟩,
   ⟨_, (h5 { s0 with colls := [collOut] } 0 collOut rfl).2.2 _ rfl rfl⟩⟩

/-! ### Witnesses: the fabric's and the package's events, frames and invariants -/

def pkt (body : PacketBody) (dst : Nat) : Packet :=
  { id := 3, srcPkg := 5, srcDie := 0, srcRound := 0, dstPkg := dst, dstDie := 0, job := 0, rankWord := 0, body := body, sent := 0 }
def flight (p : Packet) (st : FlightState) : Flight :=
  { key := 3, packet := p, state := st, counted := true, range := 0, lastSent := 0, ports := 0xFFFF, lane := 0, todo := [], got := [] }
def storeP : Packet := pkt (.store [(0x2000, 7)] 0 true) 5
/-- A store to a page that no table maps. -/
def lostP : Packet := pkt (.store [(2 ^ 40, 7)] 0 true) 5
def readP (dst : Nat) : Packet := pkt (.read 0x2000 8) dst
def flagP : Packet := pkt (.flag 0x2000 1 0 0) 5
/-- What package 4 sends here, and what it sends to package 6. -/
def fromP : Packet := { storeP with srcPkg := 4 }
def viaP : Packet := { pkt (.read 0 8) 6 with srcPkg := 4 }
def sFl (f : Flight) : State := { s0 with flights := [f] }
def line1 : WcLine :=
  { id := 4, round := 0, core := 0, rankWord := 0, entry := entry0, base := 0x2000, bytes := [(0x2000, 7)], first := 0, last := 0 }
def sLate (f : Flight) : State := { s0 with flights := [f], now := 2 ^ 30 }
/-- Die 0 holds a flag for too long. -/
def sHeld (p : Packet) : State := { s0 with
  now := 2 ^ 30
  dies := { Die.reset with part := some 0, held := [{ key := 3, packet := p }] } :: List.replicate 5 { Die.reset with part := some 0 } }
/-- What a packet finds at its target. -/
def reachPas (s : State) (p : Packet) : List Nat := match s.reach p with | .ok l => l | _ => []
def reachOk (s : State) (p : Packet) : Bool := match s.reach p with | .ok _ => true | _ => false
theorem reach_of {s : State} {p : Packet} (h : reachOk s p = true) : s.reach p = .ok (reachPas s p) := by
  unfold reachOk at h; unfold reachPas; split at h <;> simp_all

/-- A load that waits here for its reply, and one that has it; a second holder of a job's words. -/
def readF (st : FlightState) (dst : Nat) : Flight := { flight (readP dst) st with counted := false, lane := 0 }
/-- The flag's flight, and a flag that is this package's own. -/
def sFlag : State := sLate { flight flagP .sent with counted := false }
/-- Package 4 has been heard before: packet 3 applied on die 0. -/
def sHeard : State := { s0 with dies := { Die.reset with part := some 0, applied := [(4, 3, 0)] } :: List.replicate 5 { Die.reset with part := some 0 } }

theorem witness_FabricEvents_flights (h : Obligations.FabricEvents) :
    (∃ t, Completes .rotorPhase s0 t) ∧ (∃ t, Completes (.packetArrive (.queued 3 none)) (sFl (flight lostP .sent)) t)
    ∧ (∃ t, Completes (.packetArrive (.queued 3 none)) (sFl (flight storeP .sent)) t)
    ∧ (∃ t, Completes (.packetArrive (.queued 3 none)) (sLate (flight storeP .sent)) t)
    ∧ (((sFl (flight storeP .landing)).landUnit (flight storeP .landing) [(0, 0x2000)]).1.mem = Memory.writeCells s0.mem [(0x2000, 7)])
    ∧ (∃ t, Completes (.fabricAckArrive 3 .none) (sFl (flight storeP (.settled 0))) t)
    ∧ (∃ t, Completes (.fabricAckArrive 3 (.fail 0x61)) (sFl (flight (pkt (.store [(0x2000, 7)] 0 true) 6) .sent)) t)
    ∧ (((sFl (flight storeP (.settled 0))).answered (flight storeP (.settled 0)) 0 []).rounds[0]?
        = some { r0 with sysCtr := r0.sysCtr - 1 })
    ∧ (∃ x, ((sFl (flight storeP (.settled 0))).answered (flight storeP (.settled 0)) 0x61 []).rounds[0]? = some x ∧ x.kept.isSome = true)
    ∧ (∃ t, Completes (.remoteReplyArrive 0 []) (sFl (readF (.settled 0) 5)) t)
    ∧ (∃ t, Completes (.remoteReplyArrive 0 [{ lane := 0, cause := none, apply := false, data := [1] }]) (sFl (readF .sent 6)) t)
    ∧ (∃ t, Completes (.packetRetransmit 3) (sLate (flight storeP .sent)) t)
    ∧ (∃ t, Completes (.fabricTimeout 3) (sLate (flight (pkt (.store [] 0 true) 6) .sent)) t)
    ∧ (∃ t, Completes (.fabricTimeout 3) sFlag t) := by
  obtain ⟨h1, h2, h3, h4, h5, _⟩ := h
  have k2 := h2 (sFl (flight storeP .sent)) (flight storeP .sent) (by decide +kernel) rfl
  have k3 := h3 (sFl (flight storeP (.settled 0))) (flight storeP (.settled 0)) r0 (by decide +kernel) rfl
  refine ⟨⟨_, h1 s0⟩, ⟨_, ((h2 (sFl (flight lostP .sent)) (flight lostP .sent) (by decide +kernel) rfl).1 none rfl rfl (by decide +kernel) (by decide +kernel)).1 0x60 (by decide +kernel)⟩,
    ⟨_, (k2.1 none rfl rfl (by decide +kernel) (by decide +kernel)).2 _ (reach_of (by decide +kernel))⟩, ⟨_, (h2 (sLate (flight storeP .sent)) (flight storeP .sent) (by decide +kernel) rfl).2.1 rfl (by decide +kernel) none⟩,
    ?_, ⟨_, k3.1 0 .none rfl⟩,
    ⟨_, (h3 (sFl (flight (pkt (.store [(0x2000, 7)] 0 true) 6) .sent)) (flight (pkt (.store [(0x2000, 7)] 0 true) 6) .sent) r0 (by decide +kernel) rfl).2.1 0x61
      rfl (by decide +kernel) (by decide +kernel) (by decide +kernel) (by decide +kernel)⟩,
    (k3.2.2 [] rfl rfl rfl).1, ⟨_, (k3.2.2 [] rfl rfl rfl).2 0x61 (by decide +kernel) (by decide +kernel) rfl, rfl⟩,
    ⟨_, (h4 (sFl (readF (.settled 0) 5)) (readF (.settled 0) 5) [] (by decide +kernel)).1 0 rfl⟩,
    ⟨_, (h4 (sFl (readF .sent 6)) (readF .sent 6) [{ lane := 0, cause := none, apply := false, data := [1] }] (by decide +kernel)).2
      { lane := 0, cause := none, apply := false, data := [1] } rfl (by decide +kernel) (by decide +kernel) (by decide +kernel) rfl rfl⟩,
    ⟨_, (h5 (sLate (flight storeP .sent)) (flight storeP .sent) (by decide +kernel) (by decide +kernel) (by decide +kernel)).1 (by decide +kernel) (fun x hx _ => List.mem_singleton.1 hx)⟩,
    ⟨_, ((h5 (sLate (flight (pkt (.store [] 0 true) 6) .sent)) (flight (pkt (.store [] 0 true) 6) .sent) (by decide +kernel) (by decide +kernel) (by decide +kernel)).2 (by decide +kernel)).1 (by decide +kernel) rfl⟩,
    ⟨_, ((h5 sFlag { flight flagP .sent with counted := false } (by decide +kernel) (by decide +kernel) (by decide +kernel)).2 (by decide +kernel)).2 0x2000 1 0 0 rfl rfl (.inl rfl)⟩⟩
  have := (h2 (sFl (flight storeP .landing)) (flight storeP .landing) (by decide +kernel) rfl).2.2 [(0x2000, 7)] 0 true [(0, 0x2000)] rfl
  exact this.trans (by decide +kernel)

theorem witness_FabricEvents_flags (h : Obligations.FabricEvents) :
    (∃ t, Completes (.heldFlagDiscard (.queued 3 none)) (sHeld flagP) t)
    ∧ (∃ t, Completes (.heldFlagDiscard (.queued 3 none)) (sHeld { flagP with srcPkg := 4 }) t)
    ∧ (∃ t, Completes (.packetArrive (.outside fromP 4)) sHeard t) ∧ (∃ t, Completes (.packetArrive (.outside fromP 4)) s0 t)
    ∧ (∃ t, Completes (.packetArrive (.outside viaP 4)) s0 t) := by
  obtain ⟨_, _, _, _, _, h6, h7, _⟩ := h
  refine ⟨⟨_, (h6 (sHeld flagP) { key := 3, packet := flagP } 0 none (by decide +kernel) (by decide +kernel) (by decide +kernel) (by decide +kernel)).1 (by decide +kernel)⟩,
    ⟨_, (h6 (sHeld { flagP with srcPkg := 4 }) { key := 3, packet := { flagP with srcPkg := 4 } } 0 none (by decide +kernel) (by decide +kernel) (by decide +kernel) (by decide +kernel)).2 (by decide +kernel)⟩,
    ⟨_, ((h7 sHeard fromP 4 (by decide +kernel) (by decide +kernel) (by decide +kernel) (by decide +kernel)).1 rfl nofun nofun).1 (.inl (by decide +kernel))⟩, ?_,
    ⟨_, (h7 s0 viaP 4 (by decide +kernel) (by decide +kernel) (by decide +kernel) (by decide +kernel)).2 (by decide +kernel) rfl (by decide +kernel) (by decide +kernel)⟩⟩
  obtain ⟨f, _, _, _, h⟩ := ((h7 s0 fromP 4 (by decide +kernel) (by decide +kernel) (by decide +kernel) (by decide +kernel)).1 rfl nofun nofun).2 (by decide +kernel)
  exact ⟨_, h⟩

/-- Package 5 meets package 4 in phase 1. -/
def sRelay : State := { s0 with package := { demoPackage with relay := [pkt (.read 0 8) 4], phase := 1 } }

theorem witness_FabricEvents_ranks (h : Obligations.FabricEvents) :
    (∃ t, Completes (.relayForward 3) sRelay t) ∧ (∃ t, Completes (.wcLineAgeing 4) { s0 with lines := [line1], now := 2 ^ 20 } t)
    ∧ (∃ t, Completes (.rankMigration 0 0 ⟨[], []⟩) (sFl (flight storeP .sent)) t)
    ∧ (∃ t, Completes (.rankMigration 0 255 ⟨[(0x2000, 2 ^ 31, 16)], []⟩) sDark t)
    ∧ (∃ t, Completes (.rankMigration 0 255 ⟨[(0x2000, 2 ^ 31, 16)], [(6143, 0x8000000000010005)]⟩) s0 t) := by
  obtain ⟨_, _, _, _, _, _, _, h8, h9, h10⟩ := h
  exact ⟨⟨_, h8 sRelay (pkt (.read 0 8) 4) [] [] rfl ⟨rfl, (by decide +kernel), (by decide +kernel)⟩ (none_in rfl)⟩, ⟨_, h9 { s0 with lines := [line1], now := 2 ^ 20 } line1 r0 (by decide +kernel) rfl (by decide +kernel)⟩,
    ⟨_, (h10 (sFl (flight storeP .sent)) 0 0 [] [] (by decide +kernel) (by decide +kernel)).1 (.inl (by decide +kernel))⟩,
    ⟨_, (h10 sDark 0 255 [(0x2000, 2 ^ 31, 16)] [] (by decide +kernel) (by decide +kernel)).1 (.inr ⟨_, List.mem_singleton_self _, dark_move rfl⟩)⟩,
    ⟨_, (h10 s0 0 255 [(0x2000, 2 ^ 31, 16)] [(6143, 0x8000000000010005)] (by decide +kernel) (by decide +kernel)).2 (by decide +kernel) (by decide +kernel) (by decide +kernel)⟩⟩

def spec1 : PartSpec :=
  { num := 1, dies := 2, control := [385], diag := false, grants := [(2 ^ 37, 2 ^ 30)], inbox := 0, image := [1], images := [] }
/-- No partition yet, every function ready. -/
def sBare : State := { State.reset with package := demoPackage }
/-- A report has been asked for of a function, where the partition has been started, or not. -/
def sReport (fn : Nat) (b : Bool) : State := { s0 with
  parts := [{ demoPart with started := b }]
  package := { demoPackage with attest := [(fn, { nonce := [], latched := [], status := 1, report := [] })] } }
/-- Core 386 is the partition's and ready; its image has not been started. -/
def sImage (started : Bool) : State := { s0 with parts := [{ demoPart with control := [386], started := started }] }
def sBoot (n : Nat) : State := { State.reset with agenda := [.boot], package := { Package.reset with boot := n } }

theorem witness_PackageEvents (h : Obligations.PackageEvents) :
    isNext (step (sBoot 0)) = true ∧ (∃ t, step (sBoot 1) = .next t) ∧ (∃ t, Completes (.attestationRequest 16) s0 t)
    ∧ (∃ t, Completes (.attestationReportReady 0) (sReport 0 true) t)
    ∧ (∃ t, Completes (.attestationReportReady 17) (sReport 17 false) t)
    ∧ (∃ t, Completes (.powlimWrite 1999) s0 t) ∧ (∃ t, Completes (.powerThrottle 8 6000) s0 t)
    ∧ s0.bar0Read 16 0x20000 8 = some [0x70, 0x17, 0, 0, 17, 0, 0, 0]
    ∧ (∃ t, Completes (.bar0Write 0 0x11000 [1, 2]) s0 t) ∧ (∃ t, Completes (.bar0Write 17 0x30000 (List.replicate 64 0)) s0 t)
    ∧ (∃ t, Completes .packageReset s0 t) ∧ (∃ t, Completes (.selfTestComplete 16 25) sBare t)
    ∧ (∃ t, Completes (.partitionAssign spec1) sBare t)
    ∧ (∃ t, Completes (.partitionImageStart 0 386 0x1000) (sImage true) t)
    ∧ (∃ t, Completes (.partitionImageStart 0 386 0x1000) (sImage false) t ∧ (t.part 0).measured = shake256 demoPart.image) := by
  obtain ⟨_, h1, _, h3, h4, h5, h6, h7, _⟩ := h s0
  obtain ⟨_, _, _, _, _, _, _, _, h8, h9, _⟩ := h sBare
  have hi (b : Bool) := (h (sImage b)).2.2.2.2.2.2.2.2.2.2 { demoPart with control := [386], started := b } 386 0x1000 rfl List.mem_cons_self
    (by cases b <;> decide +kernel) (by intro r hr hc; rcases List.mem_singleton.1 hr with rfl; exact absurd hc (by decide +kernel))
  refine ⟨(by decide +kernel), ⟨_, ((h (sBoot 1)).1 [] rfl).2 rfl⟩, ⟨_, h1 16 (by decide +kernel) (by decide +kernel)⟩,
    ⟨_, ((h (sReport 0 true)).2.2.1 0 (by decide +kernel)).1 (by decide +kernel)⟩, ⟨_, ((h (sReport 17 false)).2.2.1 17 (by decide +kernel)).2 (by decide +kernel)⟩, ⟨_, h3 1999⟩, ⟨_, h4 8 6000 (by decide +kernel) (by decide +kernel) (by decide +kernel)⟩,
    (h5 16 (by decide +kernel) (by decide +kernel) rfl).trans (by decide +kernel), ⟨_, (h6 0 [1, 2] (by decide +kernel) rfl (by decide +kernel)).1⟩, ⟨_, (h6 17 (List.replicate 64 0) (by decide +kernel) rfl (by decide +kernel)).2.1⟩, ⟨_, h7⟩,
    (h8 16 25 (by decide +kernel) (by decide +kernel)).imp (fun _ x => x.1), (h9 spec1 (by decide +kernel) (by decide +kernel) (by decide +kernel) (none_in rfl) (by decide +kernel)).imp (fun _ x => x.1), ?_, ?_⟩
  · obtain ⟨t, _, h, _⟩ := hi true
    exact ⟨t, h⟩
  · obtain ⟨t, _, h, _, _, _, _, _, _, _, _, _, h'⟩ := hi false
    exact ⟨t, h, h'.trans (if_neg Bool.false_ne_true)⟩

theorem memOk : MemoryOk s0 := ⟨(by decide +kernel), by
  intro t ht
  rcases List.mem_singleton.1 ht with rfl
  decide +kernel, none_in rfl⟩

theorem none_pending : ∀ q ∈ s0.rounds, q.pending = [] := fun q hq => by rcases List.mem_singleton.1 hq with rfl; rfl
theorem calm0 : Calm s0 := ⟨none_pending, rfl, rfl, rfl⟩

theorem witness_StoreFrame (h : Obligations.StoreFrame) :
    (nextOf (exec (.sts (fM 1 2 0 3 0)) s0)).mem = s0.mem ∧ (nextOf (exec (.st (fM 1 2 20 3 0)) s0)).mem = s0.mem
    ∧ (nextOf (exec (.sth (fM 1 2 0 3 0)) s0)).mem = s0.mem ∧ (nextOf (exec (.stp (fR 0 1 1 2 1672 3)) s0)).stores = [] :=
  have k (i : Instr) (hi : (nextOf (exec i s0)).issuing.isSome = true) (f : MForm) (g : RForm) :=
    h s0 (nextOf (exec i s0)) r0 _ f g memOk rfl (by decide +kernel) (issuing_of hi) none_pending
  ⟨(((k (.sts (fM 1 2 0 3 0)) (by decide +kernel) (fM 1 2 0 3 0) (fR 0 1 1 2 1672 3)).1 (.inl (by decide +kernel))).1 (next_of (by decide +kernel))).2.1,
   (((k (.st (fM 1 2 20 3 0)) (by decide +kernel) (fM 1 2 20 3 0) (fR 0 1 1 2 1672 3)).1 (.inr calm0)).2 (next_of (by decide +kernel)) (by decide +kernel)).2.1,
   ((k (.sth (fM 1 2 0 3 0)) (by decide +kernel) (fM 1 2 0 3 0) (fR 0 1 1 2 1672 3)).2.1 (.inl (by decide +kernel)) (next_of (by decide +kernel))).2.1,
   ((k (.stp (fR 0 1 1 2 1672 3)) (by decide +kernel) (fM 1 2 0 3 0) (fR 0 1 1 2 1672 3)).2.2 calm0 (next_of (by decide +kernel))).2.2.1⟩

/-- An instruction of each family in a calm state, and the stores of the others. -/
theorem witness_FamilyFrames (h : Obligations.FamilyFrames) :
    (nextOf (exec (.iadd (fR 0 3 1 2 1672 0)) s0)).mem = s0.mem
    ∧ ((nextOf (exec (.cpy (fP 0 0 1 2 1 1)) s0)).teams.getD 0 Team.blank).spad = (s0.teams.getD 0 Team.blank).spad
    ∧ (nextOf (exec (.mmah (fX 3 1 2 1 1 false true 0)) s0)).rounds[7]? = s0.rounds[7]?
    ∧ MemoryFrame s0 (nextOf (exec (.atom (fA 3 1 2 0 0 1)) s0)) r0 8
        (laneValues (r0.passing p7) (arg (sources s0 r0 [(1, false), (2, false)]) 0))
    ∧ PadFrame s0 (nextOf (exec (.lyst (fP 0 0 1 1672 1672 0)) s0)) r0 512
        [(laneOf (arg (sources s0 r0 [(1, false)]) 0) 0).toNat] := by
  have k (i : Instr) (hi : isNext (exec i s0) = true) := h s0 (nextOf (exec i s0)) calm0
  exact ⟨((k (.iadd (fR 0 3 1 2 1672 0)) (by decide +kernel)).1 _ rfl (next_of (by decide +kernel))).1 rfl,
    ((k (.cpy (fP 0 0 1 2 1 1)) (by decide +kernel)).1 _ rfl (next_of (by decide +kernel))).2.1 rfl 0,
    ((k (.mmah (fX 3 1 2 1 1 false true 0)) (by decide +kernel)).1 _ rfl (next_of (by decide +kernel))).2.2 rfl 7 (by decide +kernel),
    ((k (.atom (fA 3 1 2 0 0 1)) (by decide +kernel)).2 r0 (fA 3 1 2 0 0 1) (fR 0 1 1 2 1672 3) (fP 0 0 1 1672 1672 0) memOk rfl).1 (next_of (by decide +kernel)),
    ((k (.lyst (fP 0 0 1 1672 1672 0)) (by decide +kernel)).2 r0 (fA 3 1 2 0 0 1) (fR 0 1 1 2 1672 3) (fP 0 0 1 1672 1672 0) memOk rfl).2.2.2.2.2.1 (next_of (by decide +kernel))⟩

/-- DIAG in a diagnostic partition (R304). -/
def diagWord : Word := 0b1100000101_111_0_000_11010001000_11000000101_11000000110_11010001000_000
def headSys : Word := 0b111111_111_0000_000_0_0000000000000000_0000000000000000000000000000000
def begunT : State := nextOf (exec (.clauseSelect 0 0 1) (demoState (rS [headSys, diagWord])))

theorem witness_UserClauses (h : Obligations.UserClauses) : ((demoState (rS [headSys, diagWord])).partOf (rS [headSys, diagWord])).diag = true
    ∧ SameControl (s0.part 0) ((nextOf (exec (.iadd (fR 0 3 1 2 1672 0)) s0)).part 0) :=
  ⟨(h.1 (demoState (rS [headSys, diagWord])) begunT 0 0 1 0 (rS [headSys, diagWord]) ((begunT.rounds[0]?).getD r0)
    (((begunT.rounds[0]?).getD r0).clause.getD ⟨0, 0, 0, 0, false, 0, [], 0⟩) (next_of (by decide +kernel)) rfl rfl rfl (some_of r0 (by decide +kernel)) (some_of _ (by decide +kernel)) 0 diagWord
    (.diag (fR 0 1672 1541 1542 1672 0)) (by decide +kernel) (by decide +kernel) (by decide +kernel)).2,
   (((h.2 s0 _ r0 (.iadd (fR 0 3 1 2 1672 0)) (fun p hp => by rcases List.mem_singleton.1 hp with rfl; decide +kernel) rfl rfl (next_of (by decide +kernel))).1
    (.inl (by decide +kernel))).1 0)⟩

theorem witness_InvariantsKept (h : Obligations.InvariantsKept) : PowerOk (nextOf (step s0)) ∧ RoundsOk (nextOf (step s0)) :=
  (h s0 _ ⟨memOk, by unfold PowerOk; decide +kernel, fun r hr => by
    rcases List.mem_singleton.1 hr with rfl
    unfold RoundOk; decide +kernel, none_in rfl⟩ (next_of (by decide +kernel))).2

/-! ### Words that the spec writes out (R53, R61, R114, R158, R162, R212, R258, R272, R275) -/

theorem test_spec_words : reads [
    (0x003A005006013442, .iadd (fR 4 5 3 4 1672 2)),
    (0x101200600B807441, .fadd .f32 { fR 4 6 5 1537 1672 1 with g := { p := 2, inv := false, uni := false } }),
    (0x8010000000000000, .bra { fJ 0 0 with g := { p := 2, inv := false, uni := false } }),
    (0x8178000000000009, .mjoin (fJ 0 9)), (0x8008000000000006, .bra { fJ 0 6 with g := { p := 1, inv := false, uni := false } }),
    (0x81B8688D11A23440, .join (fR 0 1672 1672 1672 1672 0)), (0x013A00900781004B, .imad (fR 4 9 3 1540 9 3)),
    (0x20FA00A009A20030, .qnt (fR 4 10 4 1672 6 0)), (0x43F8602C03A23440, .tlook (fR 0 1538 1537 1672 1672 0)),
    (0x5038001813006071, .cpy (fP 0 0 1540 1536 1543 1)), (0x52B8045A23446885, .place (fP 1 2 1672 1672 1672 5)),
    (0x6038610301128000, .mmah (fX 3 64 1538 1 1 false true 0)), (0x60F8688011A23440, .spush (fR 0 1672 8 1672 1672 0)),
    (0x61F81A2302800000, .drn (fX 0 1672 1541 0 0 false false 0)), (0x623860AC17833440, .pjadj (fR 0 1546 1547 1548 1672 0)),
    (0x8838601000000000, .bara (fS 1 true 4)), (0x8878601000000000, .barw (fS 1 true 4)), (0x7038014018000002, .sfq (fI 5 3 0 2)),
    (0x88F8600800000000, .cbar (fS 1 true 2)), (0x8938688D11813440, .xwin (fR 0 1672 1672 1540 1672 0)),
    (0x8978003005807440, .xst (fR 0 3 2 1537 1672 0))] = true := by decide +kernel

/-- Headers that the spec writes out (R40, chapters 2 to 4). -/
theorem test_spec_headers : readHeader 0xFC10000000000000 = { cls := 0, cnt := 2, gap := 0, yld := false, uni := 0 }
    ∧ readHeader 0xFC18000100000000 = { cls := 0, cnt := 3, gap := 0, yld := false, uni := 2 }
    ∧ readHeader 0xFC88000000000000 = { cls := 1, cnt := 1, gap := 0, yld := false, uni := 0 } := by decide +kernel

/-! ### Ill-formed words: each check of R63 -/

def failure (uni : Bool) (w : Word) : Option DecodeError := match decode 16 uni w with | .error e => some e | .ok _ => none

/-- An opcode of no instruction (check 1). -/
theorem test_refuses_opcode : failure false badOpcode = some .illegalOpcode ∧ decodeTableWord 64 badOpcode.toNat = none := by decide +kernel
/-- A completer bit that R61 gives as 0, an unused field that is not 1672 (R51), a count of SHLI at the element width, and a UNI bit on
an instruction that may not be uniform. -/
theorem test_refuses_fields : failure false badField = some (.illegalField 0 false)
    ∧ failure false 0b0000000000_111_0_000_00000000011_00000000001_00000000010_00000000100_000 = some (.illegalOperand 3)
    ∧ failure false 0b0000100101_111_0_0_00000000011_00000000001_110_000000000000000000001000 = some (.illegalField 0 false)
    ∧ failure true 0b0000011101_111_0_000_00000000011_00000001100_11010001000_11010001000_010 = some (.illegalField 31 true) := by decide +kernel
/-- A destination that is a special, a reserved code, and the last v name as the first of a pair (R47 to R50). -/
theorem test_refuses_operands :
    failure false 0b0000000000_111_0_000_11010001001_00000000001_00000000010_11010001000_000 = some (.illegalOperand 36)
    ∧ failure false 0b0000000000_111_0_000_00000000011_11010010100_00000000010_11010001000_000 = some (.illegalOperand 25)
    ∧ failure false 0b1000100110_111_0_000_11010001000_10111111111_00000000010_00011_111_10_0000 = some (.illegalOperand 25) := by decide +kernel
/-- The header's zero bits, a UNI bit above CNT, a word that is no header, a clause of the wrong class, and SYS in user mode. -/
theorem test_refuses_clauses : headerFails 0xFC00000000000001 = [0] ∧ headerFails 0xFC00000100000000 = [31]
    ∧ (checkClause 16 false false [0]).map (fun f => f.cause) = some 1
    ∧ (checkClause 16 false false [0xFC80000000000000, addWord]).map (fun f => f.cause) = some 4
    ∧ (checkClause 16 false false [headSys, diagWord]).map (fun f => f.cause) = some 7
    ∧ checkClause 16 false true [headSys, diagWord] = none := by decide +kernel

/-! ### Values that the spec works out -/

/-- The 64-bit result in lane l of D = v6 when a register instruction runs on v1 = x and v2 = y. -/
def result (i : Instr) (x y : Lanes) (l : Nat) : Word :=
  laneOf ((roundOf (nextOf (exec i (demoState { r0 with cur := 0xFFFF, v := [(1, x), (2, y)] })))).readV 6) l
def allLanes (w : Word) : Lanes := tab (fun _ => w)

/-- R136: CVTW and WREB. -/
theorem test_cvtw : result (.cvtw (fR 0 6 1 1672 1672 0)) (allLanes 0x3F80018040490FDB) [] 0 = 0x00003F8002404910 := by decide +kernel
/-- R113: BYSEL with the selectors of the text. -/
theorem test_bysel : bysel 0x1122334455667788 0x99AABBCCDDEEFF00 0x0706050403020100 = 0x1122334455667788
    ∧ bysel 0x1122334455667788 0x99AABBCCDDEEFF00 0x0F0E0D0C0B0A0908 = 0x99AABBCCDDEEFF00
    ∧ bysel 0x1122334455667788 0 0x1010101010101000 = 0xFFFFFFFFFFFFFF88
    ∧ bysel 0x1122334455667788 0 0x8080808080800100 = 0x7788 := by decide +kernel
/-- The MXFP4 block of R134. -/
def fp4Block : Lanes := tab (fun l => if l = 0 then 0xBFA6666640A00000 else if l = 1 then 0x415000003E4CCCCD else 0)
theorem test_qnt : (List.range 16).map (result (.qnt (fR 0 6 1 1672 6 0)) fp4Block []) = [0x7094] ++ List.replicate 14 0 ++ [0x80] := by
  decide +kernel
theorem test_dqnt : (List.range 2).map (result (.dqnt (fR 0 6 1 1672 (6 + 32) 0)) (tab (fun l => if l = 0 then 0x7094 else if l = 15 then 0x80 else 0)) [])
    = [0xBF80000040800000, 0x4140000000000000] := by decide +kernel
/-- The tree and the chain of R141 and R144. -/
def sums : Lanes := tab (fun l => if l = 0 ∨ l = 2 then 0x3F800000 else if l = 1 then 0x4B800000 else if l = 3 then 0xCB800000 else 0x40E00000)
def firstFour : Guard := { p := 1, inv := false, uni := false }
def result4 (i : Instr) (l : Nat) : Word :=
  laneOf ((roundOf (nextOf (exec i (demoState { r0 with cur := 0xFFFF, p := [0, 0xF, 0, 0, 0, 0, 0], v := [(1, sums)] })))).readV 6) l
theorem test_radd : result4 (.radd { fR 0 6 1 1672 1672 4 with g := firstFour }) 0 = 0x3F800000
    ∧ result4 (.radd { fR 0 6 1 1672 1672 4 with g := firstFour }) 4 = 0 := by decide +kernel
theorem test_scana : (List.range 4).map (result4 (.scana { fR 0 6 1 1672 1672 4 with g := firstFour })) = [0x3F800000, 0x4B800000, 0x4B800000, 0] := by
  decide +kernel
/-- R110: a saturating add at the top of a byte, and one that wraps. -/
theorem test_iadd : result (.iadd (fR 0 6 1 2 1672 7)) (allLanes 0x7F) (allLanes 1) 0 = 0x7F
    ∧ result (.iadd (fR 0 6 1 2 1672 6)) (allLanes 0xFF) (allLanes 1) 15 = 0 := by decide +kernel
/-- A source that is also the destination is read first (R107). -/
theorem test_same_name : laneOf ((roundOf (nextOf (exec (.iadd (fR 0 1 1 1 1672 0)) s0))).readV 1) 1 = 2
    ∧ laneOf ((roundOf (nextOf (exec (.iadd (fR 0 1 1 1 1672 0)) s0))).readV 1) 2 = 2 := by decide +kernel
/-- R17: the sum of a number and its negation is +0; R15: an infinity less itself is the canonical NaN. -/
theorem test_fadd : result (.fadd .f32 (fR 0 6 1 2 1672 0)) (allLanes 0x3F800000) (allLanes 0xBF800000) 0 % 2 ^ 32 = 0
    ∧ result (.fsub .f32 (fR 0 6 1 2 1672 0)) (allLanes 0x7F800000) (allLanes 0x7F800000) 0 % 2 ^ 32 = 0x7FC00000 := by decide +kernel
/-- LD of what ST has buffered (R296), byte order little-endian (R7). -/
theorem test_store_load : laneOf ((roundOf (nextOf (exec (.ld (fM 6 2 0 0 1)) (nextOf (exec (.st (fM 4 2 0 3 0))
    { s0 with rounds := [{ r0 with v := SMap.set r0.v 4 (allLanes 0x1122) }] }))))).readV 6) 1 = 0x11 := by decide +kernel
/-- A user round's trap queues one entry whose first word holds kind 0, cause 0x08 and flag 1 (R322). -/
theorem test_trap_entry : (((nextOf (exec (.trap (fI 1672 1672 0 5)) s0)).part 0).queue.flatten.map (fun e => (e.headD 0).toNat % 2 ^ 16)) = [0x0800] := by
  decide +kernel
/-- R268, R308: a gang of pairs takes distinct pairs of one cluster. -/
theorem test_gang_places : gangPlaces (fun _ => true) (clusterPlaces 0 1 true) 3 = some [8, 10, 12] := by decide +kernel

/-- R128: a conversion that widens ignores .sat, so an infinity of FP16 becomes the infinity of FP32. -/
theorem test_widen_sat : fpCvt .fp16 .fp32 .rne true 0x7C00 = 0x7F800000 := by decide +kernel

/-- The clock rises by the ticks of a selection (R83). -/
theorem test_clock : ((nextOf (exec (.clauseSelect 0 0 5) s0)).die 0).clock = 5 := by decide +kernel
/-- The first step after a word is placed runs it (R44). -/
theorem test_placed : (step (placed addWord)) = exec (.iadd (fR 0 3 1 2 1672 0)) { placed addWord with cur := 0, agenda := [] } := by rfl

end Sys2Proof.Tests
end

section
/-! PROOFS. Traps (R102, R106, R321, R322): what taking a trap saves and leaves, and the traps that TRAP and BKPT raise. -/
namespace Sys2Proof.Machine

/-! ### Traps (R106, R322) -/

/-- The round that has taken a trap (R106, R321). -/
def trapped (s : State) (r : Round) (t : TrapRec) (canStep : Bool) (resume : Nat) : Round :=
  { r with
    replies := [], remote := [], wave := 0
    status := .parked { service := false, trap := t, die := s.dieOf r, pages := [], asked := [], canStep := canStep, resume := resume } }

theorem parkTrap_of_priv (s : State) {r : Round} (t : TrapRec) (c : Bool) (n : Nat) (h : r.priv = true) :
    parkTrap s r t c n = s.setRound (trapped s r t c n) :=
  if_pos h

theorem parkTrap_of_user (s : State) {r : Round} (t : TrapRec) (c : Bool) (n : Nat) (h : r.priv = false) :
    parkTrap s r t c n =
      (s.setRound (trapped s r t c n)).enqueue (s.teamOf r).part
        [roundEntry s r 0 t.cause t.index t.h t.info0 t.info1 t.mask t.info2] :=
  if_neg (by simp [h])

@[simp] theorem parkTrap_cores (s : State) (r : Round) (t : TrapRec) (c : Bool) (n : Nat) : (parkTrap s r t c n).cores = s.cores := by
  unfold parkTrap; dsimp only; split <;> rfl
@[simp] theorem parkTrap_now (s : State) (r : Round) (t : TrapRec) (c : Bool) (n : Nat) : (parkTrap s r t c n).now = s.now := by
  unfold parkTrap; dsimp only; split <;> rfl
@[simp] theorem parkTrap_cur (s : State) (r : Round) (t : TrapRec) (c : Bool) (n : Nat) : (parkTrap s r t c n).cur = s.cur := by
  unfold parkTrap; dsimp only; split <;> rfl

theorem parkTrap_issuing {s : State} {x : Round} (hi : s.issuing = some x) (r : Round) (t : TrapRec) (c : Bool) (n : Nat) :
    (parkTrap s r t c n).issuing = some (trapped s r t c n) := by
  rw [State.issuing, parkTrap_rounds, parkTrap_cur]
  exact State.issuing_setRound hi _

theorem parkTrap_other (s : State) (r : Round) (t : TrapRec) (c : Bool) (n : Nat) {m : Nat} (h : m ≠ s.cur) :
    (parkTrap s r t c n).rounds[m]? = s.rounds[m]? := by
  rw [parkTrap_rounds, List.getElem?_set_ne h.symm]

/-- A number that some partition bears is that of the partition found by it. -/
theorem State.part_num {s : State} {n : Nat} (h : s.parts.any (fun p => p.num == n) = true) : (s.part n).num = n := by
  obtain ⟨p, hp⟩ := Option.isSome_iff_exists.1 (List.find?_isSome.2 (List.any_eq_true.1 h))
  simpa [State.part, hp] using List.find?_some hp

/-- The partition of a number after it has been replaced. -/
theorem State.part_setPart {s : State} {n : Nat} {p : Partition} (h : s.parts.any (fun q => q.num == n) = true) (hp : p.num = n) :
    (s.setPart p).part n = p := by
  subst hp
  have hf : (fun q : Partition => q.num == p.num) ∘ (fun q => if q.num == p.num then p else q) = fun q => q.num == p.num := by
    funext q
    by_cases hq : q.num = p.num <;> simp [hq]
  obtain ⟨q, hq⟩ := Option.isSome_iff_exists.1 (List.find?_isSome.2 (List.any_eq_true.1 h))
  have hn : (q.num == p.num) = true := (List.find?_eq_some_iff_append.1 hq).1
  rw [State.part, State.setPart, List.find?_map, hf, hq, Option.map_some, if_pos hn, Option.getD_some]

/-- A request stands at the end of its partition's queue (R322). -/
theorem State.enqueue_queue {s : State} {n : Nat} (h : s.parts.any (fun p => p.num == n) = true) (l : List (List Word)) :
    ((s.enqueue n l).part n).queue = (s.part n).queue ++ [l] := by
  have hp := State.part_setPart (p := { s.part n with queue := (s.part n).queue ++ [l] }) h (State.part_num h)
  exact congrArg Partition.queue hp

/-- Settles O42: taking a trap replaces the issuing round and, for a user round, adds one entry to its partition's queue. -/
theorem trapTaken : Obligations.TrapTaken := by
  intro s r t canStep resume hi u
  refine ⟨parkTrap_issuing hi .., parkTrap_mem .., parkTrap_teams .., parkTrap_cores .., parkTrap_now ..,
    fun n hn => parkTrap_other _ _ _ _ _ hn, fun hp => ?_, fun hp hany => ?_⟩
  · rw [show u = _ from parkTrap_of_priv s t canStep resume hp, State.setRound_parts]
  · rw [show u = _ from parkTrap_of_user s t canStep resume hp, State.enqueue_queue (by simpa only [State.setRound_parts] using hany)]
    rfl

/-! ### TRAP and BKPT (R102) -/

theorem exec_trap (f : IForm) (s : State) : exec (.trap f) s = softTrap f 0x08 s := rfl
theorem exec_bkpt (f : IForm) (s : State) : exec (.bkpt f) s = softTrap f 0x09 s := rfl

/-- The record of TRAP and BKPT (R102). -/
def softTrapRec (r : Round) (f : IForm) (cause : Nat) : TrapRec :=
  { cause := cause, index := r.ix, h := r.h, info0 := 0, info1 := 0, info2 := f.imm.setWidth 64, mask := r.passing f.g }

theorem softTrap_parks {s : State} {r : Round} {f : IForm} (hs : Starts s r [] []) (hm : r.passing f.g ≠ 0) (cause : Nat) :
    softTrap f cause s = .next (parkTrap (s.begun r f.g []) (r.noted f.g []) (softTrapRec r f cause) true (r.ix + 1)) := by
  unfold softTrap
  rw [begin_started hs, if_neg hm, noted_nil]
  rfl

theorem softTrap_skips {s : State} {r : Round} {f : IForm} (hs : Starts s r [] []) (hm : r.passing f.g = 0)
    (hf : Fits (s.begun r f.g []) (s.begun r f.g []) [] (fun q => q)) (cause : Nat) :
    softTrap f cause s = .next ((s.begun r f.g []).done [] (fun q => q)) := by
  unfold softTrap
  rw [begin_started hs, if_pos hm, finish_done (begun_issuing hs _ _) hf]

/-- A round that returns to an instruction of its clause stands there. -/
theorem returnTo_within {now i : Nat} {r : Round} {c : Clause} (hc : r.clause = some c) (h : i ≤ c.cnt) :
    (returnTo now i r).clause = some { c with idx := i } := by
  simp [returnTo, hc, Nat.not_lt.2 h]

/-- A round that returns to beyond its clause's last instruction falls through (R102). -/
theorem returnTo_beyond {now i : Nat} {r : Round} {c : Clause} (hc : r.clause = some c) (h : c.cnt < i) :
    returnTo now i r = endClause now r.fallThrough r := by
  simp [returnTo, hc, h]

/-- Settles O41, by whether a lane passes. -/
theorem softTraps : Obligations.SoftTraps := by
  intro s r f hs b q t
  refine ⟨fun hm => ⟨?_, ?_⟩, fun c now hc => ⟨returnTo_within hc, returnTo_beyond hc⟩, fun hm hf => ⟨?_, ?_⟩⟩
  · rw [exec_trap, softTrap_parks hs hm]; rfl
  · rw [exec_bkpt, softTrap_parks hs hm]; rfl
  · rw [exec_trap, softTrap_skips hs hm hf]
  · rw [exec_bkpt, softTrap_skips hs hm hf]

end Sys2Proof.Machine
end

section
/-! PROOFS. Control flow (R43, R90 to R94): what a round finds at a word address does not depend on what it notes as it starts, targets that
are headers let a transfer go on, and a transfer stands where its write says. -/
namespace Sys2Proof.Machine

/-! ### What a translation depends on (R286 to R288) -/

section Congr
variable {s t : State} (hm : t.mem = s.mem) (hp : t.package = s.package)

include hp in
theorem channelReady_congr (pa : Nat) : t.channelReady pa = s.channelReady pa := by
  simp only [State.channelReady, State.isReady, hp]

include hp in
theorem checkLeaf_congr (p : Partition) (k : PageNeeds) (va : Word) (l : Leaf) : checkLeaf t p k va l = checkLeaf s p k va l := by
  simp only [checkLeaf, channelReady_congr hp]

include hm hp

theorem walkFrom_congr (va : Nat) (ls : List TableLevel) (table level : Nat) :
    walkFrom t va table level ls = walkFrom s va table level ls := by
  induction ls generalizing table level with
  | nil => rfl
  | cons l ls ih =>
    have he (pa : Nat) : readEntry t pa = readEntry s pa := by rw [readEntry, hm, readEntry]
    unfold walkFrom
    dsimp only
    rw [he, channelReady_congr hp, ih]

/-- A translation depends on memory, the package's ready bits and the core's cached translations. -/
theorem translate_congr (hc : t.cores = s.cores) (core : Nat) (p : Partition) (k : PageNeeds) (va : Word) :
    translate t core p k va = translate s core p k va := by
  have hl : cachedLeaf t core p.num va = cachedLeaf s core p.num va := by simp only [cachedLeaf, State.core, hc]
  unfold translate translateWalk walk
  rw [hl, walkFrom_congr hm hp]
  simp only [checkLeaf_congr hp]

end Congr

/-- Only its unwritten bit tells a round that has started from the round before, so its LS path translates as before. -/
theorem xlat_begun (s : State) (r : Round) (g : Guard) (fs : List Field) (write : Bool) :
    (s.begun r g fs).xlat (r.noted g fs) write = s.xlat r write := by
  funext va
  exact translate_congr (s := s) (t := s.begun r g fs) rfl rfl rfl ..

@[simp] theorem noted_stack (r : Round) (g : Guard) (fs : List Field) : (r.noted g fs).stack = r.stack := rfl
@[simp] theorem noted_cur (r : Round) (g : Guard) (fs : List Field) : (r.noted g fs).cur = r.cur := rfl

/-! ### Code words (R43, R44) -/

/-- A code word depends on the rounds through their pending stores alone. -/
theorem codeBytes_congr {s t : State} (hm : t.mem = s.mem) (hs : t.stores = s.stores)
    (hr : t.rounds.map Round.pending = s.rounds.map Round.pending) (pa : Nat) : t.codeBytes pa = s.codeBytes pa := by
  have h (u : State) (f : List Access → List (Nat × Byte)) :
      u.rounds.flatMap (fun q => f q.pending) = (u.rounds.map Round.pending).flatMap f := by
    rw [List.flatMap_map]
  unfold State.codeBytes
  dsimp only
  rw [h t (fun l => (l.filter _).flatMap _), h s (fun l => (l.filter _).flatMap _), hr, hm, hs]

theorem setRound_pendings {s : State} {r x : Round} (hi : s.issuing = some r) (hx : x.pending = r.pending) :
    (s.setRound x).rounds.map Round.pending = s.rounds.map Round.pending := by
  rw [State.setRound_rounds, List.map_set, hx, ← List.map_set, ← State.setRound_rounds, State.setRound_self hi]

/-- A round that has started finds the same words at the same places. -/
theorem codeAt_begun {s : State} {r : Round} (hi : s.issuing = some r) (g : Guard) (fs : List Field) (t : Word) :
    (s.begun r g fs).codeAt (r.noted g fs) t = s.codeAt r t := by
  have hx (core : Nat) (p : Partition) (k : PageNeeds) (va : Word) : translate (s.begun r g fs) core p k va = translate s core p k va :=
    translate_congr (s := s) (t := s.begun r g fs) rfl rfl rfl core p k va
  have hb (pa : Nat) : (s.begun r g fs).codeBytes pa = s.codeBytes pa :=
    codeBytes_congr (s := s) (t := s.begun r g fs) rfl rfl (setRound_pendings hi rfl) pa
  unfold State.codeAt
  simp only [hx, hb]
  rfl

theorem headerAt_begun {s : State} {r : Round} (hi : s.issuing = some r) {g : Guard} {fs : List Field} {t : Word} (h : HeaderAt s r t) :
    HeaderAt (s.begun r g fs) (r.noted g fs) t := by
  unfold HeaderAt
  rwa [codeAt_begun hi]

/-- Targets that are headers let a transfer go on (R43, R92). -/
theorem withHeaders_ok {s : State} {r : Round} {l : List (Word × Mask)} (k : Res) (h : ∀ p ∈ l, HeaderAt s r p.1) :
    withHeaders s r l k = k := by
  have hx : ∀ x ∈ l.map (fun p => (p.1, p.2, s.codeAt r p.1)), ∃ w, x.2.2 = .word w ∧ isHeader w = true := by
    intro x hx
    obtain ⟨p, hp, rfl⟩ := List.mem_map.1 hx
    exact h p hp
  unfold withHeaders
  generalize l.map (fun p => (p.1, p.2, s.codeAt r p.1)) = xs at hx ⊢
  have none_of {β : Type} (f : Word × Mask × CodeAt → Option β) (hf : ∀ a m w, f (a, m, .word w) = none) : xs.filterMap f = [] := by
    rw [List.filterMap_eq_nil_iff]
    rintro ⟨a, m, c⟩ hc
    obtain ⟨w, rfl, _⟩ := hx _ hc
    exact hf a m w
  have hheld : xs.any (fun x => x.2.2 == .held) = false := by
    rw [List.any_eq_false]
    intro x hc
    obtain ⟨w, hw, _⟩ := hx x hc
    exact fun he => nomatch hw.symm.trans (eq_of_beq he)
  have hbad : xs.filter (fun x => x.2.2.bad) = [] := by
    rw [List.filter_eq_nil_iff]
    intro x hc
    obtain ⟨w, hw, hh⟩ := hx x hc
    have hb : x.2.2.bad = !isHeader w := congrArg CodeAt.bad hw
    rw [hb, hh]
    decide
  dsimp only
  rw [none_of, none_of, none_of, hbad, hheld]
  · rfl
  all_goals exact fun _ _ _ => rfl

/-! ### Transfers (R43, R90 to R93) -/

/-- A transfer stands where its write says. -/
theorem transfer_eq {s : State} {r : Round} (hi : s.issuing = some r) (fs : List Field) (write : Round → Round × Word) :
    transfer s fs write = .next (s.stand (endClause s.now (write (settle fs r)).2 (write (settle fs r)).1)) := by
  rw [transfer, onRound_eq hi]

theorem below_joinDepth {n : Nat} (h : n < 32) : ¬joinDepth ≤ n := Nat.not_le.2 h
theorem fits_joinDepth {n : Nat} (h : n ≤ 32) : ¬joinDepth < n := Nat.not_lt.2 h

theorem branchesTo_of_exec {i : Instr} {s : State} {r : Round} {taken : Mask} {t : Word} (hi : s.issuing = some r)
    (he : exec i s = branchTo s r taken t) : BranchesTo i s r taken t := by
  unfold branchTo at he
  refine ⟨fun h0 => ?_, fun h0 hall hh => ?_, fun h0 hsome hh hroom => ?_⟩
  · rw [he, if_pos h0, transfer_eq hi]; rfl
  · rw [he, if_neg h0, withHeaders_ok _ (by simpa using hh), if_pos hall, transfer_eq hi]; rfl
  · rw [he, if_neg h0, withHeaders_ok _ (by simpa using hh), if_neg hsome, if_neg (below_joinDepth hroom), transfer_eq hi]; rfl

theorem callsTo_of_exec {i : Instr} {s b : State} {r : Round} {taken : Mask} {t : Word} (hb : b.issuing = some r) (hn : b.now = s.now)
    (hh : HeaderAt s r t → HeaderAt b r t) (he : exec i s = callTo b r taken t) : CallsTo i s b r taken t := by
  unfold callTo at he
  refine ⟨fun h0 => ?_, fun h0 ht hroom => ?_⟩
  · rw [he, if_pos h0, transfer_eq hb, hn]; rfl
  · rw [he, if_neg h0, withHeaders_ok _ (by simpa using hh ht), if_neg (below_joinDepth hroom), transfer_eq hb, hn]; rfl

theorem exec_bra {s : State} {r : Round} (hi : s.issuing = some r) (f : JForm) :
    exec (.bra f) s = branchTo s r (r.guarded f.g) (jTarget r f) := onRound_eq hi _

theorem exec_brw {s : State} {r : Round} (hi : s.issuing = some r) (f : JForm) (hb : (r.walker (f.aux.toNat / 2 ^ 7)).bound = true) :
    exec (.brw f) s = branchTo s r
      (if (r.walker (f.aux.toNat / 2 ^ 7)).wrap.getLsbD (f.aux.toNat / 2 ^ 5 % 4) then r.guarded f.g else 0) (jTarget r f) :=
  (onRound_eq hi _).trans (if_neg (by rw [hb]; decide))

theorem exec_call {s : State} {r : Round} (hi : s.issuing = some r) (f : JForm) :
    exec (.call f) s = callTo s r (r.guarded f.g) (jTarget r f) := onRound_eq hi _

theorem exec_callx_eq (f : RForm) (s : State) : exec (.callx f) s = execCallx f s := rfl
theorem exec_brx_eq (f : RForm) (s : State) : exec (.brx f) s = execBrx f s := rfl

theorem exec_callx {s : State} {r : Round} {f : RForm} (hs : Starts s r [(f.a, false)] []) (hu : f.g.uni = false) :
    exec (.callx f) s = callTo (s.begun r f.g [(f.a, false)]) (r.noted f.g [(f.a, false)]) (r.guarded f.g)
      (laneOf (arg (sources s r [(f.a, false)]) 0) 0) := by
  have hm : r.passing f.g = r.guarded f.g := by simp [Round.passing, hu]
  rw [exec_callx_eq, execCallx, begin_started hs, hm]

theorem exec_mjoin {s : State} {r : Round} {f : JForm} (hi : s.issuing = some r) (h0 : r.guarded f.g ≠ 0) (hh : HeaderAt s r (jTarget r f))
    (hroom : r.stack.length < 32) :
    exec (.mjoin f) s = finish s s [] (fun q => { q with stack := { kind := .join, addr := jTarget r f, mask := q.cur } :: q.stack }) := by
  refine (onRound_eq hi _).trans ?_
  dsimp only
  rw [if_neg h0, withHeaders_ok _ (by simpa using hh), if_neg (below_joinDepth hroom)]

theorem exec_ret {s : State} {r : Round} {f : RForm} (hi : s.issuing = some r) (h0 : r.guarded f.g ≠ 0)
    (hc : r.stack.any (fun e => e.kind == .call) = true) :
    exec (.ret f) s = .next (s.stand (afterLanes s.now
      { r with cur := r.cur &&& ~~~(r.guarded f.g), stack := leaveCall (r.guarded f.g) r.stack })) := by
  refine (onRound_eq hi _).trans ?_
  dsimp only
  rw [if_neg h0, if_neg (by simp [hc])]

/-- JOIN pops the top entry: its live lanes go on at its address; where it has none, the next path does (R94). -/
theorem exec_join {s : State} {r : Round} {f : RForm} {e : JoinEntry} {es : List JoinEntry} (hi : s.issuing = some r)
    (h0 : r.guarded f.g ≠ 0) (hj : hasJoin r.stack = true) (hst : r.stack = e :: es) :
    exec (.join f) s = .next (s.stand (if e.mask &&& r.live = 0 then afterLanes s.now { r with stack := es, cur := 0 }
      else endClause s.now e.addr { r with stack := es, cur := e.mask &&& r.live })) := by
  refine (onRound_eq hi _).trans ?_
  dsimp only
  rw [if_neg h0, if_neg (by simp [hj]), hst]
  dsimp only
  split
  · rfl
  · rw [transfer_eq hi]; rfl

/-! ### BRX (R92) -/

/-- Each group of BRX has the target of one of its lanes. -/
theorem target_of_group {l : List (Nat × Word)} {g : Word × Mask} (hg : g ∈ targetGroups l) : ∃ p ∈ l, g.1 = p.2 := by
  have key (l : List (Nat × Word)) (acc : List Word) (w : Word)
      (hw : w ∈ l.foldl (fun acc p => if acc.contains p.2 then acc else acc ++ [p.2]) acc) : w ∈ acc ∨ ∃ p ∈ l, w = p.2 := by
    induction l generalizing acc with
    | nil => exact .inl hw
    | cons p l ih =>
      rcases ih _ hw with h | ⟨q, hq, h⟩
      · dsimp only at h
        split at h
        · exact .inl h
        · rcases List.mem_append.1 h with h | h
          · exact .inl h
          · exact .inr ⟨p, List.mem_cons_self, List.mem_singleton.1 h⟩
      · exact .inr ⟨q, List.mem_cons_of_mem _ hq, h⟩
  obtain ⟨w, hw, rfl⟩ := List.mem_map.1 hg
  exact (key l [] w hw).resolve_left List.not_mem_nil

/-- The join stack after BRX whose groups other than the first are `others` (R92): the lanes that do not branch wait below them. -/
def brxStack (q : Round) (rest : Mask) (others : List (Word × Mask)) : List JoinEntry :=
  others.map (fun g => { kind := .path, addr := g.1, mask := g.2 })
    ++ (if rest = 0 then q.stack else { kind := .path, addr := q.fallThrough, mask := rest } :: q.stack)

theorem exec_brx {s : State} {r : Round} {f : RForm} {g0 : Word × Mask} {others : List (Word × Mask)} (hs : Starts s r [rA f] [])
    (h0 : r.passing f.g ≠ 0) (hh : ∀ p ∈ laneValues (r.passing f.g) (arg (sources s r [rA f]) 0), HeaderAt s r p.2)
    (hg : targetGroups (laneValues (r.passing f.g) (arg (sources s r [rA f]) 0)) = g0 :: others)
    (hroom : r.stack.length + (if r.cur &&& ~~~(r.passing f.g) = 0 then 0 else 1) + others.length ≤ 32) :
    exec (.brx f) s = .next (s.stand (endClause s.now g0.1
      { settled r f.g [rA f] with
        stack := brxStack (settled r f.g [rA f]) (r.cur &&& ~~~(r.passing f.g)) others, cur := g0.2 })) := by
  have hall : ∀ g ∈ g0 :: others, HeaderAt (s.begun r f.g [rA f]) (r.noted f.g [rA f]) g.1 := by
    intro g hgm
    obtain ⟨p, hp, e⟩ := target_of_group (hg ▸ hgm)
    exact e ▸ headerAt_begun hs.1 (hh p hp)
  rw [exec_brx_eq, execBrx, begin_started hs]
  dsimp only
  rw [if_neg h0, hg, withHeaders_ok _ hall]
  dsimp only
  rw [noted_stack, noted_cur, if_neg (fits_joinDepth hroom), transfer_eq (begun_issuing hs _ _)]
  exact congrArg Host.Outcome.next (State.stand_setRound ..)

/-- Settles O38, an instruction at a time: headers let each transfer go on, to where its write says. -/
theorem flowCompletes : Obligations.FlowCompletes := by
  intro s r hi
  refine ⟨fun f => ⟨branchesTo_of_exec hi (exec_bra hi f), fun hb => branchesTo_of_exec hi (exec_brw hi f hb),
    callsTo_of_exec hi rfl id (exec_call hi f), ?_⟩, fun f => ⟨fun hs hu => ?_, fun h0 hc => exec_ret hi h0 hc, ?_, ?_⟩⟩
  · intro h0 hh hroom write hf
    rw [exec_mjoin hi h0 hh hroom, finish_done hi hf]
  · exact callsTo_of_exec (begun_issuing hs _ _) rfl (headerAt_begun hi) (exec_callx hs hu)
  · intro e es h0 hj hst
    refine ⟨fun hl => ?_, fun hl => ?_⟩
    · rw [exec_join hi h0 hj hst, if_neg hl]
    · rw [exec_join hi h0 hj hst, if_pos hl]
  · intro g0 others fs taken l rest q below hs h0 hh hg hroom
    exact exec_brx hs h0 hh hg hroom

end Sys2Proof.Machine
end

section
/-! PROOFS. EXIT (R89, R95, R218, R372): the lines that leave first change no round but in its counters, and where no lane stays live the
round ends. -/
namespace Sys2Proof.Machine

/-! ### What the lines of a round leave alone (R371, R372) -/

/-- The rounds of t are those of s but for their system counters and their epochs. -/
def CountersOnly (s t : State) : Prop :=
  ∀ (n : Nat) (q : Round), t.rounds[n]? = some q →
    ∃ (x : Round) (c : Nat) (e : List Epoch), s.rounds[n]? = some x ∧ q = { x with sysCtr := c, epochs := e }

theorem CountersOnly.refl (s : State) : CountersOnly s s := fun _ q hq => ⟨q, q.sysCtr, q.epochs, hq, rfl⟩

theorem CountersOnly.trans {s t u : State} (h : CountersOnly s t) (k : CountersOnly t u) : CountersOnly s u := by
  intro n q hq
  obtain ⟨y, c, e, hy, rfl⟩ := k n q hq
  obtain ⟨x, c', e', hx, rfl⟩ := h n y hy
  exact ⟨x, c, e, hx, rfl⟩

@[simp] theorem sendPacket_cur (s : State) (n : Nat) (w e : Word) (body : Epoch → PacketBody) (f : Epoch → Epoch) (range lane : Nat)
    (counted : Bool) (st : FlightState) : (s.sendPacket n w e body f range lane counted st).cur = s.cur := by
  unfold State.sendPacket; split <;> rfl

theorem sendPacket_countersOnly (s : State) (n : Nat) (w e : Word) (body : Epoch → PacketBody) (f : Epoch → Epoch) (range lane : Nat)
    (counted : Bool) (st : FlightState) : CountersOnly s (s.sendPacket n w e body f range lane counted st) := by
  intro m q hq
  unfold State.sendPacket at hq
  split at hq
  · exact CountersOnly.refl s m q hq
  · next r hr =>
    rw [State.setRoundAt_rounds, List.getElem?_set] at hq
    split at hq
    · next hm =>
      subst hm
      split at hq
      · cases hq
        cases counted <;> exact ⟨r, _, _, hr, rfl⟩
      · cases hq
    · exact CountersOnly.refl s m q hq

@[simp] theorem drainLine_cur (s : State) (x : WcLine) : (s.drainLine x).cur = s.cur := by
  unfold State.drainLine
  dsimp only
  split
  · rfl
  · exact sendPacket_cur ..

theorem drainLine_countersOnly (s : State) (x : WcLine) : CountersOnly s (s.drainLine x) := by
  unfold State.drainLine
  dsimp only
  split
  · exact fun n q hq => CountersOnly.refl s n q hq
  · exact fun n q hq => sendPacket_countersOnly { s with lines := s.lines.filter (fun y => y.id != x.id) } _ _ _ _ _ _ _ _ _ n q hq

theorem foldl_drainLine (l : List WcLine) (s : State) :
    (l.foldl State.drainLine s).cur = s.cur ∧ CountersOnly s (l.foldl State.drainLine s) := by
  induction l generalizing s with
  | nil => exact ⟨rfl, CountersOnly.refl s⟩
  | cons x l ih =>
    obtain ⟨hc, hr⟩ := ih (s.drainLine x)
    exact ⟨hc.trans (drainLine_cur s x), (drainLine_countersOnly s x).trans hr⟩

/-- Lines that leave change the issuing round in its counters alone. -/
theorem drainLines_issuing {s : State} {r q : Round} {p : WcLine → Bool} (hi : s.issuing = some r)
    (hq : (s.drainLines p).issuing = some q) : ∃ c e, q = { r with sysCtr := c, epochs := e } := by
  obtain ⟨hc, hr⟩ := foldl_drainLine (s.lines.filter p) s
  rw [State.issuing, show (s.drainLines p).cur = s.cur from hc] at hq
  obtain ⟨x, c, e, hx, he⟩ := hr _ _ hq
  obtain rfl : r = x := Option.some.inj (hi.symm.trans hx)
  exact ⟨c, e, he⟩

/-! ### Lanes that leave (R89, R95) -/

/-- A round that some lanes have left (R95). -/
def Round.without (taken : Mask) (r : Round) : Round :=
  { r with
    live := r.live &&& ~~~taken, cur := r.cur &&& ~~~taken
    stack := r.stack.map (fun e => { e with mask := e.mask &&& ~~~taken }) }

theorem exitLanes_eq (s : State) (r : Round) (taken : Mask) :
    exitLanes s r taken = .next (if r.live &&& ~~~taken = 0
      then (s.stand (afterLanes s.now (r.without taken))).lanesGone (afterLanes s.now (r.without taken))
      else s.stand (afterLanes s.now (r.without taken))) := rfl

/-- Where no lane is live, the join stack has no next path. -/
theorem popLive_zero (l : List JoinEntry) : popLive 0 l = none := by
  induction l with
  | nil => rfl
  | cons e es ih => rw [popLive, if_pos (by simp), ih]

/-- A round without live lanes ends (R89). -/
theorem afterLanes_ends (now : Nat) {r : Round} (hl : r.live = 0) (hc : r.cur = 0) :
    (afterLanes now r).status = .ending ∧ (afterLanes now r).live = 0 := by
  rw [afterLanes, if_pos hc, hl, popLive_zero]
  exact ⟨rfl, rfl⟩

/-- Lanes within a set leave with it. -/
theorem cur_gone {live cur taken : Mask} (hin : cur &&& ~~~live = 0) (hl : live &&& ~~~taken = 0) : cur &&& ~~~taken = 0 := by
  apply BitVec.eq_of_getLsbD_eq
  intro i hi
  have h1 := congrArg (fun x => x.getLsbD i) hin
  have h2 := congrArg (fun x => x.getLsbD i) hl
  simp only [BitVec.ofNat_eq_ofNat, BitVec.getLsbD_and, BitVec.getLsbD_not, BitVec.getLsbD_zero, hi, decide_true, Bool.true_and] at h1 h2 ⊢
  cases hc : cur.getLsbD i
  · rfl
  · have hlive : live.getLsbD i = true := by simpa [hc] using h1
    simpa [hlive] using h2

/-! ### The cases of EXIT (R95, R218, R372) -/

section Exit
variable {s : State} {r : Round} {f : RForm} (hi : s.issuing = some r) (h0 : r.guarded f.g ≠ 0)
include hi h0

theorem exec_exit_some (hl : r.live &&& ~~~(r.guarded f.g) ≠ 0) :
    exec (.exit f) s = .next (s.stand (afterLanes s.now (r.without (r.guarded f.g)))) := by
  refine (onRound_eq hi _).trans ?_
  dsimp only
  rw [if_neg h0, if_pos hl, exitLanes_eq, if_neg hl]

theorem exec_exit_desync (hl : r.live &&& ~~~(r.guarded f.g) = 0) (hd : r.desync = true) :
    exec (.exit f) s = scaleDesync s r (r.guarded f.g) 0 := by
  refine (onRound_eq hi _).trans ?_
  dsimp only
  rw [if_neg h0, if_neg (Classical.not_not.2 hl), if_pos hd]

variable {q : Round} (hl : r.live &&& ~~~(r.guarded f.g) = 0) (hd : r.desync = false)
  (hq : (s.drainLines (fun x => x.round == s.cur)).issuing = some q)
include hl hd hq

/-- EXIT of the last live lanes, once its round's lines have left: it waits until the round's packets are answered, and then it raises the
failure that the round has kept, or lets the lanes go. -/
theorem exec_exit_last :
    exec (.exit f) s =
      if q.sysCtr ≠ 0 then stall (s.drainLines (fun x => x.round == s.cur)) q .engine
      else q.kept.elim (exitLanes (s.drainLines (fun x => x.round == s.cur)) q (r.guarded f.g)) (fun x =>
        takeTrap (s.drainLines (fun x => x.round == s.cur)) { q with kept := none } (if x.timeout then 0x82 else 0x81) x.rankWord x.addr
          (BitVec.ofNat 64 x.cause) (r.guarded f.g)) := by
  refine (onRound_eq hi _).trans ?_
  dsimp only
  rw [if_neg h0, if_neg (Classical.not_not.2 hl), if_neg (by rw [hd]; decide), onRound_eq hq]
  by_cases hs : q.sysCtr = 0
  · rw [if_neg (by simp [hs]), if_neg (Classical.not_not.2 hs)]
    cases q.kept <;> rfl
  · rw [if_pos (by simpa using hs), if_pos hs]

end Exit

/-- A trap stands as its round's state, with its cause, its first information word and its mask. -/
theorem takeTrap_stands {s : State} {x : Round} (hi : s.issuing = some x) (r : Round) (cause : Nat) (i0 i1 i2 : Word) (m : Mask) :
    ∃ t p, takeTrap s r cause i0 i1 i2 m = .next t
      ∧ t.issuing = some { r with replies := [], remote := [], wave := 0, status := .parked p }
      ∧ p.trap = { cause := cause, index := r.ix, h := r.h, info0 := i0, info1 := i1, info2 := i2, mask := m } :=
  ⟨_, _, rfl, parkTrap_issuing hi .., rfl⟩

/-- Settles O39, by whether a lane stays live, a scale is outstanding, a packet is unanswered and a failure is kept. -/
theorem exitCompletes : Obligations.ExitCompletes := by
  intro s r f hi h0 taken without q
  refine ⟨exec_exit_some hi h0, fun hl hd => ?_, ?_⟩
  · obtain ⟨t, p, ht, hp, he⟩ := takeTrap_stands hi r 0x40 (BitVec.ofNat 64 r.fifo.length) (BitVec.ofNat 64 r.pendingMask)
      (BitVec.ofNat 64 0) taken
    exact ⟨t, p, (exec_exit_desync hi h0 hl hd).trans ht, hp, by rw [he], by rw [he], by rw [he]⟩
  · intro r1 s1 q1 hl hd hr1
    obtain ⟨c, e, h1⟩ := drainLines_issuing hi hr1
    have hlive : r1.live = r.live := by rw [h1]
    have hcur : r1.cur = r.cur := by rw [h1]
    have hx := exec_exit_last hi h0 hl hd hr1
    refine ⟨fun hin hs hk => ?_, fun hs => ?_, fun x hs hk => ?_⟩
    · have hl1 : r1.live &&& ~~~taken = 0 := by rw [hlive]; exact hl
      have hc1 : r1.cur &&& ~~~taken = 0 := by rw [hcur]; exact cur_gone hin hl
      refine ⟨?_, afterLanes_ends (r := r1.without taken) s1.now hl1 hc1⟩
      rw [hx, if_neg (Classical.not_not.2 hs), hk, Option.elim_none, exitLanes_eq, if_pos hl1]
      rfl
    · rw [hx, if_pos hs, stall_next]
    · obtain ⟨t, p, ht, hp, he⟩ := takeTrap_stands hr1 { r1 with kept := none } (if x.timeout then 0x82 else 0x81) x.rankWord x.addr
        (BitVec.ofNat 64 x.cause) taken
      rw [if_neg (Classical.not_not.2 hs), hk, Option.elim_some] at hx
      exact ⟨t, p, hx.trans ht, hp, by rw [he], by rw [he], by rw [he], by rw [he], by rw [he]⟩

end Sys2Proof.Machine
end

section
/-! PROOFS. Accesses left pending (R81, R284, R385, R389): no access that takes effect changes whether the turn leaves its own pending, so
a load that starts late is left pending, and its units take effect later. -/
namespace Sys2Proof.Machine

/-! ### The turn's choice stands while earlier accesses take effect (R389, log entry 9) -/

/-- A fold whose every step keeps the choice keeps it. -/
theorem foldl_late {α : Type} {f : State → α → State} (h : ∀ s x, (f s x).late = s.late) (l : List α) (s : State) :
    (l.foldl f s).late = s.late := by
  induction l generalizing s with
  | nil => rfl
  | cons x l ih => exact (ih (f s x)).trans (h s x)

@[simp] theorem countLeft_late (s : State) (e : StoreEntry) : (countLeft s e).late = s.late := by
  unfold countLeft
  split
  · rfl
  · split <;> rfl

@[simp] theorem drainStores_late (s : State) (p : StoreEntry → Bool) : (s.drainStores p).late = s.late := by
  unfold State.drainStores
  exact foldl_late (fun s (e : StoreEntry) => countLeft_late (s.writeBytes e.bytes) e) _ _

@[simp] theorem noteServed_late (s : State) (n core : Nat) (l : List Nat) : (s.noteServed n core l).late = s.late := rfl
@[simp] theorem sendServed_late (s : State) (n : Nat) (l : List Nat) : (s.sendServed n l).late = s.late := drainStores_late ..
@[simp] theorem sendEarlier_late (s : State) (core : Nat) (l : List Nat) : (s.sendEarlier core l).late = s.late := drainStores_late ..

@[simp] theorem pointWrite_late (s : State) (r : Round) (spad : Bool) (l : List (Nat × Byte)) : (s.pointWrite r spad l).late = s.late := by
  cases spad <;> rfl

@[simp] theorem promoteFor_late (s : State) (r : Round) (a : Access) : (s.promoteFor r a).late = s.late := by
  unfold State.promoteFor
  split
  · exact drainStores_late ..
  · rfl

theorem performPiece_late (s : State) (n : Nat) (r : Round) (a : Access) (p : Piece) : (s.performPiece n r a p).1.late = s.late := by
  unfold State.performPiece
  split
  · split
    · rfl
    · split
      · rfl
      · exact sendServed_late ..
  · dsimp only
    rw [pointWrite_late]
    split
    · rfl
    · exact sendEarlier_late ..
  · dsimp only
    rw [pointWrite_late]
    split
    · rfl
    · exact sendEarlier_late ..

theorem performPieces_late (n : Nat) (r : Round) (s : State) (a : Access) (ps : List Piece) :
    (State.performPieces n r s a ps).1.late = s.late := by
  induction ps generalizing s a with
  | nil => rfl
  | cons p ps ih => exact (ih ..).trans (performPiece_late s n r a p)

@[simp] theorem performUnits_late (s : State) (n id : Nat) (units : Option (List Nat)) : (s.performUnits n id units).late = s.late := by
  unfold State.performUnits
  split
  · next r a _ _ =>
    dsimp only
    have h := (performPieces_late n r (s.promoteFor r a) a (a.picks units).1).trans (promoteFor_late s r a)
    split
    · rfl
    · split <;> exact h
  · rfl

theorem readNow_late (s : State) (n : Nat) (spad : Bool) (l : List Nat) (x : Reader) : (s.readNow n spad l x).late = s.late := by
  unfold State.readNow
  split
  · split
    · split
      · exact performUnits_late ..
      · rfl
    · rfl
  · have h : (if spad then s else s.sendServed n l).late = s.late := by split <;> simp
    dsimp only
    split <;> exact h
  · dsimp only
    split <;> exact sendServed_late s n l
  · dsimp only
    split <;> exact sendServed_late s n l

@[simp] theorem serveReads_late (s : State) (n before : Nat) (spad : Bool) (l : List Nat) : (s.serveReads n before spad l).late = s.late := by
  unfold State.serveReads
  split
  · rfl
  · exact foldl_late (fun s (x : Reader × List Nat) => readNow_late s n spad x.2 x.1) ..

@[simp] theorem perform_late (s : State) (n id : Nat) (units : Option (List Nat)) : (s.perform n id units).late = s.late := by
  unfold State.perform
  split
  · rw [performUnits_late]
    split
    · exact serveReads_late ..
    · rfl
  · rfl

@[simp] theorem performAll_late (s : State) (p : Nat → Round → Access → Bool) : (s.performAll p).late = s.late := by
  unfold State.performAll
  exact foldl_late (fun s (x : Nat × Nat) => perform_late s x.1 x.2 none) _ _

@[simp] theorem performOn_late (s : State) (p : Nat → Round → Access → Bool) (spad : Bool) (l : List Nat) :
    (s.performOn p spad l).late = s.late := by
  unfold State.performOn
  exact foldl_late (fun s (x : Nat × Nat × Option (List Nat)) => perform_late s x.1 x.2.1 x.2.2) _ _

@[simp] theorem orderBefore_late (s : State) (n : Nat) (spad : Bool) (l : List Nat) : (s.orderBefore n spad l).late = s.late := by
  unfold State.orderBefore
  split
  · rfl
  · rw [performOn_late]
    exact performAll_late ..

/-! ### LD left pending (R81, R389) -/

theorem exec_ld (f : MForm) (s : State) : exec (.ld f) s = execLd f s := rfl

/-- A load whose turn leaves it pending has had its checks and the accesses before it, and goes no further (R389). -/
theorem exec_ld_late {s : State} {r : Round} {f : MForm} {pas : List (Nat × List Nat)}
    (hs : Starts s r [(f.a, f.lra)] (regNames f.d (szRegs f.sz)))
    (hlate : s.late = true) (hm : r.passing f.g ≠ 0)
    (ha : ∀ p ∈ offsetLanes (r.passing f.g) (arg (sources s r [(f.a, f.lra)]) 0) f.ofs,
      orderedAlign (ordSem f.ord) (szBytes f.sz) p.2 = true)
    (hx : translateLanes (s.xlat r false) (szBytes f.sz) (offsetLanes (r.passing f.g) (arg (sources s r [(f.a, f.lra)]) 0) f.ofs) = .ok pas)
    (hc : CleanLanes s pas) :
    exec (.ld f) s = leave (s.begun r f.g [(f.a, f.lra)])
      ((s.begun r f.g [(f.a, f.lra)]).orderBefore s.cur false (pas.flatMap (fun p => p.2))) [(f.a, f.lra)]
      (accessOf false .load f.d (szRegs f.sz) (r.passing f.g) (ordSem f.ord) (s.effScope r (ordScope f.ord))
        (piecesOf (szBytes f.sz) pas (fun _ => []))) := by
  have hl : (((s.begun r f.g [(f.a, f.lra)]).orderBefore (s.begun r f.g [(f.a, f.lra)]).cur false (pas.flatMap (fun p => p.2))).late
      && r.passing f.g != 0) = true := by
    rw [orderBefore_late, Bool.and_eq_true]
    exact ⟨hlate, by simpa using hm⟩
  have hc' : CleanLanes (s.begun r f.g [(f.a, f.lra)]) pas := hc
  have hx' := hx
  rw [← xlat_begun s r f.g [(f.a, f.lra)] false] at hx'
  rw [exec_ld, execLd, begin_started hs]
  dsimp only
  rw [checkLanes_pass _ _ _ _ _ ha, withPages_ok _ hx', withClean_ok _ hc']
  exact if_pos hl

/-! ### The units of a pending access (R284, R385) -/

section Units
variable {s : State} {n id : Nat} {units : Option (List Nat)} {r q : Round} {a : Access} (hr : s.rounds[n]? = some r)
  (ha : r.pending.find? (fun x => x.id == id) = some a)
include hr ha

theorem bind_pending : (s.rounds[n]?.bind (fun r => r.pending.find? (fun a => a.id == id))) = some a := by
  rw [hr]
  exact ha

/-- Units of an access take effect on the state in which its promotion has been made, and leave t and the access b; with the last of them
b delivers and is over, else it stays with the units that remain. -/
theorem performUnits_eq {t : State} {b : Access} (hgo : (a.picks units).1 ≠ [])
    (ho : State.performPieces n r (s.promoteFor r a) a (a.picks units).1 = (t, b)) (hq : t.rounds[n]? = some q) :
    s.performUnits n id units = t.setRoundAt n
      (if (a.picks units).2.isEmpty then b.deliver { q with pending := q.pending.filter (fun x => x.id != id) }
      else { q with pending := q.pending.map (fun x => if x.id == id then { b with pieces := (a.picks units).2 } else x) }) := by
  unfold State.performUnits
  rw [bind_pending hr ha, hr]
  dsimp only
  rw [if_neg (by simpa using hgo), ho, hq]

/-- A read takes effect after its round's older reads of its bytes (R284). -/
theorem perform_read (h : a.op ≠ .store) :
    s.perform n id units = (s.serveReads n id a.spad (a.bytesOn units)).performUnits n id units := by
  unfold State.perform
  rw [bind_pending hr ha]
  exact congrArg (fun t : State => t.performUnits n id units) (if_pos (bne_iff_ne.2 h))

theorem perform_store (h : a.op = .store) : s.perform n id units = s.performUnits n id units := by
  unfold State.perform
  rw [bind_pending hr ha]
  exact congrArg (fun t : State => t.performUnits n id units) (if_neg (by rw [Access.isRead, h]; decide))

end Units

/-- A unit of a load of the LS path reads what its core finds (R296). -/
theorem performPiece_load (s : State) (n : Nat) (r : Round) {a : Access} (p : Piece) (ho : a.op = .load) (hm : a.spad = false)
    (hp : a.path = 0) :
    s.performPiece n r a p = (s.noteServed n r.core p.addrs, p.addrs.map (s.coreRead r.core)) := by
  simp [State.performPiece, ho, hm, hp]

/-- A unit of a store to memory writes its bytes once its core's buffered entries to them have left (R295). -/
theorem performPiece_store (s : State) (n : Nat) (r : Round) {a : Access} {p : Piece} (ho : a.op = .store) (hm : a.spad = false)
    (hp : a.path = 0) (hb : p.b = 0) :
    s.performPiece n r a p = ((s.sendEarlier r.core p.addrs).writeBytes (p.addrs.zip p.data), p.data) := by
  simp [State.performPiece, State.pointWrite, Piece.stored, ho, hm, hp, hb]

theorem step_perform {s : State} {n id : Nat} {units : Option (List Nat)} {ts : List Turn} (h : s.agenda = .perform n id units :: ts) :
    step s = .next (({ s with agenda := ts } : State).perform n id units) := by
  rw [step, runStep, h]
  rfl

/-- Settles O23: a late load is left pending, and its units take effect through performUnits. -/
theorem pendingAccesses : Obligations.PendingAccesses := by
  refine ⟨?_, ?_, ?_, fun s n r a p => performPiece_load s n r p, fun s n r a p => performPiece_store s n r,
    fun s n id units ts => step_perform⟩
  · intro s r f pas z m fs b addrs e a write hs hlate hm ha hx hc hf
    rw [exec_ld_late hs hlate hm ha hx hc]
    exact finish_done (begun_issuing hs _ _) hf
  · intro s n id units r a hr ha hgo out q hq
    have h := performUnits_eq hr ha hgo (t := out.1) (b := out.2) rfl hq
    refine ⟨fun hstay => ?_, fun hstay => ?_⟩
    · rw [h, if_pos (by simpa using hstay)]
    · rw [h, if_neg (by simpa using hstay)]
  · exact fun s n id units r a hr ha => ⟨perform_read hr ha, perform_store hr ha⟩

end Sys2Proof.Machine
end

section
/-! PROOFS. Loads (R151, R154, R284, R291, R296, R298, R299): past its checks a load whose turn does not leave it pending reads at once. -/
namespace Sys2Proof.Machine

/-- An access takes effect at once where its turn leaves none pending (R389). -/
theorem not_left {s : State} {m : Mask} (h : s.late = false) : ¬(s.late && m != 0) = true := by
  simp [h]

section Loads
variable {s : State} {r : Round} {f : MForm}

/-- LD past its checks (R291, R298). -/
theorem exec_ld_now {pas : List (Nat × List Nat)} :
    let fs := [(f.a, f.lra)]
    let b := s.begun r f.g fs
    let addrs := offsetLanes (r.passing f.g) (arg (sources s r fs) 0) f.ofs
    let bytes := pas.flatMap (fun p => p.2)
    let e1 := b.orderBefore s.cur false bytes
    let e2 := if ordSem f.ord = 3 then e1.promote r (s.effScope r (ordScope f.ord)) else e1
    let e := (e2.capture s.cur false bytes).noteServed s.cur r.core bytes
    Starts s r fs (regNames f.d (szRegs f.sz)) → s.late = false →
      (∀ p ∈ addrs, orderedAlign (ordSem f.ord) (szBytes f.sz) p.2 = true) →
      translateLanes (s.xlat r false) (szBytes f.sz) addrs = .ok pas → CleanLanes s pas →
        exec (.ld f) s = finish b e fs
          (writeRun (r.passing f.g) f.d (loadedRegs (szRegs f.sz) (fun l => (pasOf pas l).map (e.coreRead r.core)))) := by
  intro fs b addrs bytes e1 e2 e hs hlate ha hx hc
  have hb : CleanLanes b pas := hc
  rw [← xlat_begun s r f.g fs false] at hx
  rw [exec_ld, execLd, begin_started hs]
  dsimp only
  rw [checkLanes_pass _ _ _ _ _ ha, withPages_ok _ hx, withClean_ok _ hb]
  exact if_neg (not_left (by rw [orderBefore_late]; exact hlate))

theorem exec_lds (f : MForm) (s : State) : exec (.lds f) s = execLds f s := rfl

/-- LDS past its checks (R154). -/
theorem exec_lds_now :
    let z := szBytes f.sz
    let fs := [(f.a, f.lra)]
    let b := s.begun r f.g fs
    let addrs := offsetLanes (r.passing f.g) (arg (sources s r fs) 0) f.ofs
    let lanes := spadLanesOf z addrs
    let bytes := lanes.flatMap (fun p => p.2)
    let e1 := b.orderBefore s.cur true bytes
    Starts s r fs (regNames f.d (szRegs f.sz)) → s.late = false → SpadOk s r z addrs →
      exec (.lds f) s = finish b (e1.capture s.cur true bytes) fs
        (writeRun (r.passing f.g) f.d (loadedRegs (szRegs f.sz) (fun l => (pasOf lanes l).map (Memory.read (e1.teamOf r).spad)))) := by
  intro z fs b addrs lanes bytes e1 hs hlate ha
  have hb : SpadOk b (r.noted f.g fs) z addrs := ha
  rw [exec_lds, execLds, begin_started hs]
  dsimp only
  rw [checkSpad_ok _ hb]
  exact if_neg (not_left (by rw [orderBefore_late]; exact hlate))

theorem exec_ldh (f : MForm) (s : State) : exec (.ldh f) s = execLdh f s := rfl

/-- LDH past its checks, with the round's host writes gone and a trained link (R299, R338). -/
theorem exec_ldh_now :
    let z := szBytes f.sz
    let fs := [(f.a, f.lra)]
    let b := s.begun r f.g fs
    let e : State := { b.issueHostWrites s.cur with free := s.free + 1 }
    Starts s r fs (regNames f.d 1) →
      (∀ p ∈ offsetLanes (r.passing f.g) (arg (sources s r fs) 0) f.ofs,
        p.2.toNat % min z 8 = 0 ∧ (hostTranslate (s.partOf r) false p.2).isSome = true) →
      (b.issueHostWrites s.cur).hostQuiet s.cur = true → s.linkReady (linkOf (s.teamOf r).part) = true →
        exec (.ldh f) s = finish b e fs (writeRun (r.passing f.g) f.d
          (loadedRegs 1 (fun l => (List.range z).map (fun i => Config.hostByte s.free (8 * l + i))))) := by
  intro z fs b e hs ha hq hl
  have hp : ∀ p ∈ offsetLanes (r.passing f.g) (arg (sources s r fs) 0) f.ofs,
      (hostTranslate (b.partOf (r.noted f.g fs)) false p.2).isSome = true := fun p hp => (ha p hp).2
  have hl' : (b.issueHostWrites s.cur).linkReady (linkOf (b.teamOf (r.noted f.g fs)).part) = true := hl
  rw [exec_ldh, execLdh, begin_started hs]
  dsimp only
  rw [checkLanes_pass _ _ _ _ _ (fun p hp => beq_iff_eq.2 (ha p hp).1), checkLanes_pass _ _ _ _ _ hp]
  exact if_neg (by rw [begun_cur, hq, hl']; decide)

end Loads

/-- Settles O20, a load at a time: past its checks each reads at once, and then its rows fit. -/
theorem loadsComplete : Obligations.LoadsComplete := by
  intro s r f z m fs b addrs
  refine ⟨?_, ?_, ?_⟩
  · intro pas bytes e1 e2 e write hs hlate ha hx hc hf
    exact (exec_ld_now hs hlate ha hx hc).trans (finish_done (begun_issuing hs _ _) hf)
  · intro lanes bytes e1 e write hs hlate ha hf
    exact (exec_lds_now hs hlate ha).trans (finish_done (begun_issuing hs _ _) hf)
  · intro e write hs ha hq hl hf
    exact (exec_ldh_now hs ha hq hl).trans (finish_done (begun_issuing hs _ _) hf)

end Sys2Proof.Machine
end

section
/-! PROOFS. Stores (R151, R154, R291, R295 to R297, R299): a release changes no turn's choice, and past its checks and its release a store
whose turn does not leave it pending writes at once. -/
namespace Sys2Proof.Machine

/-! ### The turn's choice stands while a release takes effect (R297, R371, R389) -/

@[simp] theorem sendPacket_late (s : State) (n : Nat) (w e : Word) (body : Epoch → PacketBody) (f : Epoch → Epoch) (range lane : Nat)
    (counted : Bool) (st : FlightState) : (s.sendPacket n w e body f range lane counted st).late = s.late := by
  unfold State.sendPacket; split <;> rfl

@[simp] theorem drainLine_late (s : State) (x : WcLine) : (s.drainLine x).late = s.late := by
  unfold State.drainLine
  dsimp only
  split
  · rfl
  · exact sendPacket_late ..

@[simp] theorem drainLines_late (s : State) (p : WcLine → Bool) : (s.drainLines p).late = s.late :=
  foldl_late drainLine_late _ s

@[simp] theorem releaseStores_late (s : State) (n scope : Nat) : (s.releaseStores n scope).late = s.late := by
  unfold State.releaseStores
  split
  · rfl
  · split
    · rfl
    · dsimp only
      split
      · rfl
      · split <;> exact drainStores_late ..

@[simp] theorem afterRelease_late (s : State) (r : Round) (scope : Nat) (fence : Bool) : (s.afterRelease r scope fence).late = s.late := by
  have hl : (if fence || s.effScope r scope = 6 then
      (s.releaseStores s.cur (s.effScope r scope)).drainLines (fun x => x.round == s.cur)
      else s.releaseStores s.cur (s.effScope r scope)).late = s.late := by
    split <;> simp
  unfold State.afterRelease
  dsimp only
  split <;> exact hl

@[simp] theorem semReleased_late (s : State) (r : Round) (rel : Bool) (scope : Nat) : (s.semReleased r rel scope).late = s.late := by
  cases rel
  · rfl
  · exact afterRelease_late ..

/-! ### Stores past their checks -/

section Stores
variable {s : State} {r : Round} {f : MForm}

/-- What a release waits for does not depend on what the round notes as it starts. -/
theorem begun_releases {g : Guard} {fs : List Field} {sem scope : Nat} (h : sem = 2 → (s.begun r g fs).Releases r scope false) :
    (sem == 2) = true → (s.begun r g fs).Releases (r.noted g fs) scope false :=
  fun hsem => h (beq_iff_eq.1 hsem)

theorem exec_st (f : MForm) (s : State) : exec (.st f) s = execSt f s := rfl

/-- ST past its checks and its release (R291, R297). -/
theorem exec_st_now {pas : List (Nat × List Nat)} :
    let z := szBytes f.sz
    let fs := (f.a, f.lra) :: runFields f.d (szRegs f.sz) f.lrd
    let b := s.begun r f.g fs
    let xs := sources s r fs
    let addrs := offsetLanes (r.passing f.g) (arg xs 0) f.ofs
    let e1 := b.semReleased r (ordSem f.ord == 2) (ordScope f.ord)
    Starts s r fs [] → (∀ p ∈ addrs, orderedAlign (ordSem f.ord) z p.2 = true) →
      translateLanes (s.xlat r true) z addrs = .ok pas → (ordSem f.ord = 2 → b.Releases r (ordScope f.ord) false) →
        exec (.st f) s =
          finish b (e1.store r z (pas.map (fun p => placeBytes p.2 (storedBytes z (xs.drop 1) p.1)))) fs (fun q => q) := by
  intro z fs b xs addrs e1 hs ha hx hrel
  rw [← xlat_begun s r f.g fs true] at hx
  rw [exec_st, execSt, begin_started hs]
  dsimp only
  rw [checkLanes_pass _ _ _ _ _ ha, withPages_ok _ hx, withSemRelease_ok _ (begun_issuing hs f.g fs) (begun_releases hrel)]
  rfl

theorem exec_sts (f : MForm) (s : State) : exec (.sts f) s = execSts f s := rfl

/-- STS past its checks and its release (R154, R157). -/
theorem exec_sts_now :
    let z := szBytes f.sz
    let fs := (f.a, f.lra) :: runFields f.d (szRegs f.sz) f.lrd
    let b := s.begun r f.g fs
    let xs := sources s r fs
    let addrs := offsetLanes (r.passing f.g) (arg xs 0) f.ofs
    let e1 := b.semReleased r (ordSem f.ord == 2) (ordScope f.ord)
    Starts s r fs [] → s.late = false → SpadOk s r z addrs → (ordSem f.ord = 2 → b.Releases r (ordScope f.ord) false) →
      exec (.sts f) s = finish b (e1.storeSpad r (spadBytes z addrs (xs.drop 1))) fs (fun q => q) := by
  intro z fs b xs addrs e1 hs hlate ha hrel
  have hb : SpadOk b (r.noted f.g fs) z addrs := ha
  rw [exec_sts, execSts, begin_started hs]
  dsimp only
  rw [checkSpad_ok _ hb, withSemRelease_ok _ (begun_issuing hs f.g fs) (begun_releases hrel)]
  exact if_neg (not_left (by rw [semReleased_late]; exact hlate))

theorem exec_sth (f : MForm) (s : State) : exec (.sth f) s = execSth f s := rfl

/-- STH past its checks and its release (R285, R299). -/
theorem exec_sth_now :
    let z := szBytes f.sz
    let fs := [(f.a, f.lra), (f.d, f.lrd)]
    let b := s.begun r f.g fs
    let xs := sources s r fs
    let addrs := offsetLanes (r.passing f.g) (arg xs 0) f.ofs
    let e1 := b.semReleased r (ordSem f.ord == 2) (ordScope f.ord)
    let e : State := { e1 with hostq := e1.hostq ++ addrs.filterMap (fun p => (hostTranslate (s.partOf r) true p.2).map (fun a =>
      ({ round := s.cur, part := (s.teamOf r).part, addr := a, data := storedBytes z (xs.drop 1) p.1 } : HostWrite))) }
    Starts s r fs [] → (∀ p ∈ addrs, p.2.toNat % min z 8 = 0 ∧ (hostTranslate (s.partOf r) true p.2).isSome = true) →
      (ordSem f.ord = 2 → b.Releases r (ordScope f.ord) false) → exec (.sth f) s = finish b e fs (fun q => q) := by
  intro z fs b xs addrs e1 e hs ha hrel
  have hp : ∀ p ∈ addrs, (hostTranslate (b.partOf (r.noted f.g fs)) true p.2).isSome = true := fun p hp => (ha p hp).2
  rw [exec_sth, execSth, begin_started hs]
  dsimp only
  rw [checkLanes_pass _ _ _ _ _ (fun p hp => beq_iff_eq.2 (ha p hp).1), checkLanes_pass _ _ _ _ _ hp,
    withSemRelease_ok _ (begun_issuing hs f.g fs) (begun_releases hrel)]
  rfl

theorem exec_stp (h : RForm) (s : State) : exec (.stp h) s = execStp h s := rfl

/-- STP past its checks (R295). -/
theorem exec_stp_now {h : RForm} {pas : List (Nat × List Nat)} :
    let z := 2 ^ h.cmp.toNat
    let m := r.passing h.g
    let fs := [rA h, rB h, (h.d, false)]
    let b := s.begun r h.g fs
    let xs := sources s r fs
    let bytes := (pairUp pas).flatMap (fun p =>
      placeBytes p.2.1 (storedBytes z (xs.drop 2) p.1) ++ placeBytes p.2.2 (storedBytes z (xs.drop 2) p.1))
    let at_ := bytes.map (fun x => x.1)
    Starts s r fs [] → s.late = false →
      (∀ l ∈ lanesOf m, (laneOf (arg xs 0) l).toNat % z = 0 ∧ (laneOf (arg xs 1) l).toNat % z = 0) →
      translateLanes (s.xlat r true) z ((lanesOf m).flatMap (fun l => [(l, laneOf (arg xs 0) l), (l, laneOf (arg xs 1) l)])) = .ok pas →
      (∀ q ∈ pairUp pas, homeDie (q.2.1.headD 0) = homeDie (q.2.2.headD 0)) →
        exec (.stp h) s = finish b (((b.orderBefore s.cur false at_).sendEarlier r.core at_).writeBytes bytes) fs (fun q => q) := by
  intro z m fs b xs bytes at_ hs hlate ha hx hd
  have hboth : ∀ p ∈ (lanesOf m).map (fun l =>
      (l, if (laneOf (arg xs 0) l).toNat % z == 0 then laneOf (arg xs 1) l else laneOf (arg xs 0) l)),
      (p.2.toNat % z == 0) = true := by
    intro p hp
    obtain ⟨l, hl, rfl⟩ := List.mem_map.1 hp
    obtain ⟨h0, h1⟩ := ha l hl
    simp [h0, h1]
  have hdies : ∀ p ∈ laneValues m (arg xs 0),
      ((pairUp pas).all fun q => q.1 != p.1 || homeDie (q.2.1.headD 0) == homeDie (q.2.2.headD 0)) = true := by
    intro p _
    rw [List.all_eq_true]
    intro q hq
    exact Bool.or_eq_true_iff.2 (.inr (beq_iff_eq.2 (hd q hq)))
  rw [← xlat_begun s r h.g fs true] at hx
  rw [exec_stp, execStp, begin_started hs]
  dsimp only
  rw [checkLanes_pass _ _ _ _ _ hboth, withPages_ok _ hx, checkLanes_pass _ _ _ _ _ hdies]
  exact if_neg (not_left (by rw [orderBefore_late]; exact hlate))

end Stores

/-- Settles O21, a store at a time: past its checks and its release each writes at once, and then its rows fit. -/
theorem storesComplete : Obligations.StoresComplete := by
  intro s r f h z fs b xs addrs e1
  refine ⟨?_, ?_, ?_, ?_⟩
  · intro pas e hs ha hx hrel hf
    exact (exec_st_now hs ha hx hrel).trans (finish_done (begun_issuing hs _ _) hf)
  · intro e hs hlate ha hrel hf
    exact (exec_sts_now hs hlate ha hrel).trans (finish_done (begun_issuing hs _ _) hf)
  · intro fs b xs addrs e1 e hs ha hrel hf
    exact (exec_sth_now hs ha hrel).trans (finish_done (begun_issuing hs _ _) hf)
  · intro pas z m fs b xs bytes at_ e hs hlate ha hx hd hf
    exact (exec_stp_now hs hlate ha hx hd).trans (finish_done (begun_issuing hs _ _) hf)

end Sys2Proof.Machine
end

section
/-! PROOFS. The tag table (R158 to R161): in a team with a share each of its instructions acts once the round's acquires have taken effect. -/
namespace Sys2Proof.Machine

/-- A team with a share goes on. -/
theorem withShare_ok {s : State} {r : Round} {m : Mask} (k : Res) (ht : (s.teamOf r).tagSets ≠ 0) : withShare s r m k = k := by
  simp [withShare, ht]

theorem exec_tlook (f : RForm) (s : State) : exec (.tlook f) s = execTlook f s := rfl
theorem exec_tset (f : RForm) (s : State) : exec (.tset f) s = execTset f s := rfl
theorem exec_tclr (f : RForm) (s : State) : exec (.tclr f) s = execTclr f s := rfl

section TagTable
variable {s0 : State} {r : Round} {f : RForm} (ht : ((s0.settleAcquires s0.cur).teamOf r).tagSets ≠ 0)
include ht

/-- TLOOK of a team with a share (R160). -/
theorem exec_tlook_share :
    let s := s0.settleAcquires s0.cur
    let b := s.begun r f.g [rA f]
    let out := tagLookLanes (s.teamOf r) (laneValues (r.passing f.g) (arg (sources s r [rA f]) 0))
    Starts s r [rA f] (regNames f.d 1) →
      exec (.tlook f) s0 = finish b (b.setTeam r.team out.1) [rA f] (writeOperand (r.passing f.g) f.d (oldLanes out.2)) := by
  intro s b out hs
  have hb : (b.teamOf (r.noted f.g [rA f])).tagSets ≠ 0 := ht
  rw [exec_tlook, execTlook, beginSettled, begin_started hs]
  dsimp only
  exact withShare_ok _ hb

/-- TSET of a team with a share, at slots of their keys' sets (R160). -/
theorem exec_tset_share :
    let s := s0.settleAcquires s0.cur
    let fs := [rA f, rB f]
    let b := s.begun r f.g fs
    let xs := sources s r fs
    Starts s r fs [] →
      (∀ l ∈ lanesOf (r.passing f.g), (laneOf (arg xs 1) l).toNat < 4 * (s.teamOf r).tagSets
        ∧ (laneOf (arg xs 1) l).toNat / 4 = tagSet (s.teamOf r).tagSets (laneOf (arg xs 0) l)) →
        exec (.tset f) s0 = finish b (b.setTeam r.team
          ((lanesOf (r.passing f.g)).foldl (fun t l => tagInstall t (laneOf (arg xs 0) l) (laneOf (arg xs 1) l).toNat) (s.teamOf r)))
          fs (fun q => q) := by
  intro s fs b xs hs ha
  have hb : (b.teamOf (r.noted f.g fs)).tagSets ≠ 0 := ht
  have hslots : ∀ p ∈ laneValues (r.passing f.g) (arg xs 1),
      (decide (p.2.toNat < 4 * (b.teamOf (r.noted f.g fs)).tagSets)
        && p.2.toNat / 4 == tagSet (b.teamOf (r.noted f.g fs)).tagSets (laneOf (arg xs 0) p.1)) = true := by
    intro p hp
    obtain ⟨l, hl, rfl⟩ := List.mem_map.1 hp
    obtain ⟨hlt, hset⟩ := ha l hl
    exact Bool.and_eq_true_iff.2 ⟨decide_eq_true hlt, beq_iff_eq.2 hset⟩
  rw [exec_tset, execTset, beginSettled, begin_started hs]
  dsimp only
  rw [withShare_ok _ hb]
  exact checkLanes_pass _ _ _ _ _ hslots

/-- TCLR of a team with a share, at slots of it (R160). -/
theorem exec_tclr_share :
    let s := s0.settleAcquires s0.cur
    let b := s.begun r f.g [rA f]
    let x := arg (sources s r [rA f]) 0
    Starts s r [rA f] [] → (∀ l ∈ lanesOf (r.passing f.g), (laneOf x l).toNat < 4 * (s.teamOf r).tagSets) →
      exec (.tclr f) s0 = finish b (b.setTeam r.team
        ((lanesOf (r.passing f.g)).foldl (fun t l => tagClear t (laneOf x l).toNat) (s.teamOf r))) [rA f] (fun q => q) := by
  intro s b x hs ha
  have hb : (b.teamOf (r.noted f.g [rA f])).tagSets ≠ 0 := ht
  have hslots : ∀ p ∈ laneValues (r.passing f.g) x, decide (p.2.toNat < 4 * (b.teamOf (r.noted f.g [rA f])).tagSets) = true := by
    intro p hp
    obtain ⟨l, hl, rfl⟩ := List.mem_map.1 hp
    exact decide_eq_true (ha l hl)
  rw [exec_tclr, execTclr, beginSettled, begin_started hs]
  dsimp only
  rw [withShare_ok _ hb]
  exact checkLanes_pass _ _ _ _ _ hslots

end TagTable

/-- Settles O25, an instruction at a time: in a team with a share each acts on its lanes in order, and then its rows fit. -/
theorem tagTableCompletes : Obligations.TagTableCompletes := by
  intro s0 r f s ht m
  refine ⟨?_, ?_, ?_⟩
  · intro b x out hs hf
    exact (exec_tlook_share ht hs).trans (finish_done (begun_issuing hs _ _) hf)
  · intro b xs e hs ha hf
    exact (exec_tset_share ht hs ha).trans (finish_done (begun_issuing hs _ _) hf)
  · intro b x e hs ha hf
    exact (exec_tclr_share ht hs ha).trans (finish_done (begun_issuing hs _ _) hf)

end Sys2Proof.Machine
end

section
/-! PROOFS. Copies (R81, R84, R163 to R166): past their checks CPY, CPYR and CPYI add one member to the open batch, and CSEAL seals it. -/
namespace Sys2Proof.Machine

section Issue
variable {s : State} {r : Round} {f : PForm}

theorem exec_cpy (f : PForm) (s : State) : exec (.cpy f) s = execCpy f s := rfl

/-- CPY past its checks (R163). -/
theorem exec_cpy_enlists :
    let fs := [(f.a, f.lra), (f.b, f.lrb), (f.c, f.lrc)]
    let b := s.begun r f.g fs
    let xs := sources s r fs
    let dst := laneOf (arg xs 0) 0
    let src := laneOf (arg xs 1) 0
    let n := (laneOf (arg xs 2) 0).toNat
    Starts s r fs [] → r.passing f.g ≠ 0 → n ≤ 2 ^ 30 →
      (f.cmp.toNat % 4 = 1 → AreaOk s r dst n) → (f.cmp.toNat / 4 = 1 → AreaOk s r src n) →
        exec (.cpy f) s = finish b { b with nextId := s.nextId + 1 } fs
          (fun q => q.enlist s.nextId (.copy (f.cmp.toNat / 4) src (f.cmp.toNat % 4) dst n)) := by
  intro fs b xs dst src n hs hm hn hd hsrc
  have hsides : ∀ x ∈ [(f.cmp.toNat % 4, dst, n), (f.cmp.toNat / 4, src, n)], x.1 = 1 → AreaOk b (r.noted f.g fs) x.2.1 x.2.2 :=
    List.forall_mem_cons.2 ⟨hd, List.forall_mem_singleton.2 hsrc⟩
  rw [exec_cpy, execCpy, begin_started hs]
  dsimp only
  rw [if_neg hm, if_neg (Nat.not_lt.2 hn)]
  exact sides_ok _ hsides

theorem exec_cpyr (f : PForm) (s : State) : exec (.cpyr f) s = execCpyr f s := rfl

/-- What CPYR does once its checks have passed, by where its destination round stands (R84, R164). -/
def cpyrTo (f : PForm) (s : State) (r : Round) (w : Work) (n : Option Nat) : Res :=
  let fs := [(f.b, f.lrb), (f.c, f.lrc)]
  let count := f.cmp.toNat + 1
  let e : State := { s with nextId := s.nextId + 1 }
  match n with
  | none => finish s e fs (fun q => q.enlist s.nextId w)
  | some n =>
    if ((List.range count).map (fun k => f.a.toNat + k)).any (fun k => ((s.rounds[n]?.map Round.landing).getD []).contains k) then
      stall s r .scoreboard
    else if n = s.cur then finish s e fs (fun q => (allocate f.a.toNat count q).enlist s.nextId w)
    else
      match s.rounds[n]? with
      | none => finish s e fs (fun q => q.enlist s.nextId w)
      | some q =>
        if q.status == .ended then finish s e fs (fun q => q.enlist s.nextId w)
        else if s.rowsFit n (allocate f.a.toNat count q) then
          finish s (e.setRoundAt n (allocate f.a.toNat count q)) fs (fun q => q.enlist s.nextId w)
        else stall s r (.rows n (allocate f.a.toNat count q).rows)

/-- CPYR past its checks (R164). -/
theorem exec_cpyr_checked :
    let fs := [(f.b, f.lrb), (f.c, f.lrc)]
    let b := s.begun r f.g fs
    let xs := sources s r fs
    let t := (laneOf (arg xs 1) 0).toNat
    let count := f.cmp.toNat + 1
    Starts s r fs [] → r.passing f.g ≠ 0 → t < (s.teamOf r).kernel.rounds →
      (f.ls.toNat = 1 → ∀ p ∈ laneValues (r.passing f.g) (arg xs 0), (s.teamOf r).shadowed p.2.toNat (8 * count) = false
        ∧ (s.teamOf r).holds p.2.toNat (8 * count) = true) →
        exec (.cpyr f) s = cpyrTo f b (r.noted f.g fs) (.regs f.ls.toNat (arg xs 0) (r.passing f.g) f.a.toNat count t)
          (b.roundOf r.team t) := by
  intro fs b xs t count hs hm ht ha
  have hround : ¬(b.teamOf (r.noted f.g fs)).kernel.rounds ≤ t := Nat.not_le.2 ht
  have hshadow : ∀ p ∈ (if f.ls.toNat = 1 then laneValues (r.passing f.g) (arg xs 0) else []),
      (b.teamOf (r.noted f.g fs)).shadowed p.2.toNat (8 * count) = false := by
    intro p hp
    split at hp
    · next hk => exact (ha hk p hp).1
    · cases hp
  have hholds : ∀ p ∈ laneValues (r.passing f.g) (arg xs 0),
      (f.ls.toNat != 1 || (b.teamOf (r.noted f.g fs)).holds p.2.toNat (8 * count)) = true := by
    intro p hp
    by_cases hk : f.ls.toNat = 1
    · exact Bool.or_eq_true_iff.2 (.inr (ha hk p hp).2)
    · exact Bool.or_eq_true_iff.2 (.inl (bne_iff_ne.2 hk))
  rw [exec_cpyr, execCpyr, begin_started hs]
  dsimp only
  rw [if_neg hm, if_neg hround, checkShadow_ok _ hshadow, checkLanes_pass _ _ _ _ _ hholds]
  rfl

/-- Names that a round has not to write yet hold nothing back. -/
theorem none_landing {b : State} {n : Nat} {q : Round} {names : List Nat} (hq : b.rounds[n]? = some q) (h : ∀ k ∈ names, k ∉ q.landing) :
    ¬names.any (fun k => ((b.rounds[n]?.map Round.landing).getD []).contains k) = true := by
  rw [hq]
  simpa using h

section To
variable {w : Work} {n : Nat} {q : Round}

/-- CPYR to a round that its team has no more (R164). -/
theorem cpyrTo_none : cpyrTo f s r w none = finish s { s with nextId := s.nextId + 1 } [(f.b, f.lrb), (f.c, f.lrc)]
    (fun q => q.enlist s.nextId w) := rfl

/-- CPYR to its own round (R164). -/
theorem cpyrTo_own (hq : s.issuing = some q)
    (hk : ∀ k ∈ (List.range (f.cmp.toNat + 1)).map (fun k => f.a.toNat + k), k ∉ q.landing) :
    cpyrTo f s r w (some s.cur) = finish s { s with nextId := s.nextId + 1 } [(f.b, f.lrb), (f.c, f.lrc)]
      (fun q => (allocate f.a.toNat (f.cmp.toNat + 1) q).enlist s.nextId w) := by
  unfold cpyrTo
  exact (if_neg (none_landing hq hk)).trans (if_pos rfl)

/-- CPYR to another round of the team that has not ended (R164). -/
theorem cpyrTo_other (hn : n ≠ s.cur) (hq : s.rounds[n]? = some q)
    (hk : ∀ k ∈ (List.range (f.cmp.toNat + 1)).map (fun k => f.a.toNat + k), k ∉ q.landing)
    (he : q.status ≠ .ended) (hrows : s.rowsFit n (allocate f.a.toNat (f.cmp.toNat + 1) q) = true) :
    cpyrTo f s r w (some n) =
      finish s (({ s with nextId := s.nextId + 1 } : State).setRoundAt n (allocate f.a.toNat (f.cmp.toNat + 1) q))
        [(f.b, f.lrb), (f.c, f.lrc)] (fun q => q.enlist s.nextId w) := by
  have he' : ¬(q.status == .ended) = true := by simpa using he
  unfold cpyrTo
  dsimp only
  rw [if_neg (none_landing hq hk), if_neg hn, hq]
  exact (if_neg he').trans (if_pos hrows)

end To

theorem exec_cpyi (f : PForm) (s : State) : exec (.cpyi f) s = execCpyi f s := rfl

/-- CPYI past its checks, the descriptor read as by a plain LDS (R157, R165). -/
theorem exec_cpyi_enlists :
    let fs := [(f.a, f.lra)]
    let b := s.begun r f.g fs
    let a := laneOf (arg (sources s r fs) 0) 0
    let e1 := b.readSpadNow (spadRange a 64)
    let l := (spadRange a 64).map (Memory.read (e1.teamOf r).spad)
    let d := readInterleave l
    let unpack := f.cmp.getLsbD 0
    Starts s r fs [] → r.passing f.g ≠ 0 → a.toNat % 64 = 0 → AreaOk s r a 64 → interleaveOk l = true →
      (d.dstKind = 1 → AreaOk s r d.dst (if unpack then d.plain else d.woven)) →
      (d.srcKind = 1 → AreaOk s r d.src (if unpack then d.woven else d.plain)) →
        exec (.cpyi f) s = finish b { e1 with nextId := e1.nextId + 1 } fs (fun q => q.enlist e1.nextId (.interleave unpack d)) := by
  intro fs b a e1 l d unpack hs hm hal ha hok hd hsrc
  have hb : AreaOk b (r.noted f.g fs) a 64 := ha
  have hsides : ∀ x ∈ [(d.dstKind, d.dst, if unpack then d.plain else d.woven), (d.srcKind, d.src, if unpack then d.woven else d.plain)],
      x.1 = 1 → AreaOk b (r.noted f.g fs) x.2.1 x.2.2 :=
    List.forall_mem_cons.2 ⟨hd, List.forall_mem_singleton.2 hsrc⟩
  have hl : ¬(!interleaveOk l) = true := by simp [hok]
  rw [exec_cpyi, execCpyi, begin_started hs]
  dsimp only
  rw [if_neg hm, if_neg (by simpa using hal), withArea_ok _ hb]
  exact (if_neg hl).trans (sides_ok _ hsides)

theorem exec_cseal (h : RForm) (s : State) : exec (.cseal h) s = execCseal h s := rfl

/-- CSEAL of a round with fewer than 64 unfinished batches (R166). -/
theorem exec_cseal_seals {h : RForm} (hs : Starts s r [] (regNames h.d 1)) (hm : r.passing h.g ≠ 0) (hu : r.unfinished ≠ 64) :
    exec (.cseal h) s = finish (s.begun r h.g []) (s.begun r h.g []) [] (fun q =>
      writeOperand (r.passing h.g) h.d (tab (fun _ => BitVec.ofNat 64 ((q.last + 1) % 2 ^ 16)))
        (Round.prune { q with
          last := (q.last + 1) % 2 ^ 16
          sealed := q.sealed ++ [{ q.openBatch with num := (q.last + 1) % 2 ^ 16 }]
          openBatch := { num := 0, members := [], fault := none, reported := false } })) := by
  rw [exec_cseal, execCseal, begin_started hs, if_neg hm]
  exact if_neg hu

end Issue

/-- Settles O26, a copy at a time: past its checks each adds its member, or seals the batch, and then its rows fit. -/
theorem copiesIssue : Obligations.CopiesIssue := by
  intro s r f h m
  refine ⟨?_, ?_, ?_, ?_⟩
  · intro fs b xs dst src n e write hs hm hn hd hsrc hf
    exact (exec_cpy_enlists hs hm hn hd hsrc).trans (finish_done (begun_issuing hs _ _) hf)
  · intro fs b xs t count names e w here there hs hm ht ha
    have hi := begun_issuing hs f.g fs
    have hx : exec (.cpyr f) s = cpyrTo f b (r.noted f.g fs) w (b.roundOf r.team t) := exec_cpyr_checked hs hm ht ha
    refine ⟨fun ho hk hf => ?_, fun n q ho hn hq hk he hrows hf => ?_, fun ho hf => ?_⟩
    · rw [ho] at hx
      exact hx.trans ((cpyrTo_own (s := b) hi hk).trans (finish_done hi hf))
    · rw [ho] at hx
      exact hx.trans ((cpyrTo_other (s := b) hn hq hk he hrows).trans (finish_done hi hf))
    · rw [ho] at hx
      exact hx.trans (cpyrTo_none.trans (finish_done hi hf))
  · intro fs b a e1 l d unpack e write hs hm hal ha hok hd hsrc hf
    exact (exec_cpyi_enlists hs hm hal ha hok hd hsrc).trans (finish_done (begun_issuing hs _ _) hf)
  · intro b write hs hm hu hf
    exact (exec_cseal_seals hs hm hu).trans (finish_done (begun_issuing hs _ _) hf)

end Sys2Proof.Machine
end

section
/-! PROOFS. Waits for batches (R167, R170, R302): a wait whose batches have settled shows what they wrote, and then completes or reports the
oldest record. -/
namespace Sys2Proof.Machine

/-- The state in which a wait's round finds on its other paths what its CP and TX paths find (R167, R302). -/
def State.waited (s : State) : State := (s.pushTx s.cur).shows s.cur [1, 2] otherPaths

/-- The batches of a round with that of a number reported (R167). -/
def reportedIn (num : Nat) (bs : List Batch) : List Batch := bs.map (fun x => if x.num == num then { x with reported := true } else x)

section Report
variable {s : State} {q : Round} {fs : List Field} {m : Mask} {named : Round → List Batch} (hq : s.waited.issuing = some q)
include hq

/-- Nothing to report: the wait completes (R167). -/
theorem reportOr_none (h : q.oldestFault (named q) = none) : reportOr s fs m named = finish s s.waited fs Round.prune := by
  refine (onRound_eq hq _).trans ?_
  rw [h]
  rfl

/-- A record to report: COPY_FAULT with the batch, the address and the cause (R167, R170). -/
theorem reportOr_some {x : Batch} {y : FaultRec} (h : q.oldestFault (named q) = some x) (hy : x.fault = some y) :
    reportOr s fs m named =
      takeTrap (s.waited.setRound { q with sealed := reportedIn x.num q.sealed }) { q with sealed := reportedIn x.num q.sealed } 0x23
        (BitVec.ofNat 64 (x.num + 2 ^ 16 * y.kind)) y.addr (BitVec.ofNat 64 y.cause) m := by
  refine (onRound_eq hq _).trans ?_
  rw [h]
  dsimp only
  rw [hy]
  rfl

/-- What the report leaves: the round parked with its record, the batch's record reported. -/
theorem reportOr_reports {x : Batch} {y : FaultRec} (h : q.oldestFault (named q) = some x) (hy : x.fault = some y) :
    ∃ t p z, reportOr s fs m named = .next t ∧ t.issuing = some z ∧ z.status = .parked p ∧ p.trap.cause = 0x23
      ∧ p.trap.info0 = BitVec.ofNat 64 (x.num + 2 ^ 16 * y.kind) ∧ p.trap.info1 = y.addr ∧ p.trap.info2 = BitVec.ofNat 64 y.cause
      ∧ z.sealed = reportedIn x.num q.sealed := by
  obtain ⟨t, p, ht, hz, he⟩ := takeTrap_stands (State.issuing_setRound hq { q with sealed := reportedIn x.num q.sealed })
    { q with sealed := reportedIn x.num q.sealed } 0x23 (BitVec.ofNat 64 (x.num + 2 ^ 16 * y.kind)) y.addr (BitVec.ofNat 64 y.cause) m
  exact ⟨t, p, _, (reportOr_some hq h hy).trans ht, hz, rfl, by rw [he], by rw [he], by rw [he], by rw [he], rfl⟩

end Report

section Waits
variable {s : State} {r : Round} {f : IForm}

theorem exec_cwait (f : IForm) (s : State) : exec (.cwait f) s = execCwait f s := rfl
theorem exec_cwaitk (f : IForm) (s : State) : exec (.cwaitk f) s = execCwaitk f s := rfl

/-- CWAIT where no batch from the named one back is unfinished (R167). -/
theorem exec_cwait_settled :
    let fs := [iA f]
    let v := ((laneOf (arg (sources s r fs) 0) 0).toNat + f.imm.toNat) % 2 ^ 16
    let named := fun (p : Round) => p.sealed.filter (fun x => r.back v ≤ p.back x.num)
    Starts s r fs [] → (64 ≤ r.back v ∨ ∀ x ∈ named r, x.members = []) →
      exec (.cwait f) s = reportOr (s.begun r f.g fs) fs (r.passing f.g) named := by
  intro fs v named hs hd
  have hgo : ¬(decide (r.back v < 64) && (named r).any (fun b => !b.members.isEmpty)) = true := by
    rw [Bool.and_eq_true_iff, decide_eq_true_iff]
    rintro ⟨hlt, hany⟩
    obtain ⟨x, hx, hne⟩ := List.any_eq_true.1 hany
    have hnil := (hd.resolve_left (Nat.not_le.2 hlt)) x hx
    rw [hnil] at hne
    cases hne
  rw [exec_cwait, execCwait, begin_started hs]
  exact if_neg hgo

/-- CWAITK where no more batches than the named number are unfinished (R167). -/
theorem exec_cwaitk_settled :
    let fs := [iA f]
    let v := ((laneOf (arg (sources s r fs) 0) 0).toNat + f.imm.toNat) % 2 ^ 16
    Starts s r fs [] → r.unfinished ≤ v →
      exec (.cwaitk f) s =
        reportOr (s.begun r f.g fs) fs (r.passing f.g) (fun q => q.sealed.filter (fun b => b.members.isEmpty)) := by
  intro fs v hs hu
  rw [exec_cwaitk, execCwaitk, begin_started hs]
  exact if_neg (Nat.not_lt.2 hu)

end Waits

/-- Settles O27: a wait whose batches have settled is its report, which finds a record or none. -/
theorem copyWaits : Obligations.CopyWaits := by
  intro s r f fs b v e named done settled reports q1 hs hq
  have hi := begun_issuing hs f.g fs
  have hq' : (s.begun r f.g fs).waited.issuing = some q1 := hq
  refine ⟨fun hd h hf => ?_, fun hu h hf => ?_, fun x y hd h hy => ?_, fun x y hu h hy => ?_⟩
  · exact (exec_cwait_settled hs hd).trans ((reportOr_none hq' h).trans (finish_done hi hf))
  · exact (exec_cwaitk_settled hs hu).trans ((reportOr_none hq' h).trans (finish_done hi hf))
  · obtain ⟨t, p, z, ht, hz⟩ := reportOr_reports (fs := fs) (m := r.passing f.g) hq' h hy
    exact ⟨t, p, z, (exec_cwait_settled hs hd).trans ht, hz⟩
  · obtain ⟨t, p, z, ht, hz⟩ := reportOr_reports (fs := fs) (m := r.passing f.g) hq' h hy
    exact ⟨t, p, z, (exec_cwaitk_settled hs hu).trans ht, hz⟩

end Sys2Proof.Machine
end

section
/-! PROOFS. The copies' events (R164, R168, R169): a member whose accesses succeed moves its words and goes on or finishes, and a copy into
registers that no older one precedes lands in its destination round. -/
namespace Sys2Proof.Machine

section Copy
variable {s : State} {n id : Nat} {mv : Move} {src : Nat → Nat ⊕ Byte} {words : Option (List Nat)} {m : Member}

theorem exec_copyMemberComplete (n id : Nat) (words : Option (List Nat)) (s : State) :
    exec (.copyMemberComplete n id words) s = execCopyMemberComplete n id words s := rfl

/-- The state in which a member moves its words: what a fence has shown to its path, and the round's older reads, come first (R284, R302). -/
def State.readyMove (s : State) (n : Nat) (m : Member) (mv : Move) (src : Nat → Nat ⊕ Byte) (is : List Nat) : State :=
  (s.readyMember n m mv.srcKind (mv.reads src is)).readyWrite n m mv.dstKind (is.map (fun i => mv.dst + BitVec.ofNat 64 i))

/-- A member that waits for no service and for no link moves its words (R168, R338). -/
theorem exec_copyMemberComplete_moves {m1 : Member} (hm : s.rounds[n]?.bind (fun r => r.member? id) = some m) (hs : m.service = none)
    (hw : m.work.move = some (mv, src)) (hl : mv.usesHost = true → s.linkReady (linkOf (s.agentOf n).part) = true)
    (h1 : (s.readyMove n m mv src (wordBytes mv words m.moved)).rounds[n]?.bind (fun r => r.member? id) = some m1) :
    exec (.copyMemberComplete n id words) s =
      .next (moveMember n m1 mv src words (s.readyMove n m mv src (wordBytes mv words m.moved))) := by
  have hgo : ¬(mv.usesHost && !s.linkReady (linkOf (s.agentOf n).part)) = true := by
    rw [Bool.and_eq_true_iff]
    rintro ⟨hh, hn⟩
    rw [hl hh] at hn
    cases hn
  have hg : ((s.readyMove n m mv src (wordBytes mv words m.moved)).rounds[n]?.bind (fun r => r.member? id)).getD m = m1 := by
    rw [h1, Option.getD_some]
  unfold State.readyMove at hg ⊢
  rw [exec_copyMemberComplete, execCopyMemberComplete, hm]
  dsimp only
  rw [hs, hw]
  dsimp only
  rw [if_neg hgo, hg]

/-- A member's words that all move, once the source words which others need are read whole (R169). -/
theorem moveMember_done {s2 : State} :
    let m2 := if words.isNone then m
      else s.readWords (s.agentOf n) [{ kind := mv.srcKind, base := mv.src, len := 2 ^ 64 - 1 }] (mv.reads src (wordBytes mv words m.moved)) m
    s.moveBytes (s.agentOf n) m2 mv src (wordBytes mv words m.moved) = .done s2 →
      moveMember n m mv src words s = advanceMember n m2 mv words s2 := by
  intro m2 h
  unfold moveMember
  dsimp only
  rw [h]
  rfl

end Copy

section Land
variable {s : State} {n id : Nat} {m m1 : Member} {r1 : Round}

theorem exec_cpyrDataLand (n id : Nat) (s : State) : exec (.cpyrDataLand n id) s = execCpyrDataLand n id s := rfl

/-- The source addresses of a copy into registers (R164). -/
def regsAt (addrs : Lanes) (mask : Mask) (count : Nat) : List Word :=
  (lanesOf mask).flatMap (fun l => (List.range (8 * count)).map (fun i => laneOf addrs l + BitVec.ofNat 64 i))

theorem regsAt_map {α : Type} (f : Word → α) (addrs : Lanes) (mask : Mask) (count : Nat) :
    (regsAt addrs mask count).map f =
      (lanesOf mask).flatMap (fun l => (List.range (8 * count)).map (fun i => f (laneOf addrs l + BitVec.ofNat 64 i))) := by
  simp only [regsAt, List.map_flatMap, List.map_map, Function.comp_def]

/-- Where a member is the oldest of its team, no member precedes it, of whatever kind (R164). -/
theorem none_earlier (h : ∀ x ∈ s.rounds, x.team = r1.team → ∀ y ∈ x.members, m.id ≤ y.id) (p : Member → Bool) :
    ¬s.rounds.any (fun q => q.team == r1.team && q.members.any (fun x => decide (x.id < m.id) && p x)) = true := by
  simp only [List.any_eq_true, Bool.and_eq_true, beq_iff_eq, decide_eq_true_eq]
  rintro ⟨q, hq, ht, x, hx, hlt, _⟩
  exact Nat.not_le.2 hlt (h q hq ht x hx)

/-- A copy into registers whose bytes are there lands in its destination round, the oldest of its team's members (R164). -/
theorem exec_cpyrDataLand_lands {sk reg count target k : Nat} {addrs : Lanes} {mask : Mask} {q : Round} {bytes : List Byte} :
    let s1 := s.readyMember n m sk (regsAt addrs mask count)
    let s2 := ({ s1 with free := s1.free + 1 } : State).setRoundAt n (r1.finishMember m1.id none).prune
    s.rounds[n]?.bind (fun r => r.member? id) = some m → m.work = .regs sk addrs mask reg count target →
      s1.rounds[n]? = some r1 → r1.member? id = some m1 → m1.service = none → m1.work = m.work →
      (∀ x ∈ s1.rounds, x.team = r1.team → ∀ y ∈ x.members, m1.id ≤ y.id) →
      gather ((regsAt addrs mask count).map (s1.memberByte (s1.agentOf n) m1 sk)) = .ok bytes →
      s2.roundOf r1.team target = some k → s2.rounds[k]? = some q → q.status ≠ .ended →
        exec (.cpyrDataLand n id) s = .next (s2.setRoundAt k (landRegs mask reg (loadedRegs count (fun l =>
          (bytes.drop (8 * count * (lanesOf mask).idxOf l)).take (8 * count))) q)) := by
  intro s1 s2 hm hw h1 hm1 hs hw1 hold hg hk hq he
  have hb : s1.rounds[n]?.bind (fun r => r.member? id) = some m1 := by rw [h1]; exact hm1
  have he' : ¬(q.status == .ended) = true := by simpa using he
  rw [regsAt_map] at hg
  rw [hw] at hw1
  unfold s2 s1 regsAt at *
  rw [exec_cpyrDataLand, execCpyrDataLand, hm, Option.elim_some]
  dsimp only
  rw [hw]
  dsimp only
  rw [hb, h1]
  dsimp only
  rw [hs, hw1]
  dsimp only
  rw [if_neg (none_earlier hold _), hg]
  dsimp only
  rw [hk]
  dsimp only
  rw [hq]
  exact if_neg he'

end Land

/-- Settles O28, by the kind of member: a move by its words, a copy into registers as it lands. -/
theorem copyEvents_hold : Obligations.CopyEvents := by
  intro s n id
  refine ⟨?_, ?_⟩
  · intro mv src words r1 m m1 s2 is s1 m2 hm hs hw hl h1 hm1 hmove
    have hb : s1.rounds[n]?.bind (fun r => r.member? id) = some m1 := by rw [h1]; exact hm1
    exact (exec_copyMemberComplete_moves hm hs hw hl hb).trans (congrArg Host.Outcome.next (moveMember_done hmove))
  · intro sk addrs mask reg count target k r1 q m m1 bytes at_ s1 s2 hm hw h1 hm1 hs hw1 hold hg hk hq he
    exact exec_cpyrDataLand_lands hm hw h1 hm1 hs hw1 hold hg hk hq he

end Sys2Proof.Machine
end

section
/-! PROOFS. The checksums of an accumulator slot (R222, R267): a slot written whole agrees with its sums, and one flipped bit of one read
changes one row's sum. -/
namespace Sys2Proof.Machine

/-! ### Row and column sums (R222) -/

/-- The sums of two functions that agree are the same. -/
theorem foldl_add_range_congr {f g : Nat → BitVec 32} {n : Nat} (h : ∀ j < n, f j = g j) :
    (List.range n).foldl (fun acc j => acc + f j) 0 = (List.range n).foldl (fun acc j => acc + g j) 0 := by
  induction n with
  | zero => rfl
  | succ n ih =>
    rw [List.range_succ, List.foldl_append, List.foldl_append, ih (fun j hj => h j (Nat.lt_succ_of_lt hj))]
    exact congrArg _ (h n (Nat.lt_succ_self n))

/-- The sums of two functions that differ at just one place differ: no other element can make up for it. -/
theorem foldl_add_range_ne {f g : Nat → BitVec 32} {n k : Nat} (hk : k < n) (hne : f k ≠ g k) (h : ∀ j < n, j ≠ k → f j = g j) :
    (List.range n).foldl (fun acc j => acc + f j) 0 ≠ (List.range n).foldl (fun acc j => acc + g j) 0 := by
  induction n with
  | zero => exact absurd hk (Nat.not_lt_zero k)
  | succ n ih =>
    rw [List.range_succ, List.foldl_append, List.foldl_append]
    change (List.range n).foldl _ 0 + f n ≠ (List.range n).foldl _ 0 + g n
    by_cases hlast : k = n
    · subst hlast
      rw [foldl_add_range_congr (fun j hj => h j (Nat.lt_succ_of_lt hj) (Nat.ne_of_lt hj))]
      exact fun he => hne ((BitVec.add_right_inj _).1 he)
    · rw [h n (Nat.lt_succ_self n) (fun he => hlast he.symm)]
      exact fun he => ih (by omega) (fun j hj => h j (Nat.lt_succ_of_lt hj)) ((BitVec.add_left_inj _).1 he)

/-- A row of which just one element differs has another sum (R222). -/
theorem rowSum_ne {f g : Nat → BitVec 32} {i : Nat} (hi : f i ≠ g i) (h : ∀ j, j ≠ i → f j = g j) : rowSum f (i / 64) ≠ rowSum g (i / 64) :=
  foldl_add_range_ne (f := fun n => f (64 * (i / 64) + n)) (g := fun n => g (64 * (i / 64) + n)) (k := i % 64) (Nat.mod_lt i (by decide))
    (by rw [Nat.div_add_mod]; exact hi) (fun n _ hn => h _ (by omega))

/-! ### The stored sums against those of a read (R222) -/

theorem rowErrors_nil {t : Tile} {f : Nat → BitVec 32} (h : ∀ m < 64, rowSum f m = t.rows.getD m 0) : rowErrors t f = [] := by
  unfold rowErrors
  rw [List.filter_eq_nil_iff]
  intro p hp
  obtain ⟨m, hm, rfl⟩ := List.mem_map.1 hp
  simp [h m (List.mem_range.1 hm)]

theorem colErrors_nil {t : Tile} {f : Nat → BitVec 32} (h : ∀ n < 64, colSum f n = t.cols.getD n 0) : colErrors t f = [] := by
  unfold colErrors
  rw [List.filter_eq_nil_iff]
  intro p hp
  obtain ⟨n, hn, rfl⟩ := List.mem_map.1 hp
  simp [h n (List.mem_range.1 hn)]

theorem rowErrors_ne_nil {t : Tile} {f : Nat → BitVec 32} {m : Nat} (hm : m < 64) (h : rowSum f m ≠ t.rows.getD m 0) : rowErrors t f ≠ [] := by
  refine List.ne_nil_of_mem (a := (m, rowSum f m - t.rows.getD m 0)) (List.mem_filter.2 ⟨List.mem_map.2 ⟨m, List.mem_range.2 hm, rfl⟩, ?_⟩)
  exact bne_iff_ne.2 (fun he => h (((BitVec.sub_eq_iff_eq_add).1 he).trans (BitVec.zero_add _)))

/-! ### The procedure (R222, R267) -/

/-- The elements as the first read of the procedure returns them (R267). -/
def Tile.firstRead (t : Tile) (flip : Option Flip) (i : Nat) : BitVec 32 :=
  match flip with
  | some x => if i == x.elem then t.get i ^^^ BitVec.ofNat 32 (2 ^ x.bit) else t.get i
  | none => t.get i

theorem verify_clean {t : Tile} {flip : Option Flip} (hr : rowErrors t (t.firstRead flip) = []) (hc : colErrors t (t.firstRead flip) = []) :
    verify t flip = .clean (allVals (t.firstRead flip)) :=
  if_pos (by
    change ((rowErrors t (t.firstRead flip)).isEmpty && (colErrors t (t.firstRead flip)).isEmpty) = true
    rw [hr, hc]; rfl)

theorem verify_reread {t : Tile} {flip : Option Flip} (hf : rowErrors t (t.firstRead flip) ≠ []) (hr : rowErrors t t.get = [])
    (hc : colErrors t t.get = []) : verify t flip = .reread (allVals t.get) := by
  refine (if_neg ?_).trans (by rw [hr, hc])
  change ¬((rowErrors t (t.firstRead flip)).isEmpty && (colErrors t (t.firstRead flip)).isEmpty) = true
  simp [hf]

/-- A bit flipped changes a pattern. -/
theorem xor_bit_ne (x : BitVec 32) {n : Nat} (hn : n < 32) : x ^^^ BitVec.ofNat 32 (2 ^ n) ≠ x := by
  intro he
  have hzero : BitVec.ofNat 32 (2 ^ n) = 0 := by simpa [← BitVec.xor_assoc] using congrArg (x ^^^ ·) he
  have hpow : 2 ^ n % 2 ^ 32 = 0 := congrArg BitVec.toNat hzero
  rw [Nat.mod_eq_of_lt (Nat.pow_lt_pow_right (by decide) hn)] at hpow
  exact absurd hpow (Nat.ne_of_gt (Nat.two_pow_pos n))

/-! ### A slot written whole -/

theorem rows_write (t : Tile) (vals : List (BitVec 32)) {m : Nat} (hm : m < 64) :
    (t.write vals).rows.getD m 0 = rowSum (fun i => vals.getD i 0) m := by
  simp [Tile.write, List.getD_eq_getElem?_getD, hm]

theorem cols_write (t : Tile) (vals : List (BitVec 32)) {n : Nat} (hn : n < 64) :
    (t.write vals).cols.getD n 0 = colSum (fun i => vals.getD i 0) n := by
  simp [Tile.write, List.getD_eq_getElem?_getD, hn]

section Written
variable {t : Tile} (hs : t.stuck = []) (vals : List (BitVec 32))
include hs

/-- Storage without stuck bits returns what was written. -/
theorem get_write : (t.write vals).get = fun i => vals.getD i 0 := by
  funext i
  unfold Tile.get Tile.write
  rw [hs]
  rfl

theorem rowErrors_write : rowErrors (t.write vals) (t.write vals).get = [] :=
  rowErrors_nil (fun m hm => by rw [get_write hs, rows_write t vals hm])

theorem colErrors_write : colErrors (t.write vals) (t.write vals).get = [] :=
  colErrors_nil (fun n hn => by rw [get_write hs, cols_write t vals hn])

theorem allVals_write (hl : vals.length = 4096) : allVals (t.write vals).get = vals := by
  unfold allVals
  rw [get_write hs]
  refine List.ext_getElem (by simp [hl]) (fun i _ hi => ?_)
  simp [List.getD_eq_getElem?_getD, hi]

/-- The row of a flipped element does not agree with its sum (R267). -/
theorem rowErrors_flip {x : Flip} (he : x.elem < 4096) (hb : x.bit < 32) :
    rowErrors (t.write vals) ((t.write vals).firstRead (some x)) ≠ [] := by
  have hm : x.elem / 64 < 64 := by omega
  refine rowErrors_ne_nil hm ?_
  rw [rows_write t vals hm, ← get_write hs]
  refine rowSum_ne (i := x.elem) ?_ (fun j hj => ?_)
  · exact fun h => xor_bit_ne _ hb ((if_pos (beq_self_eq_true x.elem)).symm.trans h)
  · exact if_neg (by simpa using hj)

end Written

/-- Settles O35: the sums of a slot written whole are those of its elements, so a read that returns them is clean; a flip of one bit of
one element changes the sum of its row, and the second read, without it, is good. -/
theorem checksumProcedure : Obligations.ChecksumProcedure := by
  intro t vals x hs hl he hb
  have hv := allVals_write hs vals hl
  refine ⟨?_, ?_⟩
  · exact (verify_clean (flip := none) (rowErrors_write hs vals) (colErrors_write hs vals)).trans (congrArg Verdict.clean hv)
  · exact (verify_reread (rowErrors_flip hs vals he hb) (rowErrors_write hs vals) (colErrors_write hs vals)).trans (congrArg Verdict.reread hv)

end Sys2Proof.Machine
end

section
/-! PROOFS. The accumulator instructions (R208, R220 to R222): past the checks of its slot AZERO clears it, ALD loads it and ACHK classifies
what it finds; AREL and ASET write their round only. -/
namespace Sys2Proof.Machine

theorem exec_azero (f : XForm) (s : State) : exec (.azero f) s = execAzero f s := rfl
theorem exec_ald (f : XForm) (s : State) : exec (.ald f) s = execAld f s := rfl
theorem exec_achk (f : XForm) (s : State) : exec (.achk f) s = execAchk f s := rfl
theorem exec_arel (f : RForm) (s : State) : exec (.arel f) s = execArel f s := rfl
theorem exec_aset (f : IForm) (s : State) : exec (.aset f) s = execAset f s := rfl

section Slot
variable {s : State} {r : Round} {f : XForm} {slot : Nat} (ho : SlotsOk s r f.h.toNat 1 [slot]) (hm : r.passing f.g ≠ 0)
include ho hm

/-- AZERO past the checks of its slot (R220). -/
theorem exec_azero_clears (hs : Starts s r [] []) :
    exec (.azero f) s = finish (s.begun r f.g [])
      ((s.begun r f.g []).setTile r slot { Tile.zero with stuck := ((s.teamOf r).tile (slotKey (s.teamOf r) r slot)).stuck }) [] (fun q => q) := by
  have hb : SlotsOk (s.begun r f.g []) (r.noted f.g []) f.h.toNat 1 [slot] := ho
  rw [exec_azero, execAzero, begin_started hs, if_neg hm, withSlots_ok _ hb]
  rfl

/-- ALD past the checks of its slot and its tile (R220). -/
theorem exec_ald_loads :
    let fs : List Field := [(f.b, false)]
    let a := laneOf (arg (sources s r fs) 0) 0
    let e1 := (s.begun r f.g fs).readyBlock a.toNat 16384
    let t1 := e1.teamOf r
    Starts s r fs [] → TileAt s r a 16384 →
      exec (.ald f) s = finish (s.begun r f.g fs) (e1.setTile r slot ((t1.tile (slotKey t1 r slot)).write
        (tileVals (fun i n => bytesAt (Memory.readList t1.spad a.toNat 16384) (4 * (64 * i + n)) 4)))) fs (fun q => q) := by
  intro fs a e1 t1 hs ha
  have hb : SlotsOk (s.begun r f.g fs) (r.noted f.g fs) f.h.toNat 1 [slot] := ho
  have hab : TileAt (s.begun r f.g fs) (r.noted f.g fs) a 16384 := ha
  rw [exec_ald, execAld, begin_started hs]
  dsimp only
  rw [if_neg hm, withSlots_ok _ hb, withTileArea_ok _ hab]
  rfl

/-- ACHK of a slot that is not beyond correction (R222). -/
theorem exec_achk_classifies (hs : Starts s r [] []) (hv : ∀ rows cols, s.verdict r slot ≠ .bad rows cols) :
    exec (.achk f) s = finish (s.begun r f.g []) ((s.begun r f.g []).classify r slot (s.verdict r slot)) [] (fun q => q) := by
  have hb : SlotsOk (s.begun r f.g []) (r.noted f.g []) f.h.toNat 1 [slot] := ho
  rw [exec_achk, execAchk, begin_started hs, if_neg hm, withSlots_ok _ hb]
  change (match s.verdict r slot with | .bad rows cols => _ | v => _) = _
  split
  · next rows cols h => exact absurd h (hv rows cols)
  · rfl

end Slot

/-- AREL where some lane passes (R221). -/
theorem exec_arel_empties {s : State} {r : Round} {f : RForm} (hs : Starts s r [] []) (hm : r.passing f.g ≠ 0) :
    exec (.arel f) s = finish (s.begun r f.g []) (s.begun r f.g []) [] (fun q => { q with latch := none }) := by
  rw [exec_arel, execArel, begin_started hs]
  simp only [if_neg hm]

/-- ASET takes the base from its lowest passing lane (R221). -/
theorem exec_aset_sets {s : State} {r : Round} {f : IForm} {l : Nat} (hs : Starts s r [iA f] []) (hl : lowestLane (r.passing f.g) = some l) :
    exec (.aset f) s = finish (s.begun r f.g [iA f]) (s.begun r f.g [iA f]) [iA f]
      (fun q => { q with abase := laneOf (arg (sources s r [iA f]) 0) l + f.imm.signExtend 64 }) := by
  rw [exec_aset, execAset, begin_started hs]
  simp only [hl]

/-- Settles O34, an instruction at a time: past its checks each has its effect, and then its rows fit. -/
theorem accumulatorCompletes : Obligations.AccumulatorCompletes := by
  intro s r f h k slot t tile
  refine ⟨fun ho hm => ⟨?_, ?_, ?_⟩, ?_, ?_⟩
  · intro e hs hf
    exact (exec_azero_clears ho hm hs).trans (finish_done (begun_issuing hs _ _) hf)
  · intro fs a e1 t1 e hs ha hf
    exact (exec_ald_loads ho hm hs ha).trans (finish_done (begun_issuing hs _ _) hf)
  · intro e hs hv hf
    exact (exec_achk_classifies ho hm hs hv).trans (finish_done (begun_issuing hs _ _) hf)
  · intro hs hm hf
    exact (exec_arel_empties hs hm).trans (finish_done (begun_issuing hs _ _) hf)
  · intro l hl b write hs hf
    exact (exec_aset_sets hs hl).trans (finish_done (begun_issuing hs _ _) hf)

end Sys2Proof.Machine
end

section
/-! PROOFS. The drain (R224 to R229): DRN past its checks waits with its writes, and ends once none remains; each write is within one 8-byte
word. -/
namespace Sys2Proof.Machine

/-! ### DRN (R225, R226, R229) -/

section Issue
variable {s : State} {r : Round} {f : XForm}

theorem exec_drn (f : XForm) (s : State) : exec (.drn f) s = execDrn f s := rfl

/-- DRN past its checks, with slots that its read finds good: its writes are made out and the round waits for them (R225, R226, R228). -/
theorem exec_drn_waits {desc : List Byte} {slots : List Nat} {s1 s2 : State} {r1 q : Round} {tiles : List (List (BitVec 32))} :
    let fs : List Field := [(f.b, false)]
    let b := s.begun r f.g fs
    let a := laneOf (arg (sources s r fs) 0) 0
    let d := readDrain desc
    let s3 := (if f.imm.getLsbD 0 then s2 else slots.foldl (fun s x => s.clearTile r1 x) s2).readyResidual r1 d
    Starts s r fs [] → r.status ≠ .waiting .drain → r.passing f.g ≠ 0 → TileAt b (r.noted f.g fs) a 64 →
      SpadRead b (spadRange a 64) s1 r1 desc → DrainOk s1 r1 f.h.toNat d slots → drainReads s1 r1 slots = (s2, none, tiles) →
      s3.issuing = some q →
        exec (.drn f) s = .next (s3.setRound { q with drain := drainWrites s3 r1 d tiles, status := .waiting .drain }) := by
  intro fs b a d s3 hs hw hm ha hr hd hv hq
  have hnew : ¬((r.noted f.g fs).status == .waiting .drain) = true := fun h => hw (beq_iff_eq.1 h)
  rw [exec_drn, execDrn, begin_started hs]
  dsimp only
  rw [if_neg hnew, if_neg hm, withTileArea_ok _ ha, withSpad_ok _ hr, withDrainChecks_ok _ hd, hv]
  exact onRound_eq hq _

/-- DRN once its last write is visible: a fence from the MX path to every path (R228, R229). -/
theorem exec_drn_ends :
    let fs : List Field := [(f.b, false)]
    let b := s.begun r f.g fs
    Starts s r fs [] → r.status = .waiting .drain → r.drain = [] →
      exec (.drn f) s = finish b (b.shows s.cur [3] otherPaths) fs (fun q => q) := by
  intro fs b hs hw he
  have hwaits : ((r.noted f.g fs).status == .waiting .drain) = true := beq_iff_eq.2 hw
  have hnone : (r.noted f.g fs).drain.isEmpty = true := List.isEmpty_iff.2 he
  rw [exec_drn, execDrn, begin_started hs, if_pos hwaits, if_pos hnone]
  rfl

end Issue

/-! ### DRAIN_COMPLETE (R228) -/

theorem exec_drainComplete (n : Nat) (writes : Option (List Nat)) (s : State) :
    exec (.drainComplete n writes) s = execDrainComplete n writes s := rfl

/-- DRAIN_COMPLETE of all writes makes each visible, in their order (R228). -/
theorem exec_drainComplete_all {s : State} {n : Nat} {x q : Round} (hx : s.rounds[n]? = some x)
    (hq : (x.drain.foldl (fun s w => s.drainWrite n w) s).rounds[n]? = some q) :
    exec (.drainComplete n none) s = .next ((x.drain.foldl (fun s w => s.drainWrite n w) s).setRoundAt n { q with drain := [] }) := by
  have hall : x.drain.zipIdx.foldl (fun s p => s.drainWrite n p.1) s = x.drain.foldl (fun s w => s.drainWrite n w) s :=
    List.foldl_map.symm.trans (congrArg (List.foldl (fun s w => s.drainWrite n w) s) (List.zipIdx_map_fst 0 x.drain))
  have hstay : x.drain.zipIdx.filter (fun _ => !true) = [] := List.filter_eq_nil_iff.2 (fun _ _ => Bool.false_ne_true)
  rw [exec_drainComplete, execDrainComplete, hx]
  dsimp only
  rw [List.filter_eq_self.2 (fun _ _ => rfl), hstay, hall, hq]
  rfl

/-! ### The writes of a drain (R228) -/

/-- Each gathered write holds bytes, all of them of one 8-byte word. -/
theorem gatherWords_oneWord (l : List (Nat × Byte)) : ∀ w ∈ gatherWords l, w ≠ [] ∧ ∀ p ∈ w, p.1 / 8 = (w.headD (0, 0)).1 / 8 := by
  induction l with
  | nil => intro w hw; cases hw
  | cons x xs ih =>
    have hsingle : [x] ≠ [] ∧ ∀ p ∈ [x], p.1 / 8 = ([x].headD (0, 0)).1 / 8 := by simp
    unfold gatherWords
    split
    · exact List.forall_mem_singleton.2 hsingle
    · next y ys hg =>
      rw [hg] at ih
      obtain ⟨hy, hys⟩ := List.forall_mem_cons.1 ih
      split
      · next hword =>
        refine List.forall_mem_cons.2 ⟨⟨List.cons_ne_nil _ _, List.forall_mem_cons.2 ⟨rfl, fun p hp => ?_⟩⟩, hys⟩
        exact (hy.2 p hp).trans (beq_iff_eq.1 hword)
      · exact List.forall_mem_cons.2 ⟨hsingle, ih⟩

/-- Every write of a drain is of one 8-byte word, whichever rows share it (R228). -/
theorem drainWrites_oneWord (s : State) (r : Round) (d : DrainDesc) (tiles : List (List (BitVec 32))) :
    ∀ w ∈ drainWrites s r d tiles, ∀ p ∈ w.2, p.1 / 8 = (w.2.headD (0, 0)).1 / 8 := by
  intro w hw
  rcases List.mem_append.1 hw with hw | hw <;>
  · obtain ⟨x, hx, rfl⟩ := List.mem_map.1 hw
    exact (gatherWords_oneWord _ x hx).2

/-- Settles O36: DRN as it is issued and as it ends, the event between them, and the words of its writes. -/
theorem drainCompletes : Obligations.DrainCompletes := by
  intro s r f fs b shown
  refine ⟨?_, ?_, ?_, ?_⟩
  · intro desc slots s1 r1 s2 tiles q a d s3 hs hw hm ha hr hd hv hq
    exact exec_drn_waits hs hw hm ha hr hd hv hq
  · intro hs hw he hf
    exact (exec_drn_ends hs hw he).trans (finish_done (begun_issuing hs _ _) hf)
  · intro n x q hx t hq
    exact exec_drainComplete_all hx hq
  · intro d tiles w hw p hp q hq
    exact (drainWrites_oneWord s r d tiles w hw p hp).trans (drainWrites_oneWord s r d tiles w hw q hq).symm

end Sys2Proof.Machine
end

section
/-! PROOFS. PJADJ's record (R241, R245, log entry 9): the model takes L from its read of the header, the statement from its read of the whole
record, and in the state given here the two differ. -/
namespace Sys2Proof.Machine

namespace PjadjLengths

/-- Four bytes of the scratchpad as one unit, with the operand of an atomic. -/
def unit (addr ofs operand : Nat) : Piece :=
  { lane := 0, ofs := ofs, addrs := (List.range 4).map (fun i => addr + i), data := [], b := operand, c := 0 }

/-- An access of the scratchpad that is left pending and delivers to zero. -/
def access (id path : Nat) (op : AccessOp) (pieces : List Piece) : Access :=
  { id := id, path := path, spad := true, op := op, dst := 1672, regs := 1, mask := 1, sem := 0, scope := 0, released := false
    shown := [], pieces := pieces, got := [] }

/-- On the TX path, a swap on the header, whose L it makes 1, and on the first word of the record's bitmap. -/
def swap : Access := access 0 1 (.atomic 6 false) [unit 0x400 0 0x4000FFFF, unit 0x410 4 0]
/-- On the LS path, a later load of that word of the bitmap. -/
def load : Access := access 1 0 .load [unit 0x410 0 0]

/-- The round issues PJADJ with both accesses pending; s0 is the record's address, s1 the output's. -/
def round : Round := { Round.fresh 0 0 16 0 0 0 1 false 1 ([0x400, 0x8000] ++ List.replicate 126 0) with
  clause := some { h := 16, cls := 0, cnt := 1, gap := 0, yld := false, uni := 0, words := [0, 0], idx := 0 }
  pending := [swap, load] }

/-- A record at 0x400 with count 0xFFFF, psel 4, L 2 and zero bitmaps (R241). The counter of identifiers has not passed those of the pending
accesses, so a read that PJADJ makes does not take the swap for an older read of its round, while the load's does. -/
def state : State := { State.reset with
  rounds := [round]
  teams := [{ Team.fresh none 0 0 0 0 0 false { Kernel.none with width := 16, rounds := 1, spad := 65536 } 4 0 with
    spad := Memory.writeList [] 0x400 [0xFF, 0xFF, 0x01, 0x40] }] }

/-- PJADJ s1, s2, s0, zero. -/
def form : RForm :=
  { g := { p := 7, inv := false, uni := false }, lra := false, lrb := false, lrc := false, d := 1537, a := 1538, b := 1536, c := 1672, cmp := 0 }
def fields : List Field := [(form.a, false), (form.b, false), (form.c, false), (form.d, false)]

/-- The state in which PJADJ takes its effect, and those after its reads of the header, of the record and of the gradient (R245). -/
def begun : State := state.begun round form.g fields
def afterHeader : State := begun.readSpadNow (spadRange 0x400 16)
def roundIn (s : State) : Round := s.issuing.getD round
def bytesIn (s : State) (addrs : List Nat) : List Byte := addrs.map (Memory.read (s.teamOf (roundIn s)).spad)
def header : List Byte := bytesIn afterHeader (spadRange 0x400 16)
def recordAddrs : List Nat := spadRange 0x400 (recordSize (parseRecord header).l)
def afterRecord : State := afterHeader.readSpadNow recordAddrs
def record : RowRecord := parseRecord (bytesIn afterRecord recordAddrs)
def inputAddrs : List Nat := spadRange 0 (4 * (parseRecord header).l) ++ spadRange 0 (if record.needsForward then 4 * (parseRecord header).l else 0)
def afterInputs : State := afterRecord.readSpadNow inputAddrs

/-- The read of the whole record makes the load read, and the load makes the older swap of its round read and write first (R284). -/
theorem lengths : (parseRecord header).l = 2 ∧ record.l = 1 := by decide +kernel

theorem spadRead {s : State} {addrs : List Nat} (h : (s.readSpadNow addrs).issuing = some (roundIn (s.readSpadNow addrs))) :
    SpadRead s addrs (s.readSpadNow addrs) (roundIn (s.readSpadNow addrs)) (bytesIn (s.readSpadNow addrs) addrs) := ⟨rfl, h, rfl⟩

theorem starts : Starts state round fields [] := ⟨rfl, rfl, by decide +kernel, by decide +kernel⟩

/-- Every check of R245 passes. -/
theorem reads : AdjointRead begun (round.noted form.g fields) 0 0x400 0 0x8000 record (bytesIn afterInputs inputAddrs) afterInputs (roundIn afterInputs) :=
  ⟨by decide, by decide, by decide, by unfold AreaOk; decide +kernel, afterHeader, _, header, afterRecord, _, _,
    spadRead (by decide +kernel), by decide +kernel, by unfold AreaOk; decide +kernel, by unfold AreaOk; decide +kernel,
    by unfold AreaOk; decide +kernel, spadRead (by decide +kernel), rfl, by decide +kernel, fun h => absurd h (by decide +kernel),
    spadRead (by decide +kernel)⟩

/-- The second value of the output in the state that an instruction leaves. -/
def secondValue : Res → List Byte
  | .next t => Memory.readList (t.teamOf round).spad 0x8004 4
  | _ => []

/-- The model writes both values of the header's L. -/
theorem exec_writes : secondValue (exec (.pjadj form) state) = toBytes 4 nan32 := by decide +kernel

end PjadjLengths

section Refutation
open PjadjLengths

/-- Refutes O33 in its clause for PJADJ: where the record's L becomes 1 between the read of the header, which said 2, and that of the whole
record (`lengths`), PJADJ writes two values, and the statement says one. The statement is of every state, and so of this one, although no
instruction leaves an atomic pending on the TX path or an identifier that the counter has not passed. -/
theorem not_matrixCompletes : ¬ Obligations.MatrixCompletes := by
  intro h
  obtain ⟨-, -, -, -, -, hpjadj⟩ := h state round
    { g := form.g, h := 0, a := 0, b := 0, fa := 0, fb := 0, ru := false, z := false, rsv := 0, imm := 0 } form 0
    { pending := false, fa := 0, fb := 0, ka := 0, kb := 0, vals := [] }
  have hexec := hpjadj _ _ afterInputs (roundIn afterInputs) starts (by decide +kernel) reads
    ⟨_, (Option.some_get (by decide +kernel)).symm, by decide +kernel⟩
  have hstated := exec_writes.symm.trans (congrArg secondValue hexec)
  exact absurd hstated (by decide +kernel)

end Refutation

end Sys2Proof.Machine
end

section
/-! PROOFS. The special-function queue (R258, R259): SFQ traps on a busy token before anything else and keeps its values on a free one, SFWAIT
passes once its tokens are free and its paths quiet, and a result lands with its request. -/
namespace Sys2Proof.Machine

theorem exec_sfq (f : IForm) (s : State) : exec (.sfq f) s = execSfq f s := rfl
theorem exec_sfwait (f : IForm) (s : State) : exec (.sfwait f) s = execSfwait f s := rfl
theorem exec_sfpoll (f : IForm) (s : State) : exec (.sfpoll f) s = execSfpoll f s := rfl
theorem exec_sfqResultLand (n k : Nat) (s : State) : exec (.sfqResultLand n k) s = execSfqResultLand n k s := rfl

/-- What SFQ writes: its destination holds rows, and its token's request keeps the source values of its passing lanes (R258). -/
def sfqWrite (f : IForm) (m : Mask) (vals : Lanes) (q : Round) : Round :=
  let q1 := writeOperand m f.d (q.readV f.d.toNat) q
  { q1 with tokens := q1.tokens ++
      [{ token := f.imm.toNat % 16, fn := f.imm.toNat / 16 % 16, dst := f.d.toNat, mask := m, vals := vals }] }

/-- The state in which SFWAIT has let every path's accesses take effect (R259). -/
def State.pushedAll (s : State) : State := allPaths.foldl (fun s p => s.pushPath s.cur p) s

section Issue
variable {s : State} {r : Round} {f : IForm}

/-- SFQ on a pending token: TOKEN_BUSY, ahead of the scoreboard and of the guard (R258). -/
theorem exec_sfq_busy (hi : s.issuing = some r) (hb : r.tokenBusy (f.imm.toNat % 16) = true) :
    exec (.sfq f) s = takeTrap s r 0x10 (BitVec.ofNat 64 (f.imm.toNat % 16)) 0 0 (r.passing f.g) := by
  rw [exec_sfq, execSfq, onRound_eq hi]
  exact if_pos hb

/-- SFQ on a free token, with lanes that pass and entries in its quadrant's queue (R258). -/
theorem exec_sfq_queues (hs : Starts s r [iA f] (regNames f.d 1)) (hb : r.tokenBusy (f.imm.toNat % 16) = false) (hm : r.passing f.g ≠ 0)
    (hu : (s.begun r f.g [iA f]).sfqUsed r + r.width / 16 ≤ 32) :
    exec (.sfq f) s = finish (s.begun r f.g [iA f]) (s.begun r f.g [iA f]) [iA f]
      (sfqWrite f (r.passing f.g) (arg (sources s r [iA f]) 0)) := by
  have hroom : ¬sfqEntries < (s.begun r f.g [iA f]).sfqUsed (r.noted f.g [iA f]) + (r.noted f.g [iA f]).width / 16 := Nat.not_lt.2 hu
  rw [exec_sfq, execSfq, onRound_eq hs.1]
  dsimp only
  rw [if_neg (ne_true_of_eq_false hb), begin_started hs, if_neg hm, if_neg hroom]
  rfl

/-- SFWAIT once its tokens are free and every path is quiet: a fence of every path to every path (R259). -/
theorem exec_sfwait_passes {q : Round} (hs : Starts s r [] []) (hfree : r.tokensFree f.imm.toNat = true)
    (hq : (s.begun r f.g []).pushedAll.issuing = some q)
    (hquiet : ∀ p ∈ allPaths, (s.begun r f.g []).pushedAll.pathQuiet s.cur q p = true) :
    exec (.sfwait f) s = finish (s.begun r f.g []).pushedAll ((s.begun r f.g []).pushedAll.shows s.cur allPaths otherPaths) []
      (fun q => q) := by
  have hgo : ¬(!(r.noted f.g []).tokensFree f.imm.toNat) = true := by
    rw [noted_nil, hfree]
    exact Bool.false_ne_true
  rw [exec_sfwait, execSfwait, begin_started hs, if_neg hgo]
  exact (onRound_eq hq _).trans (if_pos (List.all_eq_true.2 hquiet))

end Issue

/-- SFQ_RESULT_LAND of a pending request (R258). -/
theorem exec_sfqResultLand_lands {s : State} {n k : Nat} {x : Round} {t : SfqReq} (hx : s.rounds[n]? = some x)
    (ht : x.tokens.find? (fun y => y.token == k) = some t) :
    exec (.sfqResultLand n k) s = .next (s.setRoundAt n { x with
      v := SMap.set x.v t.dst (mergeLanes t.mask (sfqResult t) (x.readV t.dst))
      tokens := x.tokens.filter (fun y => y.token != k) }) := by
  rw [exec_sfqResultLand, execSfqResultLand, hx, Option.bind_some, ht]

/-- Settles O37, an instruction at a time, and then the event that lands a result. -/
theorem specialFunctionsComplete : Obligations.SpecialFunctionsComplete := by
  intro s r f
  refine ⟨?_, ?_, ?_, ?_, ?_⟩
  · intro fs b m write hs hb hm hu hf
    exact (exec_sfq_queues hs hb hm hu).trans (finish_done (begun_issuing hs _ _) hf)
  · intro hi hb
    exact (exec_sfq_busy hi hb).trans (takeTrap_eq ..)
  · intro q e hs hfree hq hquiet hf
    exact (exec_sfwait_passes hs hfree hq hquiet).trans (finish_done hq hf)
  · intro s r hs hf
    exact (exec_sfpoll f s).trans (registerOnly_eq hs hf)
  · intro n x t hx ht
    exact exec_sfqResultLand_lands hx ht

end Sys2Proof.Machine
end

section
/-! PROOFS. Named barriers (R251 to R253): a round that may arrive does so past its release, and then ends the phase, goes on or waits. -/
namespace Sys2Proof.Machine

theorem exec_bara (f : SForm) (s : State) : exec (.bara f) s = arrive f false s := rfl
theorem exec_barw (f : SForm) (s : State) : exec (.barw f) s = arrive f true s := rfl
theorem exec_barq (f : IForm) (s : State) : exec (.barq f) s = execBarq f s := rfl

section Arrival
variable {s : State} {r : Round} {f : SForm}

/-- A round that is held at no phase and whose count is that of the phase arrives (R251). -/
theorem arrive_now (hi : s.issuing = some r) (hmay : MayArrive s r f.bar.toNat (barCount s r f)) (hp : s.countPending r f = false)
    (wait : Bool) : arrive f wait s = arriveNow s f f.bar.toNat (barCount s r f) wait := by
  obtain ⟨hstatus, hheld, hpos, hle, harrived, hcount⟩ := hmay
  have hfresh : ¬(r.status == .waiting (.barrier f.bar.toNat)) = true := fun h => hstatus (beq_iff_eq.1 h)
  have hlegal : ¬(decide (barCount s r f = 0) || decide (32 < barCount s r f)) = true := by
    rw [Bool.or_eq_true, decide_eq_true_iff, decide_eq_true_iff]
    omega
  have hsame : ¬(((s.teamOf r).bar f.bar.toNat).count != 0 && barCount s r f != ((s.teamOf r).bar f.bar.toNat).count) = true := by
    rw [Bool.and_eq_true, bne_iff_ne, bne_iff_ne]
    exact fun ⟨hstarted, hother⟩ => hcount.elim hstarted hother
  rw [arrive, onRound_eq hi]
  dsimp only
  rw [if_neg hfresh, hheld, Bool.and_false, if_neg Bool.false_ne_true, hp, if_neg Bool.false_ne_true, if_neg hlegal, harrived,
    if_neg Bool.false_ne_true, if_neg hsame]

/-- A waiting round that its barrier no longer holds goes on (R251). -/
theorem arrive_released (hi : s.issuing = some r) (hw : r.status = .waiting (.barrier f.bar.toNat))
    (hheld : ((s.teamOf r).bar f.bar.toNat).waiters.getLsbD r.rix = false) (wait : Bool) :
    arrive f wait s = finish s s [] (fun q => q) := by
  rw [arrive, onRound_eq hi]
  dsimp only
  rw [if_pos (beq_iff_eq.2 hw), hheld, if_neg Bool.false_ne_true]

end Arrival

section Phase
variable {s : State} {r q : Round} {f : SForm} {b c : Nat} (hi : s.issuing = some r) (hq : (s.afterRelease r 1 false).issuing = some q)
include hi hq

/-- The arrival that completes a phase clears it and turns its parity (R251). -/
theorem arriveNow_last (wait : Bool) :
    let e := s.afterRelease r 1 false
    let y := ((e.teamOf q).bar b).arrival q.rix c
    y.arrivals = c →
      arriveNow s f b c wait = finish e (e.modTeam q (fun t => t.setBar b { y.cleared with parity := !y.parity })) [] (fun q => q) := by
  intro e y hlast
  rw [arriveNow, withRelease_ok _ hi (releases_near _ _ _ _ (by decide)), onRound_eq hq]
  exact if_pos hlast

/-- An arrival before the last of a phase that can still complete: at BARW the round is held, at BARA it goes on (R251, R252). -/
theorem arriveNow_earlier (wait : Bool) :
    let e := s.afterRelease r 1 false
    let y := ((e.teamOf q).bar b).arrival q.rix c
    let e1 := e.modTeam q (fun t => t.setBar b y)
    y.arrivals ≠ c → e1.unsat q.team y = false →
      arriveNow s f b c wait =
        if wait then stall (e.modTeam q (fun t => t.setBar b (holdAt y q.rix))) q (.barrier b) else finish e e1 [] (fun q => q) := by
  intro e y e1 hearlier hsat
  rw [arriveNow, withRelease_ok _ hi (releases_near _ _ _ _ (by decide)), onRound_eq hq]
  exact (if_neg hearlier).trans (if_neg (ne_true_of_eq_false hsat))

end Phase

/-- BARQ reads its barrier in the passing lanes (R253). -/
theorem exec_barq_reads {s : State} {r : Round} {f : IForm} (hs : Starts s r [] (regNames f.d 1)) :
    exec (.barq f) s = finish (s.begun r f.g []) (s.begun r f.g []) []
      (writeOperand (r.passing f.g) f.d (tab (fun _ => barqValue ((s.teamOf r).bar (f.imm.toNat % 16))))) := by
  rw [exec_barq, execBarq, begin_started hs]
  rfl

/-- Settles O43: an arrival ends its phase or comes earlier; then the round that waited, and BARQ. -/
theorem barriersComplete : Obligations.BarriersComplete := by
  intro s r q f b c e y hi
  refine ⟨fun hmay hp hq => ⟨?_, ?_⟩, fun hw hheld hf => ?_, ?_⟩
  · intro e1 hlast hf
    have hends (wait : Bool) : arrive f wait s = .next (e1.done [] (fun q => q)) :=
      (arrive_now hi hmay hp wait).trans ((arriveNow_last hi hq wait hlast).trans (finish_done hq hf))
    exact ⟨(exec_bara f s).trans (hends false), (exec_barw f s).trans (hends true)⟩
  · intro e1 hearlier hsat
    have hgoes (wait : Bool) := (arrive_now hi hmay hp wait).trans (arriveNow_earlier hi hq wait hearlier hsat)
    exact ⟨fun hf => (exec_bara f s).trans ((hgoes false).trans (finish_done hq hf)),
      (exec_barw f s).trans ((hgoes true).trans (stall_next ..))⟩
  · exact (exec_barw f s).trans ((arrive_released hi hw hheld true).trans (finish_done hi hf))
  · intro k write hs hf
    exact (exec_barq_reads hs).trans (finish_done (begun_issuing hs _ _) hf)

end Sys2Proof.Machine
end

section
/-! PROOFS. The system instructions (R266, R287, R319, R320, R324 to R327): past its checks each acts once, on the values of the lowest passing
lane. -/
namespace Sys2Proof.Machine

theorem exec_wrsr (f : IForm) (s : State) : exec (.wrsr f) s = execWrsr f s := rfl
theorem exec_tlbi (f : RForm) (s : State) : exec (.tlbi f) s = execTlbi f s := rfl
theorem exec_eret (f : RForm) (s : State) : exec (.eret f) s = execEret f s := rfl
theorem exec_rtabw (f : RForm) (s : State) : exec (.rtabw f) s = execRtabw f s := rfl
theorem exec_halt (f : RForm) (s : State) : exec (.halt f) s = execHalt f s := rfl
theorem exec_diag (f : RForm) (s : State) : exec (.diag f) s = execDiag f s := rfl
theorem exec_ctxld (f : RForm) (s : State) : exec (.ctxld f) s = execCtxld f s := rfl
theorem exec_ctxsv (f : RForm) (s : State) : exec (.ctxsv f) s = execCtxsv f s := rfl

/-! ### The start of a SYS instruction of R format (R324) -/

/-- The source fields of a SYS instruction of R format (R324). -/
abbrev systemFields (f : RForm) : List Field := [(f.a, false), (f.b, false), (f.c, false)]

/-- The value of source i in the lowest passing lane (R324). -/
abbrev systemValue (s : State) (r : Round) (f : RForm) (i : Nat) : Word := lowValue (r.passing f.g) (sources s r (systemFields f)) i

/-- The state and the round in which a SYS instruction of R format takes its effect. -/
abbrev systemBegun (s : State) (r : Round) (f : RForm) : State := s.begun r f.g (systemFields f)
abbrev systemRound (r : Round) (f : RForm) : Round := r.noted f.g (systemFields f)

/-- Where a lane passes, a SYS instruction acts on the values of the lowest one (R324). -/
theorem system_acts {s : State} {r : Round} {f : RForm} {touched : List Nat} (hs : Starts s r (systemFields f) touched)
    (hm : r.passing f.g ≠ 0) (k : State → Round → Mask → Word → Word → Word → Res) :
    system f s touched k = k (systemBegun s r f) (systemRound r f) (r.passing f.g) (systemValue s r f 0) (systemValue s r f 1)
      (systemValue s r f 2) := by
  rw [system, begin_started hs]
  exact if_neg hm

/-! ### The issuing round stays through a release (R297, R371) -/

/-- The same number of rounds, of which the same issues. -/
def SameSlots (s t : State) : Prop := t.cur = s.cur ∧ t.rounds.length = s.rounds.length

theorem SameSlots.refl (s : State) : SameSlots s s := ⟨rfl, rfl⟩

theorem SameSlots.trans {s t u : State} (h : SameSlots s t) (k : SameSlots t u) : SameSlots s u :=
  ⟨k.1.trans h.1, k.2.trans h.2⟩

/-- Where a round issues, one issues after it. -/
theorem SameSlots.issuing {s t : State} {r : Round} (h : SameSlots s t) (hi : s.issuing = some r) : ∃ q, t.issuing = some q := by
  obtain ⟨hlt, -⟩ := List.getElem?_eq_some_iff.1 (show s.rounds[s.cur]? = some r from hi)
  have ht : t.cur < t.rounds.length := by
    rw [h.1, h.2]
    exact hlt
  exact ⟨t.rounds[t.cur], List.getElem?_eq_getElem ht⟩

theorem foldl_sameSlots {α : Type} {f : State → α → State} (h : ∀ s x, SameSlots s (f s x)) (l : List α) (s : State) :
    SameSlots s (l.foldl f s) := by
  induction l generalizing s with
  | nil => exact .refl s
  | cons x l ih => exact (h s x).trans (ih (f s x))

theorem setRoundAt_sameSlots (s : State) (n : Nat) (r : Round) : SameSlots s (s.setRoundAt n r) := ⟨rfl, List.length_set⟩

theorem countLeft_sameSlots (s : State) (e : StoreEntry) : SameSlots s (countLeft s e) := by
  unfold countLeft
  split
  · exact .refl s
  · split <;> exact setRoundAt_sameSlots ..

theorem drainStores_sameSlots (s : State) (p : StoreEntry → Bool) : SameSlots s (s.drainStores p) := by
  unfold State.drainStores
  exact foldl_sameSlots (fun s (e : StoreEntry) => countLeft_sameSlots (s.writeBytes e.bytes) e) _ { s with stores := _ }

theorem releaseStores_sameSlots (s : State) (n scope : Nat) : SameSlots s (s.releaseStores n scope) := by
  unfold State.releaseStores
  split
  · exact .refl s
  · split
    · exact .refl s
    · dsimp only
      split
      · exact ⟨rfl, List.length_set⟩
      · split
        · exact (setRoundAt_sameSlots ..).trans (drainStores_sameSlots ..)
        · exact ((setRoundAt_sameSlots ..).trans (drainStores_sameSlots ..)).trans (setRoundAt_sameSlots ..)

theorem sendPacket_sameSlots (s : State) (n : Nat) (w e : Word) (body : Epoch → PacketBody) (f : Epoch → Epoch) (range lane : Nat)
    (counted : Bool) (st : FlightState) : SameSlots s (s.sendPacket n w e body f range lane counted st) := by
  unfold State.sendPacket
  split
  · exact .refl s
  · exact ⟨rfl, List.length_set⟩

theorem drainLine_sameSlots (s : State) (x : WcLine) : SameSlots s (s.drainLine x) := by
  unfold State.drainLine
  dsimp only
  split
  · exact ⟨rfl, rfl⟩
  · exact sendPacket_sameSlots { s with lines := s.lines.filter (fun y => y.id != x.id) } ..

theorem drainLines_sameSlots (s : State) (p : WcLine → Bool) : SameSlots s (s.drainLines p) :=
  foldl_sameSlots drainLine_sameSlots _ s

theorem afterRelease_sameSlots (s : State) (r : Round) (scope : Nat) (fence : Bool) : SameSlots s (s.afterRelease r scope fence) := by
  have hdrained : SameSlots s (if fence || s.effScope r scope = 6 then
      (s.releaseStores s.cur (s.effScope r scope)).drainLines (fun x => x.round == s.cur)
      else s.releaseStores s.cur (s.effScope r scope)) := by
    split
    · exact (releaseStores_sameSlots ..).trans (drainLines_sameSlots ..)
    · exact releaseStores_sameSlots ..
  unfold State.afterRelease
  dsimp only
  split <;> exact hdrained

/-! ### WRSR (R326) -/

/-- WRSR of a value within its register's ranges (R326). -/
theorem exec_wrsr_writes {s e : State} {r : Round} {f : IForm} (hs : Starts s r [(f.a, false)] []) (hm : r.passing f.g ≠ 0)
    (hw : writeStatus (s.begun r f.g [(f.a, false)]) (s.partOf r) (f.imm.toNat % 2 ^ 12)
      (lowValue (r.passing f.g) (sources s r [(f.a, false)]) 0) = some e) :
    exec (.wrsr f) s = finish (s.begun r f.g [(f.a, false)]) e [] (fun q => q) := by
  have hpart : (s.begun r f.g [(f.a, false)]).partOf (r.noted f.g [(f.a, false)]) = s.partOf r := rfl
  rw [exec_wrsr, execWrsr, begin_started hs, if_neg hm, hpart, hw]

/-! ### TLBI (R287, R327) -/

/-- The translations of a partition that meet an address are gone, or all of them, and what had used them has taken effect (R287, R327). -/
def State.invalidated (s : State) (part : Nat) (a : Word) (all : Bool) : State :=
  let drop := fun (t : TlbEntry) => t.part == part && (all || (decide (t.va ≤ a.toNat) && decide (a.toNat < t.va + t.size)))
  let e2 := s.finishAccesses part
  let e3 : State := { e2 with cores := e2.cores.map (fun c => (c.1, { c.2 with tlb := c.2.tlb.filter (fun t => !drop t) })) }
  e3.setPart { e3.part part with deadManifests := [] }

section Tlbi
variable {s : State} {r : Round} {f : RForm} (hs : Starts s r (systemFields f) [])
include hs

/-- TLBI that no lane passes is its fence alone (R45, R327). -/
theorem exec_tlbi_fence (hm : r.passing f.g = 0) :
    exec (.tlbi f) s = finish ((systemBegun s r f).afterRelease r 5 true) ((systemBegun s r f).afterRelease r 5 true) [] (fun q => q) := by
  rw [exec_tlbi, execTlbi, begin_started hs]
  dsimp only
  rw [if_neg (by simp [hm]), withRelease_ok _ (begun_issuing hs _ _) (releases_near _ _ _ _ (by decide))]
  exact if_pos hm

/-- TLBI of an address or of everything invalidates past its fence (R287, R327). -/
theorem exec_tlbi_invalidates (hm : r.passing f.g ≠ 0) (hb : systemValue s r f 1 = 0 ∨ systemValue s r f 1 = 1) :
    exec (.tlbi f) s = finish ((systemBegun s r f).afterRelease r 5 true)
      (((systemBegun s r f).afterRelease r 5 true).invalidated (s.teamOf r).part (systemValue s r f 0) (systemValue s r f 1 == 1)) []
      (fun q => q) := by
  have hlegal : ¬1 < (systemValue s r f 1).toNat := by
    obtain h | h := hb <;> rw [h] <;> decide
  rw [exec_tlbi, execTlbi, begin_started hs]
  dsimp only
  rw [if_neg (by simp [hlegal]), withRelease_ok _ (begun_issuing hs _ _) (releases_near _ _ _ _ (by decide))]
  exact if_neg hm

end Tlbi

/-! ### ERET (R288, R325, R393) -/

/-- What an action does to round q, number n, that is parked as p: the action suits the entry and leaves e (R325). -/
def Answers (s : State) (n : Nat) (q : Round) (p : Park) (action : Word) (e : State) : Prop :=
  (action = 0 ∧ e = s.resumeAt n p.resume q)
    ∨ (action = 1 ∧ p.service = false ∧ p.canStep = true ∧ e = s.resumeAt n (p.trap.index + 1) q)
    ∨ (action = 2 ∧ e = s.killRound n) ∨ (action = 3 ∧ e = s.killTeam q.team)
    ∨ (action = 4 ∧ p.service = true
        ∧ e = { parkTrap { s with cur := n } q { p.trap with cause := 0x60 } q.clause.isSome p.resume with cur := s.cur })

/-- An action that answers an entry is one of the five. -/
theorem Answers.action_le {s e : State} {n : Nat} {q : Round} {p : Park} {action : Word} (h : Answers s n q p action e) :
    action.toNat ≤ 4 := by
  obtain ⟨rfl, -⟩ | ⟨rfl, -⟩ | ⟨rfl, -⟩ | ⟨rfl, -⟩ | ⟨rfl, -⟩ := h <;> decide

/-- An action that suits its entry answers it. -/
theorem Answers.answerParked {s e : State} {n : Nat} {q : Round} {p : Park} {action : Word} (h : Answers s n q p action e) :
    s.answerParked n q p action.toNat = some e := by
  obtain ⟨rfl, rfl⟩ | ⟨rfl, hservice, hstep, rfl⟩ | ⟨rfl, rfl⟩ | ⟨rfl, rfl⟩ | ⟨rfl, hservice, rfl⟩ := h
  · rfl
  · exact if_neg (by simp [hservice, hstep])
  · rfl
  · rfl
  · exact if_pos hservice

section Eret
variable {s : State} {r : Round} {f : RForm} (hs : Starts s r (systemFields f) []) (hm : r.passing f.g ≠ 0)
include hs hm

/-- ERET answers a parked round, and then those that wait for the same pages (R288, R325). -/
theorem exec_eret_answers {n : Nat} {q : Round} {p : Park} {e : State}
    (hround : ¬((systemValue s r f 0).toNat < 2 ^ 32 ∧ (systemValue s r f 0).getLsbD 15 = true))
    (hparked : (systemBegun s r f).parkedNamed (s.teamOf r).part (systemValue s r f 0) = some (n, q, p))
    (ha : Answers (systemBegun s r f) n q p (systemValue s r f 1) e) :
    exec (.eret f) s = finish (systemBegun s r f) (e.wakeAsked ((systemBegun s r f).teamOf q).part p) [] (fun q => q) := by
  have hteam : (systemBegun s r f).teamOf (systemRound r f) = s.teamOf r := rfl
  have hanswer : (systemBegun s r f).answerRound n q p (systemValue s r f 1).toNat
      = some (e.wakeAsked ((systemBegun s r f).teamOf q).part p) := by
    rw [State.answerRound, ha.answerParked, Option.map_some]
  rw [exec_eret, execEret, system_acts hs hm]
  dsimp only
  rw [if_neg (Nat.not_lt.2 ha.action_le), if_neg (by simpa using hround), hteam, hparked]
  dsimp only
  rw [hanswer]

/-- ERET answers a service handle (R393). -/
theorem exec_eret_serves {v : Service} (hlow : (systemValue s r f 0).toNat < 2 ^ 32) (hbit : (systemValue s r f 0).getLsbD 15 = true)
    (ha : systemValue s r f 1 = 0 ∨ systemValue s r f 1 = 4)
    (hv : s.services.find? (fun v => v.handle == (systemValue s r f 0).toNat && v.part == (s.teamOf r).part) = some v) :
    exec (.eret f) s = finish (systemBegun s r f) ((systemBegun s r f).answerService v (systemValue s r f 1 == 4)) [] (fun q => q) := by
  have hlegal : ¬4 < (systemValue s r f 1).toNat := by
    obtain h | h := ha <;> rw [h] <;> decide
  have hservices : (systemBegun s r f).services.find? (fun v => v.handle == (systemValue s r f 0).toNat
      && v.part == ((systemBegun s r f).teamOf (systemRound r f)).part) = some v := hv
  rw [exec_eret, execEret, system_acts hs hm]
  dsimp only
  rw [if_neg hlegal, if_pos (Bool.and_eq_true_iff.2 ⟨decide_eq_true hlow, hbit⟩), hservices]
  exact if_pos (by simpa using ha)

end Eret

/-! ### RTABW, HALT and DIAG (R266, R327) -/

section Tables
variable {s : State} {r : Round} {f : RForm}

/-- An entry that RTABW accepts is written (R327, R367). -/
theorem writeEntry_ok {part job rank : Nat} {x : Word} (hr : rank ≤ 6143) (hx : entryOk x = true) :
    s.writeEntry part job (rank, x) =
      (s.setPart { s.part part with jobs := SMap.set (s.part part).jobs (6144 * job + rank) x }).setPackage
        (s.package.adopt job rank ((s.part part).entry job rank) x) := by
  have hlt : rank < 6144 := Nat.lt_succ_of_le hr
  exact if_pos (by simp [hlt, hx])

/-- RTABW of an entry within its ranges (R327). -/
theorem exec_rtabw_writes (hs : Starts s r (systemFields f) []) (hm : r.passing f.g ≠ 0) (hjob : (systemValue s r f 0).toNat ≤ 255)
    (hrank : (systemValue s r f 1).toNat ≤ 6143) (hentry : entryOk (systemValue s r f 2) = true) :
    exec (.rtabw f) s = finish (systemBegun s r f) ((systemBegun s r f).writeEntry (s.teamOf r).part (systemValue s r f 0).toNat
      ((systemValue s r f 1).toNat, systemValue s r f 2)) [] (fun q => q) := by
  rw [exec_rtabw, execRtabw, system_acts hs hm]
  exact if_neg (by simp [hjob, hrank, hentry])

/-- HALT while an entry is pending (R327). -/
theorem exec_halt_pending (hs : Starts s r (systemFields f) []) (hm : r.passing f.g ≠ 0)
    (hp : (s.partOf r).head ≠ (s.partOf r).tail ∨ (s.partOf r).queue ≠ []) :
    exec (.halt f) s = finish (systemBegun s r f) (systemBegun s r f) [] (fun q => q) := by
  have hpart : (systemBegun s r f).partOf (systemRound r f) = s.partOf r := rfl
  rw [exec_halt, execHalt, system_acts hs hm]
  dsimp only
  rw [hpart]
  exact if_pos (by simpa using hp)

/-- The flip that a request of DIAG names (R266). -/
def flipOf (slot : Nat) (b : Word) : Flip := { slot := slot, elem := 64 * bits b 16 11 + bits b 10 5, bit := bits b 4 0 }

/-- DIAG of a slot of the team that is not fenced (R266, R327). -/
theorem exec_diag_arms (hs : Starts s r (systemFields f) []) (hm : r.passing f.g ≠ 0) (hreq : systemValue s r f 0 = 0x301)
    (hbits : bits (systemValue s r f 1) 63 26 = 0) (hslot : bits (systemValue s r f 1) 25 17 < (s.teamOf r).acc)
    (hfenced : (s.teamOf r).fenced.contains (slotKey (s.teamOf r) r (bits (systemValue s r f 1) 25 17)) = false) :
    let flip := flipOf (slotKey (s.teamOf r) r (bits (systemValue s r f 1) 25 17)) (systemValue s r f 1)
    exec (.diag f) s = finish (systemBegun s r f)
      ((systemBegun s r f).modTeam r (fun t => { t with flips := t.flips.filter (fun y => y.slot != flip.slot) ++ [flip] })) []
      (fun q => q) := by
  intro flip
  have hteam : (systemBegun s r f).teamOf (systemRound r f) = s.teamOf r := rfl
  have hkey (slot : Nat) : slotKey (s.teamOf r) (systemRound r f) slot = slotKey (s.teamOf r) r slot := rfl
  rw [exec_diag, execDiag, system_acts hs hm]
  dsimp only
  rw [if_neg (by simp [hreq, hbits]), hteam, hkey, if_neg (Nat.not_le.2 hslot), if_neg (ne_true_of_eq_false hfenced)]
  rfl

end Tables

/-! ### Ranges of any number of pages (R288, R289, R327) -/

/-- A range whose pages all translate goes on (R288). -/
theorem withRange_ok {s : State} {r : Round} {m : Mask} {w : Bool} {a : Word} {n : Nat} (k : Res) (h : RangeAt s r w a n) :
    withRange s r m w a n k = k := by
  have hx : ∀ x ∈ (pagesOf a n).map (fun p => (p, s.xlat r w p)), ∃ pa, x.2 = .ok pa := by
    intro x hx
    obtain ⟨p, hp, rfl⟩ := List.mem_map.1 hx
    exact h p hp
  have hrefused : ((pagesOf a n).map (fun p => (p, s.xlat r w p))).findSome?
      (fun x => match x.2 with | .refused f => some (x.1, f) | _ => none) = none := by
    rw [List.findSome?_eq_none_iff]
    intro x hm
    obtain ⟨pa, hpa⟩ := hx x hm
    rw [hpa]
  have hmissing : ((pagesOf a n).map (fun p => (p, s.xlat r w p))).filterMap
      (fun x => match x.2 with | .missing l => some (x.1, l) | _ => none) = [] := by
    rw [List.filterMap_eq_nil_iff]
    intro x hm
    obtain ⟨pa, hpa⟩ := hx x hm
    rw [hpa]
  have hheld : ¬((pagesOf a n).map (fun p => (p, s.xlat r w p))).any (fun x => x.2 == .held) = true := by
    rw [List.any_eq_true]
    rintro ⟨x, hm, hh⟩
    obtain ⟨pa, hpa⟩ := hx x hm
    rw [hpa] at hh
    exact Xlat.noConfusion (beq_iff_eq.1 hh)
  unfold withRange
  dsimp only
  split
  · next hf => exact absurd (hrefused.symm.trans hf) (by simp)
  · split
    · next hf => exact absurd (hmissing.symm.trans hf) (by simp)
    · exact if_neg hheld

/-- A clean range goes on with its bytes (R288, R289). -/
theorem withRangeRead_ok {s e : State} {r q : Round} {m : Mask} {a : Word} {n : Nat} {b : List Byte}
    (k : State → Round → List Byte → Res) (h : RangeRead s r m a n e q b) : withRangeRead s r m a n k = k e q b := by
  obtain ⟨pas, hat, rfl, hclean, rfl, hq, rfl⟩ := h
  rw [withRangeRead, withRange_ok _ hat]
  exact (withClean_ok _ hclean).trans (onRound_eq hq _)

/-! ### CTXLD (R327) -/

/-- A context is the last save of its team, which has been unloaded since (R327). -/
def State.unloadedAs (s : State) (c : SavedContext) : Prop :=
  (∀ y ∈ s.contexts, y.team = c.team → y.id ≤ c.id) ∧ (s.teams.getD c.team Team.blank).status = .unloaded

/-- The state and the team of a loaded context: its own team again, or a copy (R327). -/
def State.teamOfContext (s : State) (c : SavedContext) : State × Nat :=
  if !s.contexts.any (fun y => y.team == c.team && decide (c.id < y.id)) && (s.teams.getD c.team Team.blank).status == .unloaded then
    (s, c.team)
  else s.copyContext c

theorem unloadedAs_iff (s : State) (c : SavedContext) :
    (!s.contexts.any (fun y => y.team == c.team && decide (c.id < y.id)) && (s.teams.getD c.team Team.blank).status == .unloaded) = true
      ↔ s.unloadedAs c := by
  simp [State.unloadedAs]

/-- A context that is its team again stays it, and another is copied (R327). -/
theorem teamOfContext_eq {s e : State} {c : SavedContext} {team : Nat} (hagain : s.unloadedAs c → e = s ∧ team = c.team)
    (hcopy : ¬s.unloadedAs c → (e, team) = s.copyContext c) : s.teamOfContext c = (e, team) := by
  unfold State.teamOfContext
  split
  · next h =>
    obtain ⟨rfl, rfl⟩ := hagain ((unloadedAs_iff s c).1 h)
    rfl
  · next h => exact (hcopy (fun ha => h ((unloadedAs_iff s c).2 ha))).symm

/-- A team stands saved under node n, which may resume it (R320, R327). -/
def State.giveNode (s : State) (n team : Nat) : State :=
  ((s.setTeam team { s.teams.getD team Team.blank with node := some n, status := .saved }).modNode n (fun y => y.addResumable team)).refresh

/-- CTXLD of a context that its partition saved, to a node of its kernel (R327). -/
theorem exec_ctxld_gives {s e1 e2 : State} {r q1 q2 : Round} {f : RForm} {n : Nat} {node : Node} {c : SavedContext}
    {head bytes : List Byte} (hs : Starts s r (systemFields f) []) (hm : r.passing f.g ≠ 0)
    (hn : (systemBegun s r f).liveNode (s.teamOf r).part (systemValue s r f 0).toNat = some n)
    (hnode : (systemBegun s r f).nodes[n]? = some node) (hkind : node.record.kind = 0) (hkernel : c.what.kernel.addr = node.kernel.addr)
    (hhead : RangeRead (systemBegun s r f) (systemRound r f) (r.passing f.g) (systemValue s r f 1) 128 e1 q1 head)
    (hbytes : RangeRead e1 q1 (r.passing f.g) (systemValue s r f 1) (max 128 (bytesAt head 4 4)) e2 q2 bytes)
    (hc : e2.contexts.find? (fun c => c.part == (s.teamOf r).part && c.size == bytesAt head 4 4 && contextImage c == bytes) = some c) :
    exec (.ctxld f) s = finish (systemBegun s r f) ((e2.teamOfContext c).1.giveNode n (e2.teamOfContext c).2) [] (fun q => q) := by
  have hteam : (systemBegun s r f).teamOf (systemRound r f) = s.teamOf r := rfl
  rw [exec_ctxld, execCtxld, system_acts hs hm]
  dsimp only
  rw [hteam, hn, Option.bind_some, hnode, Option.map_some]
  dsimp only
  rw [withRangeRead_ok _ hhead, withRangeRead_ok _ hbytes, hc]
  exact if_neg (by simp [hkind, hkernel])

/-! ### CTXSV (R320, R327) -/

/-- The length of the context that CTXSV writes next of a team (R327, log entry 12). -/
def State.savedSize (s : State) (team : Nat) : Nat :=
  let t := s.teams.getD team Team.blank
  128 + min (Config.contextLength s.nextId) (contextBytes t.kernel t.pair - 128)

/-- A saved team's context has its number, and its gang is unloaded whole (R320, R327). -/
def State.unloaded (s : State) (team : Nat) : State :=
  let others := s.gangTeams team
  let e1 : State := { s with
    nextId := s.nextId + 1,
    contexts := s.contexts ++ [s.contextOf team s.nextId (s.savedSize team)],
    teams := s.teams.zipIdx.map (fun y => if others.contains y.2 && y.1.status == .saved then { y.1 with status := .unloaded } else y.1) }
  e1.dropResumable others.contains

/-- CTXSV of a team that has been saved writes its context (R327). -/
theorem exec_ctxsv_writes {s : State} {r q : Round} {f : RForm} {n : Nat} (hs : Starts s r (systemFields f) (regNames f.d 1))
    (hm : r.passing f.g ≠ 0) (hn : (systemBegun s r f).roundNamed (s.teamOf r).part (systemValue s r f 0) = some n)
    (hq : (systemBegun s r f).rounds[n]? = some q) (hal : (systemValue s r f 1).toNat % 4096 = 0) :
    let b := systemBegun s r f
    let t := b.teams.getD q.team Team.blank
    RangeAt b (systemRound r f) true (systemValue s r f 1) (contextBytes t.kernel t.pair) → (t.status = .saved ∨ t.status = .unloaded) →
      exec (.ctxsv f) s = finish b ((b.unloaded q.team).writeVirtual (systemRound r f) (systemValue s r f 1)
        (contextImage (b.contextOf q.team b.nextId (b.savedSize q.team)))) []
        (writeOperand (r.passing f.g) f.d (tab (fun _ => BitVec.ofNat 64 (b.savedSize q.team)))) := by
  intro b t hrange hstatus
  have hteam : b.teamOf (systemRound r f) = s.teamOf r := rfl
  rw [exec_ctxsv, execCtxsv, system_acts hs hm]
  dsimp only
  rw [hteam, hn, Option.bind_some, hq, Option.map_some]
  dsimp only
  rw [if_neg (by simp [hal]), withRange_ok _ hrange]
  obtain h | h := hstatus <;> rw [h] <;> rfl

/-- Settles O51, an instruction at a time: past its checks each takes its effect, and then its rows fit. -/
theorem systemCompletes : Obligations.SystemCompletes := by
  intro s r k f
  refine ⟨?_, ?_, ?_⟩
  · intro fs b e hs hm hw hf
    exact (exec_wrsr_writes hs hm hw).trans (finish_done (begun_issuing hs _ _) hf)
  · intro fs b m x part hs
    have hi : b.issuing = some (r.noted f.g fs) := begun_issuing hs _ _
    refine ⟨?_, fun hm => ⟨?_, ?_, ?_, ?_, ?_⟩⟩
    · intro e1
      obtain ⟨q, hi1⟩ : ∃ q, e1.issuing = some q := (afterRelease_sameSlots b r 5 true).issuing hi
      refine ⟨fun hm hf => (exec_tlbi_fence hs hm).trans (finish_done hi1 hf), ?_⟩
      intro drop e2 e3 e hm hb hf
      exact (exec_tlbi_invalidates hs hm hb).trans (finish_done hi1 hf)
    · intro n q p e1 hround hparked ha e hf
      exact (exec_eret_answers hs hm hround hparked ha).trans (finish_done hi hf)
    · intro v hlow hbit ha hv hf
      exact (exec_eret_serves hs hm hlow hbit ha hv).trans (finish_done hi hf)
    · intro p e hjob hrank hentry hf
      exact (exec_rtabw_writes hs hm hjob hrank hentry).trans
        ((congrArg (fun e => finish b e [] (fun q => q)) (writeEntry_ok hrank hentry)).trans (finish_done hi hf))
    · intro hp hf
      exact (exec_halt_pending hs hm hp).trans (finish_done hi hf)
    · intro t slot flip e hreq hbits hslot hfenced hf
      exact (exec_diag_arms hs hm hreq hbits hslot hfenced).trans (finish_done hi hf)
  · intro fs b m x part hm
    refine ⟨?_, ?_⟩
    · intro n node c e1 q1 e2 q2 head bytes e3 team size again t e hs hn hnode hkind hkernel hhead hbytes hc hagain hcopy hf
      have hgives := exec_ctxld_gives hs hm hn hnode hkind hkernel hhead hbytes hc
      rw [teamOfContext_eq hagain hcopy] at hgives
      exact hgives.trans (finish_done (begun_issuing hs _ _) hf)
    · intro n q hs hn hq hal t z size c others e1 e write hrange hstatus hf
      exact (exec_ctxsv_writes hs hm hn hq hal hrange hstatus).trans (finish_done (begun_issuing hs _ _) hf)

end Sys2Proof.Machine
end

section
/-! PROOFS. The cluster barrier (R272 to R274): a round that may arrive does so past its release at cluster scope, and then ends the phase or
waits. -/
namespace Sys2Proof.Machine

theorem exec_cbar (f : SForm) (s : State) : exec (.cbar f) s = execCbar f s := rfl

section Arrival
variable {s : State} {r : Round} {f : SForm}

/-- A round that is held at no phase, whose count and exchange are those of the phase, and whose items and window changes have landed arrives
(R273, log entry 42). -/
theorem exec_cbar_arrives (hi : s.issuing = some r) (hmay : MayArriveAtGang s r f) :
    exec (.cbar f) s = arriveGang s f (barCount s r f) := by
  obtain ⟨⟨hstatus, hheld, harrived⟩, ⟨hp, hpos, hle, hcount⟩, hitems, hupdates⟩ := hmay
  have hfresh : ¬(r.status == .waiting .cluster) = true := fun h => hstatus (beq_iff_eq.1 h)
  have hlegal : ¬(decide (barCount s r f = 0) || decide (256 < barCount s r f)) = true := by
    rw [Bool.or_eq_true, decide_eq_true_iff, decide_eq_true_iff]
    omega
  have hsame : ¬((s.gang (s.teamOf r).gang).count != 0 && (barCount s r f != (s.gang (s.teamOf r).gang).count
      || f.bar.getLsbD 0 != (s.gang (s.teamOf r).gang).swap)) = true := by
    rw [Bool.and_eq_true, Bool.or_eq_true, bne_iff_ne, bne_iff_ne, bne_iff_ne]
    exact fun ⟨hstarted, hother⟩ => hcount.elim hstarted (fun h => hother.elim (· h.1) (· h.2))
  have hlanded : ¬(s.items.any (fun i => i.round == s.cur) || s.updates.any (fun u => u.team == r.team)) = true := by
    rw [Bool.or_eq_true, List.any_eq_true, List.any_eq_true]
    rintro (⟨i, hmem, h⟩ | ⟨u, hmem, h⟩)
    · exact hitems i hmem (beq_iff_eq.1 h)
    · exact hupdates u hmem (beq_iff_eq.1 h)
  rw [exec_cbar, execCbar, onRound_eq hi]
  dsimp only
  rw [if_neg hfresh, hheld, Bool.and_false, if_neg Bool.false_ne_true, hp, if_neg Bool.false_ne_true, if_neg hlegal, harrived,
    if_neg Bool.false_ne_true, if_neg hsame, if_neg hlanded]

/-- A waiting round that the barrier no longer holds goes on (R273). -/
theorem exec_cbar_released (hi : s.issuing = some r) (hw : r.status = .waiting .cluster)
    (hheld : (s.gang (s.teamOf r).gang).waiters.contains s.cur = false) : exec (.cbar f) s = finish s s [] (fun q => q) := by
  rw [exec_cbar, execCbar, onRound_eq hi]
  dsimp only
  rw [if_pos (beq_iff_eq.2 hw), hheld, if_neg Bool.false_ne_true]

end Arrival

/-- The cluster barrier of the issuing round q once q has arrived with count c (R273). -/
def State.gangArrival (e : State) (q : Round) (f : SForm) (c : Nat) : Gang :=
  { e.gang (e.teamOf q).gang with count := c, swap := f.bar.getLsbD 0, arrived := (e.gang (e.teamOf q).gang).arrived ++ [e.cur] }

section Phase
variable {s : State} {r q : Round} {f : SForm} {c : Nat} (hi : s.issuing = some r) (hq : (s.afterRelease r 3 false).issuing = some q)
include hi hq

/-- The arrival that completes a phase exchanges the banks where asked, clears the phase and turns its parity, after a release at cluster scope
that takes effect in the same step (R273, R274, log entry 10). -/
theorem arriveGang_last :
    let e := s.afterRelease r 3 false
    let y := e.gangArrival q f c
    y.arrived.length = c →
      arriveGang s f c = finish e ((if y.swap then e.swapBanks (e.teamOf q).gang else e).setGang (e.teamOf q).gang
        { y.cleared with parity := !y.parity }) [] (fun q => q) := by
  intro e y hlast
  rw [arriveGang, withRelease_ok _ hi (releases_near _ _ _ _ (by decide)), onRound_eq hq]
  exact if_pos hlast

/-- At an arrival before the last of a phase that can still complete the round is held (R273). -/
theorem arriveGang_earlier :
    let e := s.afterRelease r 3 false
    let g := (e.teamOf q).gang
    let y := e.gangArrival q f c
    y.arrived.length ≠ c → (e.setGang g y).gangUnsat g y = false →
      arriveGang s f c = stall (e.setGang g { y with waiters := y.waiters ++ [e.cur] }) q .cluster := by
  intro e g y hearlier hsat
  rw [arriveGang, withRelease_ok _ hi (releases_near _ _ _ _ (by decide)), onRound_eq hq]
  exact (if_neg hearlier).trans (if_neg (ne_true_of_eq_false hsat))

end Phase

/-- Settles O44: an arrival ends its phase or comes earlier; then the round that waited. -/
theorem clusterBarrierCompletes : Obligations.ClusterBarrierCompletes := by
  intro s r q f g x c e z y hi
  refine ⟨fun hmay hq => ⟨?_, ?_⟩, fun hw hheld hf => ?_⟩
  · intro e1 hlast hf
    exact (exec_cbar_arrives hi hmay).trans ((arriveGang_last hi hq hlast).trans (finish_done hq hf))
  · intro hearlier hsat
    exact (exec_cbar_arrives hi hmay).trans ((arriveGang_earlier hi hq hearlier hsat).trans (stall_next ..))
  · exact (exec_cbar_released hi hw hheld).trans (finish_done hi hf)

end Sys2Proof.Machine
end

section
/-! PROOFS. The exchange (R269 to R271, R275 to R278): past its checks XWIN sends a window change, XST and XADD send their items; an item that
is the first of its round and peer lands, and a change that nothing stands before takes effect. -/
namespace Sys2Proof.Machine

theorem exec_xwin (f : RForm) (s : State) : exec (.xwin f) s = execXwin f s := rfl
theorem exec_xst (f : RForm) (s : State) : exec (.xst f) s = execXst f s := rfl
theorem exec_xadd (f : AForm) (s : State) : exec (.xadd f) s = execXadd f s := rfl
theorem exec_exchangeItemLand (n : Nat) (s : State) : exec (.exchangeItemLand n) s = execExchangeItemLand n s := rfl
theorem exec_windowTableUpdate (n : Nat) (s : State) : exec (.windowTableUpdate n) s = execWindowTableUpdate n s := rfl

/-! ### XWIN (R271) -/

/-- A window of n bytes at a base that R271 lets a team declare as its window w. -/
def WindowOk (t : Team) (w base n : Nat) : Prop :=
  n % 4096 = 0 ∧ n ≤ 262144 ∧ base % 4096 = 0 ∧ base + 2 * n ≤ t.spadSize ∧ (t.win w).declared = false
    ∧ ∀ x ∈ t.windows, x.declared = true → x.base + 2 * x.size ≤ base ∨ base + 2 * n ≤ x.base

/-- A range that lies apart from every declared window meets none (R271). -/
theorem WindowOk.meets_none {t : Team} {w base n : Nat} (h : WindowOk t w base n) :
    t.windows.any (fun x => x.declared && decide (base < x.base + 2 * x.size) && decide (x.base < base + 2 * n)) = false := by
  obtain ⟨-, -, -, -, -, hapart⟩ := h
  rw [List.any_eq_false]
  intro x hx hmeets
  rw [Bool.and_eq_true, Bool.and_eq_true, decide_eq_true_iff, decide_eq_true_iff] at hmeets
  obtain ⟨⟨hdeclared, hbelow⟩, habove⟩ := hmeets
  have := hapart x hx hdeclared
  omega

/-- A check of XWIN that only a size other than 0 undergoes (R271). -/
theorem sizedCheck_passes {n : Nat} {c : Bool} (h : n ≠ 0 → c = false) : ¬(n != 0 && c) = true := by
  rw [Bool.and_eq_true, bne_iff_ne]
  exact fun ⟨hn, hc⟩ => ne_true_of_eq_false (h hn) hc

/-- The source fields of XWIN (R271). -/
abbrev xwinFields (f : RForm) : List Field := [(f.a, false), (f.b, false), (f.c, false)]

/-- The value that XWIN finds in source i: its base, its size, its window (R271). -/
abbrev xwinValue (s : State) (r : Round) (f : RForm) (i : Nat) : Nat := (laneOf (arg (sources s r (xwinFields f)) i) 0).toNat

/-- A window change that stands among the updates of its team (R271). -/
def State.sendUpdate (s : State) (team w base n : Nat) : State :=
  { s with updates := s.updates ++ [{ id := s.nextId, team := team, window := w, base := base, size := n }], nextId := s.nextId + 1 }

/-- XWIN past its checks sends its window change (R271, log entry 42). -/
theorem exec_xwin_sends {s : State} {r : Round} {f : RForm} (hs : Starts s r (xwinFields f) []) (hm : r.passing f.g ≠ 0)
    (hnone : ∀ u ∈ s.updates, u.team ≠ r.team) (hw : xwinValue s r f 2 ≤ 3)
    (hok : xwinValue s r f 1 ≠ 0 → WindowOk (s.teamOf r) (xwinValue s r f 2) (xwinValue s r f 0) (xwinValue s r f 1)) :
    exec (.xwin f) s = finish (s.begun r f.g (xwinFields f))
      ((s.begun r f.g (xwinFields f)).sendUpdate r.team (xwinValue s r f 2) (xwinValue s r f 0) (xwinValue s r f 1))
      (xwinFields f) (fun q => q) := by
  have hquiet : s.updates.any (fun u => u.team == r.team) = false := by
    rw [List.any_eq_false]
    exact fun u hu h => hnone u hu (beq_iff_eq.1 h)
  have hsize := sizedCheck_passes (c := xwinValue s r f 1 % 4096 != 0 || decide (262144 < xwinValue s r f 1)) fun hn => by
    obtain ⟨hmultiple, hmax, -⟩ := hok hn
    simp [hmultiple, hmax]
  have haligned := sizedCheck_passes (c := xwinValue s r f 0 % 4096 != 0) fun hn => by
    obtain ⟨-, -, hbase, -⟩ := hok hn
    simp [hbase]
  have hinside := sizedCheck_passes (c := decide ((s.teamOf r).spadSize < xwinValue s r f 0 + 2 * xwinValue s r f 1)) fun hn => by
    obtain ⟨-, -, -, hfits, -⟩ := hok hn
    simp [hfits]
  have hfree := sizedCheck_passes fun hn => by
    obtain ⟨-, -, -, -, hundeclared, -⟩ := hok hn
    exact Bool.or_eq_false_iff.2 ⟨hundeclared, (hok hn).meets_none⟩
  rw [exec_xwin, execXwin, begin_started hs, if_neg hm]
  refine (if_neg (ne_true_of_eq_false hquiet)).trans ?_
  exact (if_neg (Nat.not_lt.2 hw)).trans <| (if_neg hsize).trans <| (if_neg haligned).trans <| (if_neg hinside).trans <| if_neg hfree

/-! ### XST and XADD (R275 to R277) -/

/-- A check that every target passes goes on (R277, R394). -/
theorem checkTargets_ok {s : State} {r : Round} {cause : Nat} {l : List Target} {ok : Target → Bool}
    (info : Target → Word × Word × Word) (k : Res) (h : ∀ t ∈ l, ok t = true) : checkTargets s r cause l ok info k = k := by
  have hnone : l.filter (fun t => !ok t) = [] := List.filter_eq_nil_iff.2 (fun t ht => by simp [h t ht])
  rw [checkTargets, hnone]

/-- Targets that R277 allows pass its three checks. -/
theorem withTargets_ok {s : State} {r : Round} {z : Nat} {l : List Target} (k : Res) (h : TargetsOk s r z l) :
    withTargets s r z l k = k := by
  rw [withTargets, checkTargets_ok _ _ (fun t ht => decide_eq_true (h t ht).1), checkTargets_ok _ _ (fun t ht => (h t ht).2.1),
    checkTargets_ok _ _ (fun t ht => beq_iff_eq.2 (h t ht).2.2)]

/-- The source fields of XST and of XADD (R275, R276). -/
abbrev xstFields (f : RForm) : List Field := [rA f, rB f, (f.c, false), (f.d, false)]
abbrev xaddFields (f : AForm) : List Field := [(f.a, false), (f.a + 1, false), (f.b, false)]

/-- The targets of XST in the passing lanes (R275). -/
def xstTargets (m : Mask) (xs : List Lanes) : List Target :=
  (lanesOf m).map (fun i => { lane := i, peer := laneOf (arg xs 1) i, win := laneOf (arg xs 2) i, off := laneOf (arg xs 0) i })

/-- The targets of XADD in the passing lanes: its second register holds peer and window (R276). -/
def xaddTargets (m : Mask) (xs : List Lanes) : List Target :=
  (lanesOf m).map (fun i => { lane := i, peer := BitVec.ofNat 64 (bits (laneOf (arg xs 1) i) 2 0)
                              win := BitVec.ofNat 64 (bits (laneOf (arg xs 1) i) 9 8), off := laneOf (arg xs 0) i })

/-- XST to targets that R277 allows sends an item for each. -/
theorem exec_xst_sends {s : State} {r : Round} {f : RForm} (hs : Starts s r (xstFields f) []) :
    let xs := sources s r (xstFields f)
    let l := xstTargets (r.passing f.g) xs
    let b := s.begun r f.g (xstFields f)
    TargetsOk s r 8 l → exec (.xst f) s = finish b (b.sendItems r 0 l (laneOf (arg xs 3))) (xstFields f) (fun q => q) := by
  intro xs l b hok
  rw [exec_xst, execXst, begin_started hs]
  exact withTargets_ok (s := b) (r := r.noted f.g (xstFields f)) _ hok

/-- XADD to targets that R277 allows sends an item for each. -/
theorem exec_xadd_sends {s : State} {r : Round} {h : AForm} (hs : Starts s r (xaddFields h) []) :
    let xs := sources s r (xaddFields h)
    let l := xaddTargets (r.passing h.g) xs
    let b := s.begun r h.g (xaddFields h)
    TargetsOk s r (if h.asz = 2 then 2 else 4) l →
      exec (.xadd h) s = finish b (b.sendItems r (xaddOp h) l (laneOf (arg xs 2))) (xaddFields h) (fun q => q) := by
  intro xs l b hok
  rw [exec_xadd, execXadd, begin_started hs]
  exact withTargets_ok (s := b) (r := r.noted h.g (xaddFields h)) _ hok

/-! ### EXCHANGE_ITEM_LAND (R277, R278) and WINDOW_TABLE_UPDATE (R271) -/

/-- The accesses behind a release to the bytes of an item take effect before it lands (R157, R274). -/
def State.beforeItem (s : State) (x : XItem) : State :=
  let at_ := itemPlace (s.teams.getD x.team Team.blank) x
  s.performOn (fun _ q a => a.released && q.team == x.team) true ((List.range at_.2).map (fun i => at_.1 + i))

/-- The first item in flight from its round to its peer lands (R278). -/
theorem exec_item_lands {s : State} {x : XItem} (hfind : s.items.find? (fun i => i.id == x.id) = some x)
    (hfirst : ∀ i ∈ s.items, i.round = x.round → i.team = x.team → x.id ≤ i.id) :
    let s1 := s.beforeItem x
    exec (.exchangeItemLand x.id) s =
      .next (({ s1 with items := s1.items.filter (fun i => i.id != x.id) } : State).setTeam x.team
        (landItem (s1.teams.getD x.team Team.blank) x)) := by
  have hnone : s.items.any (fun i => i.round == x.round && i.team == x.team && decide (i.id < x.id)) = false := by
    rw [List.any_eq_false]
    intro i hmem hi
    rw [Bool.and_eq_true, Bool.and_eq_true, beq_iff_eq, beq_iff_eq, decide_eq_true_iff] at hi
    obtain ⟨⟨hround, hteam⟩, hbefore⟩ := hi
    exact absurd (hfirst i hmem hround hteam) (Nat.not_le.2 hbefore)
  rw [exec_exchangeItemLand, execExchangeItemLand, hfind]
  dsimp only
  rw [hnone, if_neg Bool.false_ne_true]
  rfl

/-- What a team had issued to the bytes that become shadow addresses takes effect before its window changes (R270, log entry 42). -/
def State.beforeUpdate (s : State) (u : WindowUpdate) : State :=
  s.performAll (fun _ q a => a.spad && q.team == u.team && a.within (u.base + u.size) (u.base + 2 * u.size))

/-- A team once its window is declared, with a back bank of zeros, or released (R271). -/
def Team.updated (t : Team) (u : WindowUpdate) : Team :=
  if u.size = 0 then { t with windows := t.windows.set u.window Window.reset }
  else { t with
    windows := t.windows.set u.window { declared := true, base := u.base, size := u.size, bank := false },
    spad := Memory.writeList t.spad (u.base + u.size) (List.replicate u.size 0) }

/-- The first change of its team takes effect once no item is in flight to its window and no copy, pass or drain still writes the bytes that
become shadow addresses (R270, R271, log entry 42). -/
theorem exec_window_updates {s : State} {u : WindowUpdate} (hfind : s.updates.find? (fun v => v.id == u.id) = some u)
    (hlanded : ∀ i ∈ s.items, i.team = u.team → i.window ≠ u.window) (hfirst : ∀ v ∈ s.updates, v.team = u.team → u.id ≤ v.id)
    (hquiet : s.writesIn u.team (u.base + u.size) (u.base + 2 * u.size) = false) :
    let s1 := s.beforeUpdate u
    exec (.windowTableUpdate u.id) s =
      .next (({ s1 with updates := s1.updates.filter (fun v => v.id != u.id) } : State).setTeam u.team
        ((s1.teams.getD u.team Team.blank).updated u)) := by
  have hitems : s.items.any (fun i => i.team == u.team && i.window == u.window) = false := by
    rw [List.any_eq_false]
    intro i hmem hi
    rw [Bool.and_eq_true, beq_iff_eq, beq_iff_eq] at hi
    exact hlanded i hmem hi.1 hi.2
  have hupdates : s.updates.any (fun v => v.team == u.team && decide (v.id < u.id)) = false := by
    rw [List.any_eq_false]
    intro v hmem hv
    rw [Bool.and_eq_true, beq_iff_eq, decide_eq_true_iff] at hv
    exact absurd (hfirst v hmem hv.1) (Nat.not_le.2 hv.2)
  rw [exec_windowTableUpdate, execWindowTableUpdate, hfind]
  dsimp only
  rw [hitems, if_neg Bool.false_ne_true, hupdates, if_neg Bool.false_ne_true, hquiet, if_neg Bool.false_ne_true]
  rfl

/-- Settles O45: each of XWIN, XST and XADD sends once, and then its rows fit; then the two events. -/
theorem exchangeCompletes : Obligations.ExchangeCompletes := by
  intro s r f h
  refine ⟨?_, ?_, ?_, ?_, ?_⟩
  · intro fs b base n w t e hs hm hnone hw hok hf
    exact (exec_xwin_sends hs hm hnone hw hok).trans (finish_done (begun_issuing hs _ _) hf)
  · intro fs b xs l e hs hok hf
    exact (exec_xst_sends hs hok).trans (finish_done (begun_issuing hs _ _) hf)
  · intro fs b xs l e hs hok hf
    exact (exec_xadd_sends hs hok).trans (finish_done (begun_issuing hs _ _) hf)
  · intro x hfind hfirst
    exact exec_item_lands hfind hfirst
  · intro u hfind hlanded hfirst hquiet
    exact exec_window_updates hfind hlanded hfirst hquiet

end Sys2Proof.Machine
end

section
/-! PROOFS. Fences (R292, R300, R301): FENCE is its release, FENCEX lets the accesses of both its paths take effect and passes once both are
quiet, and PREF has no effect of its own. -/
namespace Sys2Proof.Machine

theorem exec_fence (f : RForm) (s : State) : exec (.fence f) s = execFence f s := rfl
theorem exec_fencex (f : IForm) (s : State) : exec (.fencex f) s = execFencex f s := rfl
theorem exec_pref (f : MForm) (s : State) : exec (.pref f) s = execPref f s := rfl

/-- FENCE, its release past (R300). -/
theorem exec_fence_releases {s : State} {r : Round} {f : RForm} (hs : Starts s r [] [])
    (h : (s.begun r f.g []).Releases r f.cmp.toNat true) :
    exec (.fence f) s = finish (s.begun r f.g []) ((s.begun r f.g []).afterRelease r f.cmp.toNat true) [] (fun q => q) := by
  have hi : (s.begun r f.g []).issuing = some r := by
    rw [begun_issuing hs, noted_nil]
  rw [exec_fence, execFence, begin_started hs, withRelease_ok _ hi h]

/-- FENCEX once both its paths are quiet (R301). -/
theorem exec_fencex_passes {s e : State} {r q : Round} {f : IForm} (hs : Starts s r [] [])
    (he : e = ((s.begun r f.g []).pushPath s.cur (f.imm.toNat % 8)).pushPath s.cur (f.imm.toNat / 8 % 8)) (hq : e.issuing = some q)
    (hx : e.pathQuiet s.cur q (f.imm.toNat % 8) = true) (hy : e.pathQuiet s.cur q (f.imm.toNat / 8 % 8) = true) :
    exec (.fencex f) s = finish e
      (e.shows s.cur [f.imm.toNat % 8, f.imm.toNat / 8 % 8] [f.imm.toNat % 8, f.imm.toNat / 8 % 8]) [] (fun q => q) := by
  subst he
  rw [exec_fencex, execFencex, begin_started hs]
  exact (onRound_eq hq _).trans (if_pos (Bool.and_eq_true_iff.2 ⟨hx, hy⟩))

/-- PREF reads its address and changes nothing else (R292). -/
theorem exec_pref_reads {s : State} {r : Round} {f : MForm} (hs : Starts s r [(f.a, f.lra)] []) :
    exec (.pref f) s = finish (s.begun r f.g [(f.a, f.lra)]) (s.begun r f.g [(f.a, f.lra)]) [(f.a, f.lra)] (fun q => q) := by
  rw [exec_pref, execPref, begin_started hs]

/-- Settles O24: what each of FENCE, FENCEX and PREF waits for is past, and then its rows fit. -/
theorem fencesComplete : Obligations.FencesComplete := by
  intro s r
  refine ⟨?_, ?_, ?_⟩
  · intro f hs hrel hf
    exact (exec_fence_releases hs hrel).trans (finish_done (begun_issuing hs _ _) hf)
  · intro f q x y e t hs hq hx hy hf
    exact (exec_fencex_passes hs rfl hq hx hy).trans (finish_done hq hf)
  · intro f hs hf
    exact (exec_pref_reads hs).trans (finish_done (begun_issuing hs _ _) hf)

end Sys2Proof.Machine
end

section
/-! PROOFS. The store buffer (R296, R387): which entries leave, and what one entry, or some of its units, does to the state as it leaves. -/
namespace Sys2Proof.Machine

theorem exec_storeBufferDrain (x : StoreOut) (s : State) : exec (.storeBufferDrain x) s = execStoreBufferDrain x s := rfl
theorem exec_storeBufferTimeout (n : Nat) (s : State) : exec (.storeBufferTimeout n) s = execStoreBufferTimeout n s := rfl

/-- Entries of which none must leave all stay (R296). -/
theorem splitStores_none {p : StoreEntry → Bool} {l : List StoreEntry} (h : ∀ e ∈ l, p e = false) : splitStores p l = (l, []) := by
  induction l with
  | nil => rfl
  | cons e l ih =>
    obtain ⟨he, hl⟩ := List.forall_mem_cons.1 h
    rw [splitStores, ih hl]
    simp [he]

/-- Earlier entries that none which leaves must follow stay (R296). -/
theorem splitStores_append {p : StoreEntry → Bool} {l m stay go : List StoreEntry} (hm : splitStores p m = (stay, go))
    (hp : ∀ e ∈ l, p e = false) (hgo : ∀ e ∈ l, go.any (fun x => x.core == e.core && overlap x.bytes e.bytes) = false) :
    splitStores p (l ++ m) = (l ++ stay, go) := by
  induction l with
  | nil => exact hm
  | cons e l ih =>
    obtain ⟨he, hl⟩ := List.forall_mem_cons.1 hp
    obtain ⟨hego, hlgo⟩ := List.forall_mem_cons.1 hgo
    rw [List.cons_append, splitStores, ih hl hlgo]
    simp [he, hego]

/-- One entry leaves where no earlier entry of its core shares a byte with it (R296). -/
theorem splitStores_one {p : StoreEntry → Bool} {pre post : List StoreEntry} {x : StoreEntry} (hx : p x = true)
    (hp : ∀ y ∈ pre ++ post, p y = false) (hpre : ∀ y ∈ pre, ¬(y.core = x.core ∧ overlap x.bytes y.bytes = true)) :
    splitStores p (pre ++ x :: post) = (pre ++ post, [x]) := by
  obtain ⟨hppre, hppost⟩ := List.forall_mem_append.1 hp
  have hleaves : splitStores p (x :: post) = (post, [x]) := by
    rw [splitStores, splitStores_none hppost]
    simp [hx]
  refine splitStores_append hleaves hppre fun y hy => ?_
  have hfree := hpre y hy
  simp only [List.any_cons, List.any_nil, Bool.or_false, Bool.and_eq_false_imp, beq_iff_eq]
  exact fun hcore => Bool.eq_false_iff.2 fun ho => hfree ⟨hcore.symm, ho⟩

theorem splitStores_congr {p q : StoreEntry → Bool} {l : List StoreEntry} (h : ∀ e ∈ l, p e = q e) : splitStores p l = splitStores q l := by
  induction l with
  | nil => rfl
  | cons e l ih =>
    obtain ⟨he, hl⟩ := List.forall_mem_cons.1 h
    rw [splitStores, splitStores, ih hl, he]

/-- Entries leave by what is asked of those that the buffer holds. -/
theorem drainStores_congr {s : State} {p q : StoreEntry → Bool} (h : ∀ e ∈ s.stores, p e = q e) : s.drainStores p = s.drainStores q := by
  rw [State.drainStores, State.drainStores, splitStores_congr h]

theorem drainStores_none {s : State} {p : StoreEntry → Bool} (h : ∀ e ∈ s.stores, p e = false) : s.drainStores p = s := by
  rw [State.drainStores, splitStores_none h]
  rfl

theorem drainStores_one {s : State} {p : StoreEntry → Bool} {pre post : List StoreEntry} {x : StoreEntry} (hst : s.stores = pre ++ x :: post)
    (hx : p x = true) (hp : ∀ y ∈ pre ++ post, p y = false) (hpre : ∀ y ∈ pre, ¬(y.core = x.core ∧ overlap x.bytes y.bytes = true)) :
    s.drainStores p = countLeft (({ s with stores := pre ++ post } : State).writeBytes x.bytes) x := by
  rw [State.drainStores, hst, splitStores_one hx hp hpre]
  rfl

/-- Counting an entry that has left changes the rounds' counters alone (R296). -/
theorem countLeft_rounds (s : State) (e : StoreEntry) :
    ∃ rounds, countLeft s e = { s with rounds := rounds } ∧ rounds.length = s.rounds.length := by
  unfold countLeft
  split
  · exact ⟨_, rfl, rfl⟩
  · split <;> exact ⟨_, rfl, List.length_set⟩

/-- Whether a byte of an entry belongs to one of some units (R291). -/
def StoreEntry.leaves (x : StoreEntry) (units : List Nat) (b : Nat × Byte) : Bool := units.contains (x.unitOf b.1)

/-- An entry y once the units of the entry x have left it (R296, R387). -/
def StoreEntry.leftIn (x : StoreEntry) (units : List Nat) (y : StoreEntry) : StoreEntry :=
  { y with
    bytes := y.bytes.filter (fun b => !x.leaves units b)
    left := y.left ++ (x.bytes.filter (x.leaves units)).map (fun b => b.1) }

/-- The units of x go to their home slices, and out of the buffer. -/
def State.sendUnits (s : State) (x : StoreEntry) (units : List Nat) : State :=
  { s.writeBytes (x.bytes.filter (x.leaves units)) with
    stores := s.stores.map (fun y => if y.id == x.id then x.leftIn units y else y) }

section Entry
variable {s : State} {pre post : List StoreEntry} {x : StoreEntry} (hst : s.stores = pre ++ x :: post)
  (hids : ∀ y ∈ pre ++ post, y.id ≠ x.id)
include hst hids

/-- An entry is told by its number. -/
theorem entry_of_id {y : StoreEntry} (hy : y ∈ s.stores) (hid : y.id = x.id) : y = x := by
  rw [hst, List.mem_append, List.mem_cons] at hy
  obtain hy | rfl | hy := hy
  · exact absurd hid (hids y (List.mem_append_left _ hy))
  · rfl
  · exact absurd hid (hids y (List.mem_append_right _ hy))

/-- STORE_BUFFER_DRAIN of a whole entry (R296, R387). -/
theorem exec_storeBufferDrain_whole (hpre : ∀ y ∈ pre, ¬(y.core = x.core ∧ overlap x.bytes y.bytes = true)) :
    exec (.storeBufferDrain ⟨x.id, none⟩) s = .next (countLeft (({ s with stores := pre ++ post } : State).writeBytes x.bytes) x) := by
  rw [exec_storeBufferDrain, execStoreBufferDrain]
  exact congrArg _ (drainStores_one hst (beq_self_eq_true x.id) (fun y hy => beq_false_of_ne (hids y hy)) hpre)

/-- 64 microseconds after it entered, an entry leaves as at any time (R296). -/
theorem exec_storeBufferTimeout_due (h : x.entered + s.micros 64 ≤ s.now) :
    exec (.storeBufferTimeout x.id) s = exec (.storeBufferDrain ⟨x.id, none⟩) s := by
  rw [exec_storeBufferTimeout, execStoreBufferTimeout, exec_storeBufferDrain, execStoreBufferDrain]
  refine congrArg _ (drainStores_congr fun y hy => ?_)
  by_cases hid : y.id = x.id
  · simp [entry_of_id hst hids hy hid, h]
  · simp [hid]

/-- Before that its timeout changes nothing (R296). -/
theorem exec_storeBufferTimeout_early (h : s.now < x.entered + s.micros 64) : exec (.storeBufferTimeout x.id) s = .next s := by
  rw [exec_storeBufferTimeout, execStoreBufferTimeout]
  refine congrArg _ (drainStores_none fun y hy => ?_)
  by_cases hid : y.id = x.id
  · simp [entry_of_id hst hids hy hid, h]
  · simp [hid]

omit hst in
/-- What happens to an entry of the number of x happens to x alone. -/
theorem map_entry (f : StoreEntry → StoreEntry) :
    (pre ++ x :: post).map (fun y => if y.id == x.id then f y else y) = pre ++ f x :: post := by
  have hstay : ∀ y ∈ pre ++ post, (if y.id == x.id then f y else y) = y := fun y hy => if_neg (by simpa using hids y hy)
  obtain ⟨hpre, hpost⟩ := List.forall_mem_append.1 hstay
  rw [List.map_append, List.map_cons, List.map_congr_left hpre, List.map_congr_left hpost, List.map_id', List.map_id',
    if_pos (beq_self_eq_true x.id)]

/-- Some units of an entry leave ahead of the rest where no earlier entry of its core shares them (R296, R387). -/
theorem drainUnits_some {units : List Nat} (hkeep : ∃ b ∈ x.bytes, x.leaves units b = false)
    (hpre : ∀ y ∈ pre, ¬(y.core = x.core ∧ overlap y.bytes (x.bytes.filter (x.leaves units)) = true)) :
    s.drainUnits x.id units = s.sendUnits x units := by
  obtain ⟨hidpre, -⟩ := List.forall_mem_append.1 hids
  have hfind : s.stores.find? (fun e => e.id == x.id) = some x := by
    rw [hst, List.find?_append, List.find?_eq_none.2 fun y hy => by simpa using hidpre y hy, List.find?_cons, beq_self_eq_true]
    rfl
  have hnot : ¬x.bytes.all (x.leaves units) = true := by
    obtain ⟨b, hb, hstays⟩ := hkeep
    exact fun hall => absurd (List.all_eq_true.1 hall b hb) (ne_true_of_eq_false hstays)
  have hearlier : (s.stores.takeWhile (fun y => y.id != x.id)).filter
      (fun y => y.core == x.core && overlap y.bytes (x.bytes.filter (x.leaves units))) = [] := by
    rw [hst, List.takeWhile_append_of_pos fun y hy => bne_iff_ne.2 (hidpre y hy), List.takeWhile_cons_of_neg (by simp), List.append_nil,
      List.filter_eq_nil_iff]
    exact fun y hy h => hpre y hy (by simpa using h)
  have hfirst : s.drainStores (fun y => ((s.stores.takeWhile (fun y => y.id != x.id)).filter
      (fun y => y.core == x.core && overlap y.bytes (x.bytes.filter (x.leaves units)))).any (fun z => z.id == y.id)) = s := by
    rw [hearlier]
    exact drainStores_none fun _ _ => rfl
  unfold State.drainUnits
  rw [hfind]
  exact (if_neg hnot).trans (congrArg (fun t : State => t.sendUnits x units) hfirst)

/-- A whole entry goes to its home slices and out of the buffer (R296). -/
theorem entry_leaves_whole (hpre : ∀ y ∈ pre, ¬(y.core = x.core ∧ overlap x.bytes y.bytes = true)) :
    ∃ t, exec (.storeBufferDrain ⟨x.id, none⟩) s = .next t ∧ t.stores = pre ++ post ∧ t.mem = Memory.writeCells s.mem x.bytes
      ∧ t.teams = s.teams ∧ t.rounds.length = s.rounds.length := by
  obtain ⟨rounds, hcount, hlen⟩ := countLeft_rounds (({ s with stores := pre ++ post } : State).writeBytes x.bytes) x
  rw [exec_storeBufferDrain_whole hst hids hpre, hcount]
  exact ⟨_, rfl, rfl, rfl, rfl, hlen⟩

/-- Some units of an entry go to their home slices, and the rest stays in its place in the buffer (R296, R387). -/
theorem entry_leaves_inPart {units : List Nat} (hkeep : ∃ b ∈ x.bytes, x.leaves units b = false)
    (hpre : ∀ y ∈ pre, ¬(y.core = x.core ∧ overlap y.bytes (x.bytes.filter (x.leaves units)) = true)) :
    ∃ t, exec (.storeBufferDrain ⟨x.id, some units⟩) s = .next t ∧ t.stores = pre ++ x.leftIn units x :: post
      ∧ t.mem = Memory.writeCells s.mem (x.bytes.filter (x.leaves units)) ∧ t.teams = s.teams ∧ t.rounds = s.rounds := by
  have hstores : (s.sendUnits x units).stores = pre ++ x.leftIn units x :: post := by
    rw [State.sendUnits, hst, map_entry hids]
  rw [exec_storeBufferDrain, execStoreBufferDrain]
  exact ⟨_, congrArg _ (drainUnits_some hst hids hkeep hpre), hstores, rfl, rfl, rfl⟩

end Entry
end Sys2Proof.Machine
end

section
/-! PROOFS. Acknowledgements, walks, the ring of a trap queue, and host writes that leave (R287, R296, R299, R322, R323, R333): each event,
enabled, does its one thing. -/
namespace Sys2Proof.Machine

theorem exec_storeAck (n : Nat) (b : Bool) (s : State) : exec (.storeAck n b) s = execStoreAck n b s := rfl
theorem exec_translationWalkComplete (c n : Nat) (va : Word) (s : State) :
    exec (.translationWalkComplete c n va) s = execTranslationWalkComplete c n va s := rfl
theorem exec_trapQueueEntryWrite (n : Nat) (s : State) : exec (.trapQueueEntryWrite n) s = execTrapQueueEntryWrite n s := rfl
theorem exec_hostLinkWriteIssue (n : Nat) (s : State) : exec (.hostLinkWriteIssue n) s = execHostLinkWriteIssue n s := rfl
theorem exec_hostWindowWrite (n i : Nat) (x : Word) (s : State) : exec (.hostWindowWrite n i x) s = execHostWindowWrite n i x s := rfl

theorem exec_storeAck_counts {s : State} {n : Nat} {r : Round} (hr : s.rounds[n]? = some r) (package : Bool) :
    exec (.storeAck n package) s =
      .next (s.setRoundAt n (if package then { r with pkgCtr := r.pkgCtr - 1 } else { r with dieCtr := r.dieCtr - 1 })) := by
  rw [exec_storeAck, execStoreAck, hr]

section Part
variable {s : State} {p : Partition} (hp : s.parts.find? (fun q => q.num == p.num) = some p)
include hp

/-- A walk that ends at a leaf is cached (R287). -/
theorem exec_walk_caches {core : Nat} {va : Word} {x : Leaf} (hva : canonical va = true) (hx : walk s p va = .leaf x) :
    exec (.translationWalkComplete core p.num va) s = .next (s.setCore core ((s.core core).cache
      { part := p.num, va := va.toNat / x.size * x.size, size := x.size, pa := x.pa, u := x.u, x := x.x, w := x.w })) := by
  have hcanonical : ¬(!canonical va) = true := by simp [hva]
  rw [exec_translationWalkComplete, execTranslationWalkComplete, hp]
  dsimp only
  rw [if_neg hcanonical, hx]

/-- The oldest request is written to a ring that has room for it and whose pages are present (R322, R323). -/
theorem exec_ring_writes {entries : List (List Word)} {rest : List (List (List Word))} {pas : List Nat} (hq : p.queue = entries :: rest)
    (hroom : entries.length ≤ p.freeEntries) (hpas : s.ringPas p entries.length = some pas) :
    exec (.trapQueueEntryWrite p.num) s =
      .next ((s.writeBytes (pas.zip (entries.flatMap (fun e => e.flatMap (fun w => toBytes 8 w.toNat))))).setPart
        { p with head := (p.head + entries.length) % p.ring, queue := rest }) := by
  rw [exec_trapQueueEntryWrite, execTrapQueueEntryWrite, hp]
  dsimp only
  rw [hq]
  dsimp only
  rw [if_neg (Nat.not_lt.2 hroom), hpas]

theorem exec_hostWindow_writes {index : Nat} (hi : index < 4096) (entry : Word) :
    exec (.hostWindowWrite p.num index entry) s = .next (s.setPart { p with hostWin := SMap.set p.hostWin index entry }) := by
  rw [exec_hostWindowWrite, execHostWindowWrite, hp]
  exact if_pos hi

end Part

/-- A round's oldest host write leaves on a trained link (R299). -/
theorem exec_hostWrite_leaves {s : State} {w : HostWrite} (hw : s.hostq.find? (fun v => v.round == w.round) = some w)
    (hl : s.linkReady (linkOf w.part) = true) :
    exec (.hostLinkWriteIssue w.round) s = .next { s with hostq := s.hostq.erase w, hostOut := s.hostOut ++ [w] } := by
  rw [exec_hostLinkWriteIssue, execHostLinkWriteIssue, hw]
  exact if_pos hl

end Sys2Proof.Machine
end

section
/-! PROOFS. Inbox writes of the host (R334, R335, R338): a write that lies in the slots, or is PROD, goes to the inbox alone. -/
namespace Sys2Proof.Machine

theorem exec_inboxSlotWrite (n o : Nat) (l : List Byte) (s : State) : exec (.inboxSlotWrite n o l) s = execInboxSlotWrite n o l s := rfl
theorem exec_inboxProdWrite (n : Nat) (x : Word) (s : State) : exec (.inboxProdWrite n x) s = execInboxProdWrite n x s := rfl

/-! ### Bytes of a number, and of a range (R7, R332) -/

theorem length_toBytes (n x : Nat) : (toBytes n x).length = n := by simp [toBytes]

/-- The bytes of a number hold it, modulo their range (R7). -/
theorem ofBytes_toBytes (n x : Nat) : ofBytes (toBytes n x) = x % 2 ^ (8 * n) := by
  induction n generalizing x with
  | zero => simp [toBytes, ofBytes, Nat.mod_one]
  | succ n ih =>
    have hcons : toBytes (n + 1) x = BitVec.ofNat 8 x :: toBytes n (x / 256) := by
      rw [toBytes, List.range_succ_eq_map, List.map_cons, List.map_map, toBytes]
      refine List.cons_eq_cons.2 ⟨by simp, List.map_congr_left fun i _ => ?_⟩
      rw [Function.comp_apply, Nat.mul_succ, Nat.pow_add', ← Nat.div_div_eq_div_mul]
    have hstep : ofBytes (toBytes (n + 1) x) = x % 256 + 256 * ofBytes (toBytes n (x / 256)) := by
      rw [hcons]
      rfl
    rw [hstep, ih, Nat.mul_succ, Nat.pow_add', Nat.mod_mul]

theorem ofNat_ofBytes_toBytes (x : Word) : BitVec.ofNat 64 (ofBytes (toBytes 8 x.toNat)) = x := by
  rw [ofBytes_toBytes, Nat.mod_eq_of_lt x.isLt, BitVec.ofNat_toNat, BitVec.setWidth_eq]

/-- Bytes put over as many others replace them all. -/
theorem overwrite_all (l data : List Byte) (h : l.length = data.length) : overwrite l ((List.range data.length).zip data) = data := by
  have hfrom : ∀ (data l before : List Byte), l.length = data.length →
      overwrite (before ++ l) ((List.range' before.length data.length).zip data) = before ++ data := by
    intro data
    induction data with
    | nil =>
      intro l before hl
      rw [List.eq_nil_of_length_eq_zero hl]
      rfl
    | cons b data ih =>
      intro l before hl
      obtain ⟨a, l, rfl⟩ := List.exists_cons_of_length_eq_add_one hl
      have hput : (before ++ a :: l).set before.length b = before ++ [b] ++ l := by simp
      have htail := ih l (before ++ [b]) (Nat.succ.inj hl)
      rw [List.length_append] at htail
      rw [List.length_cons, List.range'_succ, List.zip_cons_cons, overwrite, List.foldl_cons, hput]
      exact htail.trans (List.append_assoc ..)
  rw [List.range_eq_range']
  exact hfrom data l [] h

/-- All of what is gathered is there. -/
theorem gather_length {α : Type} {l : List (Got α)} {as : List α} (h : gather l = .ok as) : as.length = l.length := by
  induction l generalizing as with
  | nil =>
    cases h
    rfl
  | cons g l ih =>
    cases g with
    | ok a =>
      rw [gather] at h
      split at h
      · next hl =>
        cases h
        exact congrArg Nat.succ (ih hl)
      · next hl => exact absurd h (hl as)
    | missing va =>
      rw [gather] at h
      split at h <;> cases h
    | fault va c => cases h
    | held =>
      rw [gather] at h
      split at h
      · cases h
      · next hl => exact absurd h (hl as)

/-- A byte of a host write lies in the write. -/
theorem lt_of_mem_zip_range {data : List Byte} {x : Nat × Byte} (h : x ∈ (List.range data.length).zip data) : x.1 < data.length :=
  List.mem_range.1 (List.of_mem_zip h).1

/-- A filter that keeps every element of a list is a map of the list. -/
theorem filterMap_keeping {α β : Type} {f : α → Option β} {g : α → β} {l : List α} (h : ∀ x ∈ l, f x = some (g x)) :
    l.filterMap f = l.map g := by
  induction l with
  | nil => rfl
  | cons x l ih =>
    obtain ⟨hx, hl⟩ := List.forall_mem_cons.1 h
    rw [List.filterMap_cons_some hx, ih hl, List.map_cons]

/-- A host write within a range of BAR0 falls into it whole (R332). -/
theorem barBytes_within {offset lo n : Nat} {data : List Byte} (hlo : lo ≤ offset) (hn : offset + data.length ≤ lo + n) :
    barBytes offset data lo n = ((List.range data.length).zip data).map (fun x => (offset + x.1 - lo, x.2)) := by
  refine filterMap_keeping fun x hx => if_pos ?_
  have hlt := lt_of_mem_zip_range hx
  simp only [Bool.and_eq_true, decide_eq_true_iff]
  omega

/-- A host write beside a range of BAR0 has no byte in it (R332). -/
theorem barBytes_outside {offset lo n : Nat} {data : List Byte} (h : offset + data.length ≤ lo ∨ lo + n ≤ offset) :
    barBytes offset data lo n = [] := by
  refine List.filterMap_eq_nil_iff.2 fun x hx => if_neg ?_
  have hlt := lt_of_mem_zip_range hx
  simp only [Bool.and_eq_true, decide_eq_true_iff]
  omega

/-! ### Host writes to the inbox (R334, R335, R338) -/

/-- A write below the attestation block of a partition's function concerns the inbox alone (R332). -/
theorem applyBar_inbox (s : State) {w : BarWrite} (hfn : w.fn < 16) (hin : w.offset + w.data.length ≤ 0x11000) :
    s.applyBar w = s.barInbox w := by
  have hnonce : barBytes w.offset w.data 0x11000 64 = [] := barBytes_outside (.inl hin)
  have hask : barBytes w.offset w.data 0x11040 1 = [] := barBytes_outside (.inl (by omega))
  rw [State.applyBar, if_pos hfn, hnonce, hask]
  simp [hfn]

/-- A host write that waits behind none and whose channels are ready takes effect (R335). -/
theorem barWrite_now {s t : State} {w : BarWrite} (he : s.fnEnabled w.fn = true) (hw : s.barWaits w.fn = false)
    (h : s.applyBar w = some t) : s.barWrite w = t := by
  simp [State.barWrite, he, hw, h]

/-- A host write waits for the channels that it needs (R338). -/
theorem barWrite_held {s : State} {w : BarWrite} (he : s.fnEnabled w.fn = true) (hw : s.barWaits w.fn = false)
    (h : s.applyBar w = none) : s.barWrite w = s.setPackage { s.package with barq := s.package.barq ++ [w] } := by
  simp [State.barWrite, State.setPackage, he, hw, h]

theorem writeBytes_nil (s : State) : s.writeBytes [] = s := by
  have hnone : ∀ sec : Nat, (!(List.range 32).all (fun i => ([] : List (Nat × Byte)).any (fun b => b.1 == 32 * sec + i))) = true :=
    fun _ => rfl
  rw [State.writeBytes, List.filter_eq_self.2 fun sec _ => hnone sec]
  rfl

section Slots
variable {offset : Nat} {data : List Byte} (hin : offset + data.length ≤ 65536)
include hin

/-- A write in the slots brings them its bytes (R334). -/
theorem barBytes_slots : barBytes offset data 0 slotBytes = ((List.range data.length).zip data).map (fun x => (offset + x.1, x.2)) :=
  barBytes_within (Nat.zero_le _) (by simpa [slotBytes] using hin)

theorem barBytes_slots_data : (barBytes offset data 0 slotBytes).map (fun x => x.2) = data := by
  rw [barBytes_slots hin, List.map_map]
  exact List.map_snd_zip (by simp)

/-- The places in the slots of a write that lies in them are those of its own bytes (R334). -/
theorem inboxPlaces_slots (s : State) (p : Partition) (hne : data ≠ []) :
    (if (barBytes offset data 0 slotBytes).length = 0 then .ok []
      else s.inboxPlaces p (((barBytes offset data 0 slotBytes).map (fun x => x.1)).headD 0) (barBytes offset data 0 slotBytes).length)
      = s.inboxPlaces p offset data.length := by
  obtain ⟨b, l, rfl⟩ := List.exists_cons_of_ne_nil hne
  have hlen : (barBytes offset (b :: l) 0 slotBytes).length = (b :: l).length := by
    rw [← List.length_map (fun x => x.2), barBytes_slots_data hin]
  have hhead : ((barBytes offset (b :: l) 0 slotBytes).map (fun x => x.1)).headD 0 = offset := by
    rw [barBytes_slots hin, List.length_cons, List.range_succ_eq_map]
    rfl
  rw [hlen, hhead]
  exact if_neg (Nat.succ_ne_zero _)

/-- A write in the slots is none of PROD (R334). -/
theorem barBytes_slots_noProd : barBytes offset data slotBytes 8 = [] := barBytes_outside (.inl hin)

section Function
variable {n : Nat} (hfn : n < 16)
include hfn

theorem applyBar_slots (s : State) :
    s.applyBar { fn := n, offset := offset, data := data } = s.barInbox { fn := n, offset := offset, data := data } :=
  applyBar_inbox s hfn (Nat.le_trans hin (by decide))

/-- INBOX_SLOT_WRITE is a host write of the partition's function (R332, R334). -/
theorem exec_inboxSlot_bar (s : State) :
    exec (.inboxSlotWrite n offset data) s = .next (s.barWrite { fn := n, offset := offset, data := data }) := by
  rw [exec_inboxSlotWrite, execInboxSlotWrite, if_pos (by simp [hfn, slotBytes, hin])]

end Function

end Slots

/-- The bytes of PROD are replaced at its places, and the partition's image receives the event (R334, R335). -/
def State.writeProd (s : State) (p : Partition) (pas : List Nat) (prod : List (Nat × Byte)) : State :=
  let new := overwrite (pas.map (Memory.read s.mem)) prod
  (s.writeBytes (pas.zip new)).enqueue p.num [inboxEvent s p (BitVec.ofNat 64 (ofBytes new))]

section Inbox
variable {s : State} {p : Partition} (hp : s.parts.find? (fun q => q.num == p.num) = some p)
include hp

section Slots
variable {offset : Nat} {data : List Byte} (hin : offset + data.length ≤ 65536) (hne : data ≠ [])
include hin hne

/-- A write in the slots goes to its places in the inbox (R334). -/
theorem barInbox_slots {pas : List Nat} (h : s.inboxPlaces p offset data.length = .ok pas) :
    s.barInbox { fn := p.num, offset := offset, data := data } = some (s.writeBytes (pas.zip data)) := by
  unfold State.barInbox
  dsimp only
  rw [hp]
  dsimp only
  rw [inboxPlaces_slots hin s p hne, barBytes_slots_data hin, barBytes_slots_noProd hin, h]
  rfl

/-- A write in the slots waits for the channels of its places (R338). -/
theorem barInbox_held (h : s.inboxPlaces p offset data.length = .held) :
    s.barInbox { fn := p.num, offset := offset, data := data } = none := by
  unfold State.barInbox
  dsimp only
  rw [hp]
  dsimp only
  rw [inboxPlaces_slots hin s p hne, h]

end Slots

/-- A write of all of PROD goes to its place after the slots, and is reported (R334, R335). -/
theorem barInbox_prod {data : List Byte} (hdata : data.length = 8) {pas : List Nat} (h : s.inboxPlaces p slotBytes 8 = .ok pas) :
    s.barInbox { fn := p.num, offset := slotBytes, data := data } = some (s.writeProd p pas ((List.range data.length).zip data)) := by
  have hlen : pas.length = 8 := (gather_length h).trans (by simp)
  obtain ⟨pa, pas, rfl⟩ := List.exists_cons_of_length_eq_add_one hlen
  have hslots : barBytes slotBytes data 0 slotBytes = [] := barBytes_outside (.inr (Nat.le_of_eq (Nat.zero_add _)))
  have hprod : barBytes slotBytes data slotBytes 8 = (List.range data.length).zip data := by
    rw [barBytes_within (Nat.le_refl _) (Nat.le_of_eq (congrArg _ hdata))]
    simp
  have hsome : ((List.range data.length).zip data).isEmpty = false := by
    obtain ⟨b, l, rfl⟩ := List.exists_cons_of_length_eq_add_one hdata
    rw [List.length_cons, List.range_succ_eq_map]
    rfl
  have hplaces : (if (if ((List.range data.length).zip data).isEmpty then 0 else 8) = 0 then .ok []
      else s.inboxPlaces p slotBytes (if ((List.range data.length).zip data).isEmpty then 0 else 8)) = .ok (pa :: pas) := by
    rw [hsome]
    exact (if_neg (by decide)).trans h
  have hgoes : s.barInbox { fn := p.num, offset := slotBytes, data := data } =
      some ((s.writeBytes []).writeProd p (pa :: pas) ((List.range data.length).zip data)) := by
    unfold State.barInbox
    dsimp only
    rw [hp]
    dsimp only
    rw [hslots, hprod, hplaces]
    rfl
  rw [hgoes, writeBytes_nil]

section Now
variable (hfn : p.num < 16) (he : s.fnEnabled p.num = true) (hw : s.barWaits p.num = false)
include hfn he hw

/-- INBOX_SLOT_WRITE at once (R335). -/
theorem exec_inboxSlot_writes {offset : Nat} {data : List Byte} {pas : List Nat} (hin : offset + data.length ≤ 65536) (hne : data ≠ [])
    (h : s.inboxPlaces p offset data.length = .ok pas) :
    exec (.inboxSlotWrite p.num offset data) s = .next (s.writeBytes (pas.zip data)) :=
  (exec_inboxSlot_bar hin hfn s).trans (congrArg _ (barWrite_now he hw ((applyBar_slots hin hfn s).trans (barInbox_slots hp hin hne h))))

/-- INBOX_SLOT_WRITE while a channel that it needs is not ready (R338). -/
theorem exec_inboxSlot_held {offset : Nat} {data : List Byte} (hin : offset + data.length ≤ 65536) (hne : data ≠ [])
    (h : s.inboxPlaces p offset data.length = .held) :
    exec (.inboxSlotWrite p.num offset data) s =
      .next (s.setPackage { s.package with barq := s.package.barq ++ [{ fn := p.num, offset := offset, data := data }] }) :=
  (exec_inboxSlot_bar hin hfn s).trans (congrArg _ (barWrite_held he hw ((applyBar_slots hin hfn s).trans (barInbox_held hp hin hne h))))

/-- INBOX_PROD_WRITE at once (R335). -/
theorem exec_inboxProd_writes {value : Word} {pas : List Nat} (h : s.inboxPlaces p slotBytes 8 = .ok pas) :
    exec (.inboxProdWrite p.num value) s =
      .next ((s.writeBytes (pas.zip (toBytes 8 value.toNat))).enqueue p.num [inboxEvent s p value]) := by
  have hlen : pas.length = 8 := (gather_length h).trans (by simp)
  have hdata : (toBytes 8 value.toNat).length = 8 := length_toBytes ..
  have hnew := overwrite_all (pas.map (Memory.read s.mem)) (toBytes 8 value.toNat) (by rw [List.length_map, hlen, hdata])
  have hbar := (applyBar_inbox s (w := { fn := p.num, offset := slotBytes, data := toBytes 8 value.toNat }) hfn
    (by simp [slotBytes, hdata])).trans (barInbox_prod hp hdata h)
  rw [State.writeProd, hnew, ofNat_ofBytes_toBytes] at hbar
  rw [exec_inboxProdWrite, execInboxProdWrite, if_pos hfn]
  exact congrArg _ (barWrite_now he hw hbar)

end Now
end Inbox

end Sys2Proof.Machine
end

section
/-! PROOFS. Errors of HBM (R289, R328): what a read that finds one counts, marks and reports. Then O53. -/
namespace Sys2Proof.Machine

theorem step_hbm {s : State} {sector : Nat} {err : HbmError} {ts : List Turn} (h : s.agenda = .hbm sector err :: ts) :
    step s = .next (({ s with agenda := ts } : State).hbmError sector err) := by
  rw [step, runStep, h]
  rfl

theorem die_setDie {s : State} {k : Nat} (hk : k < s.dies.length) (d : Die) : (s.setDie k d).die k = d := by
  simp [State.die, State.setDie, List.getD_eq_getElem?_getD, hk]

section Error
variable {s : State} {sector : Nat} (hm : mapped (32 * sector) = true)
include hm

theorem hbmError_corrected : s.hbmError sector .corrected =
    s.setDie (homeDie (32 * sector)) { s.die (homeDie (32 * sector)) with corr := countError (s.die (homeDie (32 * sector))).corr } :=
  if_neg (by simp [hm])

theorem hbmError_cured : s.hbmError sector .cured =
    s.setDie (homeDie (32 * sector)) { s.die (homeDie (32 * sector)) with trans := countError (s.die (homeDie (32 * sector))).trans } :=
  if_neg (by simp [hm])

end Error

/-- A sector that is lasting from now on: the reads of it that have been issued come first, and its die counts it (R289). -/
def State.markLasting (s : State) (sector : Nat) : State :=
  let s0 := s.performOn (fun _ _ a => a.isRead) false ((List.range 32).map (fun i => 32 * sector + i))
  let d := s.die (homeDie (32 * sector))
  ({ s0 with lasting := s0.lasting ++ [sector] } : State).setDie (homeDie (32 * sector)) { d with lasting := countError d.lasting }

/-- The event of a lasting error names the sector's page (R289, R322). -/
def lastingEvent (sector : Nat) (d : Die) : List Word :=
  queueEntry 2 0x63 0 0 0 0 0 0 (BitVec.ofNat 64 (32 * sector / pageBytes * pageBytes)) 0 0 0 d.clock

/-- The image of a die's partition, where it has one, receives an event (R322). -/
def State.tellImage (s : State) (part : Option Nat) (event : List Word) : State :=
  match part with
  | none => s
  | some p => s.enqueue p [event]

/-- An event for an image changes the partitions alone. -/
theorem tellImage_parts (s : State) (part : Option Nat) (event : List Word) :
    ∃ parts, s.tellImage part event = { s with parts := parts } := by
  cases part with
  | none => exact ⟨s.parts, rfl⟩
  | some p => exact ⟨_, rfl⟩

theorem markLasting_isLasting (s : State) (sector : Nat) : (s.markLasting sector).isLasting (32 * sector) = true := by
  have hsector : 32 * sector / 32 = sector := Nat.mul_div_cancel_left sector (by decide)
  simp [State.markLasting, State.isLasting, hsector]

/-- A lasting error marks its sector, and the image of the die's partition is told (R289, R328). -/
theorem hbmError_lasting {s : State} {sector : Nat} (hm : mapped (32 * sector) = true) (hnew : s.isLasting (32 * sector) = false) :
    s.hbmError sector .lasting = (s.markLasting sector).tellImage (s.die (homeDie (32 * sector))).part
      (lastingEvent sector (s.die (homeDie (32 * sector)))) :=
  (if_neg (by simp [hm])).trans (if_neg (ne_true_of_eq_false hnew))

/-- The event stands at the end of the queue of a partition that there is (R322). -/
theorem tellImage_queue {s : State} {p : Nat} (hp : ∃ q ∈ s.parts, q.num = p) (event : List Word) :
    ((s.tellImage (some p) event).part p).queue = (s.part p).queue ++ [[event]] := by
  obtain ⟨q, hq, hnum⟩ := hp
  exact State.enqueue_queue (List.any_eq_true.2 ⟨q, hq, beq_iff_eq.2 hnum⟩) [event]

/-- What a lasting error does: its sector is marked and counted once the reads of it have taken effect, and its die's image is told (R289). -/
theorem hbmError_lasting_marks {s : State} {sector : Nat} (hm : mapped (32 * sector) = true) (hnew : s.isLasting (32 * sector) = false) :
    let k := homeDie (32 * sector)
    let s0 := s.performOn (fun _ _ a => a.isRead) false ((List.range 32).map (fun i => 32 * sector + i))
    let t := s.hbmError sector .lasting
    t.mem = s0.mem ∧ t.rounds = s0.rounds ∧ t.isLasting (32 * sector) = true
      ∧ (k < s0.dies.length → (t.die k).lasting = countError (s.die k).lasting)
      ∧ ∀ p, (s.die k).part = some p → (∃ q ∈ s0.parts, q.num = p) →
        (t.part p).queue = (s0.part p).queue ++ [[lastingEvent sector (s.die k)]] := by
  intro k s0 t
  obtain ⟨parts, htold⟩ := tellImage_parts (s.markLasting sector) (s.die k).part (lastingEvent sector (s.die k))
  have ht : t = { s.markLasting sector with parts := parts } := (hbmError_lasting hm hnew).trans htold
  refine ⟨?_, ?_, ?_, ?_, ?_⟩
  · rw [ht]
    rfl
  · rw [ht]
    rfl
  · rw [ht]
    exact markLasting_isLasting s sector
  · intro hlt
    rw [ht]
    exact congrArg Die.lasting (die_setDie hlt _)
  · intro p hpart hp
    have hqueue := tellImage_queue (s := s.markLasting sector) hp (lastingEvent sector (s.die k))
    rw [← hpart, ← hbmError_lasting hm hnew] at hqueue
    exact hqueue

/-! ### All the events -/

/-- Settles O53: the store buffer, then each event as it is enabled, then the errors of HBM. -/
theorem memoryEvents : Obligations.MemoryEvents := by
  refine ⟨?_, ?_, ?_, ?_, ?_, ?_, ?_, ?_⟩
  · intro s pre post x hst hids
    refine ⟨fun hpre => ⟨entry_leaves_whole hst hids hpre, exec_storeBufferTimeout_due hst hids, exec_storeBufferTimeout_early hst hids⟩, ?_⟩
    intro units goes out hkeep hpre
    exact entry_leaves_inPart hst hids hkeep hpre
  · intro s n r hr
    exact ⟨exec_storeAck_counts hr false, exec_storeAck_counts hr true⟩
  · intro s p core va x hp hva hx entry
    exact exec_walk_caches hp hva hx
  · intro s p entries rest pas hp hq hroom hpas
    exact exec_ring_writes hp hq hroom hpas
  · intro s w hw hl
    exact exec_hostWrite_leaves hw hl
  · intro s p index entry hp hi
    exact exec_hostWindow_writes hp hi entry
  · intro s p offset data value pas hp hfn he hw
    refine ⟨fun hin hne => ⟨?_, ?_⟩, ?_⟩
    · exact exec_inboxSlot_writes hp hfn he hw hin hne
    · exact exec_inboxSlot_held hp hfn he hw hin hne
    · exact exec_inboxProd_writes hp hfn he hw
  · intro s sector err ts ht e k d hm hk
    refine ⟨_, step_hbm ht, ?_, ?_, ?_⟩
    · rintro rfl
      exact hbmError_corrected hm
    · rintro rfl
      exact hbmError_cured hm
    · rintro s0 rfl hnew
      exact hbmError_lasting_marks (s := e) hm hnew

end Sys2Proof.Machine
end

section
/-! PROOFS. Semaphores and the dispatch graph (R305 to R307, R314 to R319): past its checks each instruction acts on the counter or on the node
that its operands name. -/
namespace Sys2Proof.Machine

theorem exec_semp (f : RForm) (s : State) : exec (.semp f) s = execSemp f s := rfl
theorem exec_semw (f : RForm) (s : State) : exec (.semw f) s = execSemw f s := rfl
theorem exec_gpost (f : RForm) (s : State) : exec (.gpost f) s = execGpost f s := rfl
theorem exec_garm (f : RForm) (s : State) : exec (.garm f) s = execGarm f s := rfl
theorem exec_gwait (f : RForm) (s : State) : exec (.gwait f) s = execGwait f s := rfl
theorem exec_grdy (f : RForm) (s : State) : exec (.grdy f) s = execGrdy f s := rfl

/-- The state in which an instruction of two sources takes its effect, and the values of its sources in the lowest passing lane. -/
abbrev pairBegun (s : State) (r : Round) (f : RForm) : State := s.begun r f.g [rA f, rB f]
abbrev pairValue (s : State) (r : Round) (f : RForm) (i : Nat) : Word := lowValue (r.passing f.g) (sources s r [rA f, rB f]) i

/-- A release at package scope, which never waits, depends on what the round had before it started (R297). -/
theorem withRelease_package {s : State} {r : Round} {fs : List Field} {names : List Nat} (hs : Starts s r fs names) (g : Guard)
    (m : Mask) (k : State → Res) :
    withRelease (s.begun r g fs) 5 false m k = k ((s.begun r g fs).afterRelease r 5 false) := by
  rw [withRelease_ok k (begun_issuing hs g fs) (releases_near _ _ _ _ (by decide))]
  rfl

/-! ### SEMP and SEMW (R318) -/

/-- A counter of a die receives n (R318). -/
def State.addSem (s : State) (die c n : Nat) : State :=
  s.setDie die { s.die die with sems := SMap.set (s.die die).sems c ((s.die die).sem c + n) }

/-- Whether an entry of a die's queue is round n's for counter c. -/
def SemWait.isOf (c n : Nat) (w : SemWait) : Bool := w.counter == c && w.round == n

/-- Round n stands in the queue for counter c, at its end where it did not stand there before (R318). -/
def Die.queued (d : Die) (c n : Nat) : Die :=
  if d.semq.any (SemWait.isOf c n) then d else { d with semq := d.semq ++ [{ counter := c, round := n }] }

/-- Round n has taken k from counter c and leaves the queue (R318). -/
def Die.served (d : Die) (c n k : Nat) : Die :=
  { d with sems := SMap.set d.sems c (d.sem c - k), semq := d.semq.filter (fun w => !w.isOf c n) }

/-- A semaphore operand and amount that R318 allows pass their check. -/
theorem SemAt.semOk {s : State} {r : Round} {a n : Word} {die c : Nat} (h : SemAt s r a n die c) :
    semOk (s.partOf r) a n = true ∧ bits a 14 12 = die ∧ bits a 11 0 = c := by
  obtain ⟨ha, rfl, rfl, hdie, hpart, hn⟩ := h
  refine ⟨?_, rfl, rfl⟩
  simp only [Machine.semOk, Bool.and_eq_true, decide_eq_true_eq]
  exact ⟨⟨⟨ha, hdie⟩, hpart⟩, hn⟩

section Semaphores
variable {s : State} {r : Round} {f : RForm} {die c : Nat} (hs : Starts s r [rA f, rB f] []) (hm : r.passing f.g ≠ 0)
  (hat : SemAt s r (pairValue s r f 0) (pairValue s r f 1) die c)
include hs hm hat

/-- SEMP adds to its counter past its release (R318). -/
theorem exec_semp_adds (hroom : ((pairBegun s r f).die die).sem c + (pairValue s r f 1).toNat < 2 ^ 32) :
    exec (.semp f) s = finish (pairBegun s r f)
      (((pairBegun s r f).afterRelease r 5 false).addSem die c (pairValue s r f 1).toNat) [rA f, rB f] (fun q => q) := by
  obtain ⟨hok, rfl, rfl⟩ := hat.semOk
  have hpart : (pairBegun s r f).partOf (r.noted f.g [rA f, rB f]) = s.partOf r := rfl
  rw [exec_semp, execSemp, begin_started hs]
  dsimp only
  rw [if_neg hm, hpart, if_neg (by simp [hok]), if_neg (Nat.not_le.2 hroom), withRelease_package hs]
  rfl

/-- SEMW of zero does nothing (R318). -/
theorem exec_semw_zero (hn : pairValue s r f 1 = 0) :
    exec (.semw f) s = finish (pairBegun s r f) (pairBegun s r f) [rA f, rB f] (fun q => q) := by
  obtain ⟨hok, rfl, rfl⟩ := hat.semOk
  have hpart : (pairBegun s r f).partOf (r.noted f.g [rA f, rB f]) = s.partOf r := rfl
  rw [exec_semw, execSemw, begin_started hs]
  dsimp only
  rw [if_neg hm, hpart, if_neg (by simp [hok]), if_pos hn]

/-- SEMW takes from its counter where the round is first in the queue and the counter holds enough; else the round waits in the queue
(R318). -/
theorem exec_semw_acts (hn : pairValue s r f 1 ≠ 0) :
    exec (.semw f) s =
      if ((s.die die).queued c s.cur).firstWaiter c = some s.cur ∧ (pairValue s r f 1).toNat ≤ ((s.die die).queued c s.cur).sem c then
        finish (pairBegun s r f) ((pairBegun s r f).setDie die (((s.die die).queued c s.cur).served c s.cur (pairValue s r f 1).toNat))
          [rA f, rB f] (fun q => q)
      else stall ((pairBegun s r f).setDie die ((s.die die).queued c s.cur)) (r.noted f.g [rA f, rB f]) .semaphore := by
  obtain ⟨hok, rfl, rfl⟩ := hat.semOk
  have hpart : (pairBegun s r f).partOf (r.noted f.g [rA f, rB f]) = s.partOf r := rfl
  rw [exec_semw, execSemw, begin_started hs]
  dsimp only
  rw [if_neg hm, hpart, if_neg (by simp [hok]), if_neg hn]
  have hturn (d : Die) (c n : Nat) :
      (d.firstWaiter c == some s.cur && decide (n ≤ d.sem c)) = true ↔ d.firstWaiter c = some s.cur ∧ n ≤ d.sem c := by simp
  exact ite_congr (propext (hturn ((s.die _).queued _ s.cur) _ _)) (fun _ => rfl) (fun _ => rfl)

end Semaphores

/-! ### GARM, GWAIT and GRDY (R307, R313, R316) -/

/-- A handle names the same node once the instruction has started. -/
theorem begun_liveNode {s : State} {r : Round} {h : Nat} {n : Option Nat} (hlive : s.liveNode (s.teamOf r).part h = n) (g : Guard)
    (fs : List Field) : (s.begun r g fs).liveNode ((s.begun r g fs).teamOf (r.noted g fs)).part h = n := hlive

section Nodes
variable {s : State} {r : Round} {f : RForm} {k : Nat} {x : Node} (hm : r.passing f.g ≠ 0)
  (hlive : s.liveNode (s.teamOf r).part (pairValue s r f 0).toNat = some k)

section Arm
variable (hs : Starts s r [rA f, rB f] [])
include hs hm hlive

/-- GARM of zero arms its node (R307, R316). -/
theorem exec_garm_arms (hn : pairValue s r f 1 = 0) :
    exec (.garm f) s = finish (pairBegun s r f)
      ((pairBegun s r f).modNode k (fun y => { y with remaining := y.remaining - 1 })).refresh [rA f, rB f] (fun q => q) := by
  rw [exec_garm, execGarm, begin_started hs]
  dsimp only
  rw [if_neg hm, begun_liveNode hlive]
  exact if_pos hn

/-- GARM of one ends the standing of its node, which goes where it is leaving (R313, R316). -/
theorem exec_garm_ends (hx : s.nodes[k]? = some x) (hn : pairValue s r f 1 = 1) :
    let e := (pairBegun s r f).modNode k (fun y => { y with standing := false })
    let y : Node := { x with standing := false }
    exec (.garm f) s = finish (pairBegun s r f) (if y.leaving then e.tryRemove k y else e) [rA f, rB f] (fun q => q) := by
  intro e y
  have hy : e.nodes[k]? = some y := by
    simp [e, y, State.modNode, State.begun, hx]
  have hone : pairValue s r f 1 ≠ 0 := by
    rw [hn]
    decide
  rw [exec_garm, execGarm, begin_started hs]
  dsimp only
  rw [if_neg hm, begun_liveNode hlive]
  dsimp only
  rw [if_neg hone, if_pos hn, hy]

end Arm

section Wait
variable (hs : Starts s r [rA f, rB f] (regNames f.d 1))
include hs hm

/-- GWAIT on a handle that is not live gives all ones (R316). -/
theorem exec_gwait_gone (hgone : s.liveNode (s.teamOf r).part (pairValue s r f 0).toNat = none) :
    exec (.gwait f) s = finish (pairBegun s r f) (pairBegun s r f) [rA f, rB f]
      (writeOperand (r.passing f.g) f.d (tab (fun _ => BitVec.allOnes 64))) := by
  rw [exec_gwait, execGwait, begin_started hs]
  dsimp only
  rw [if_neg hm, begun_liveNode hgone]
  rfl

include hlive

/-- GWAIT on a live node that has completed more often than B says gives its completions (R316). -/
theorem exec_gwait_counts (hx : s.nodes[k]? = some x) (hn : (pairValue s r f 1).toNat < x.completions) :
    exec (.gwait f) s = finish (pairBegun s r f) (pairBegun s r f) [rA f, rB f]
      (writeOperand (r.passing f.g) f.d (tab (fun _ => BitVec.ofNat 64 x.completions))) := by
  have hx : (pairBegun s r f).nodes[k]? = some x := hx
  rw [exec_gwait, execGwait, begin_started hs]
  dsimp only
  rw [if_neg hm, begun_liveNode hlive, Option.bind_some, hx]
  exact if_pos hn

/-- GWAIT on another live node waits for its completions (R316). -/
theorem exec_gwait_waits (hx : s.nodes[k]? = some x) (hn : x.completions ≤ (pairValue s r f 1).toNat) (hown : (s.teamOf r).node ≠ some k) :
    exec (.gwait f) s = stall (pairBegun s r f) (r.noted f.g [rA f, rB f]) (.node (pairValue s r f 0).toNat) := by
  have hx : (pairBegun s r f).nodes[k]? = some x := hx
  have hown : ¬(((pairBegun s r f).teamOf (r.noted f.g [rA f, rB f])).node == some k) = true :=
    fun h => hown (eq_of_beq h)
  rw [exec_gwait, execGwait, begin_started hs]
  dsimp only
  rw [if_neg hm, begun_liveNode hlive, Option.bind_some, hx]
  dsimp only [Option.map_some]
  rw [if_neg (Nat.not_lt.2 hn), if_neg hown]

end Wait
end Nodes

/-- GRDY marks the node of its round's team (R307, R316). -/
theorem exec_grdy_marks {s : State} {r : Round} {f : RForm} {k : Nat} (hs : Starts s r [] []) (hm : r.passing f.g ≠ 0)
    (hk : (s.teamOf r).node = some k) :
    exec (.grdy f) s = finish s (s.modNode k (fun x => { x with grdy := true })).refresh [] (fun q => q) := by
  rw [exec_grdy, execGrdy, begin_started hs, begun_nil hs.1, noted_nil, if_neg hm, hk]

/-! ### GPOST (R305, R314, R316) -/

/-- A record to which no reason applies names an aligned kernel record, and an aligned manifest only where it is standing (R305). -/
theorem recordReason_none {e : State} {p : Partition} {bytes kernel : List Byte} {owner : Nat}
    (h : recordReason e p bytes kernel owner = none) :
    ((readNodeRecord bytes).kind = 0 → (readNodeRecord bytes).kernel.toNat % 64 = 0)
      ∧ ((readNodeRecord bytes).manifest ≠ 0 →
        (readNodeRecord bytes).manifest.toNat % 4096 = 0 ∧ (readNodeRecord bytes).standing = true) := by
  unfold recordReason at h
  dsimp only at h
  split at h
  · cases h
  next h5 =>
  split at h
  · cases h
  split at h
  · cases h
  split at h
  · cases h
  next h8 =>
  constructor
  · intro hkind
    simp only [hkind, decide_true, Bool.true_and, Bool.or_eq_true, not_or, bne_iff_ne, ne_eq, Decidable.not_not] at h5
    exact h5.1.1
  · intro hman
    simp only [Bool.and_eq_true, Bool.or_eq_true, bne_iff_ne, ne_eq, Bool.not_eq_true', not_and, not_or, Decidable.not_not] at h8
    obtain ⟨⟨halign, hstanding⟩, -⟩ := h8 hman
    exact ⟨halign, by simpa using hstanding⟩

/-- GPOST enters a node by its record, whose other bytes have been read, where no reason applies (R305, R306). -/
def postRecord (f : RForm) (p : Partition) (m : Mask) (a : Word) (bytes : List Byte) (e : State) (q : Round)
    (kernel : List Byte) (owner : List Nat) : Res :=
  let rec_ := readNodeRecord bytes
  match recordReason e p bytes kernel (ofBytes (owner.map (Memory.read e.mem))) with
  | some k => nodeRecord e q m k a
  | none =>
    let d := e.enterNode p rec_ (if rec_.kind = 0 then readKernel p rec_.kernel kernel else Kernel.none) owner
    finish e d.1 [rA f] (writeOperand m f.d (tab (fun _ => d.2)))

/-- GPOST reads the owner field of its record's manifest, where a well-formed one names it, and goes on (R314). -/
def postOwner (f : RForm) (p : Partition) (m : Mask) (a : Word) (bytes : List Byte) (e : State) (q : Round)
    (kernel : List Byte) : Res :=
  let l := (lowestLane m).getD 0
  let rec_ := readNodeRecord bytes
  if rec_.manifest = 0 || rec_.manifest.toNat % 4096 != 0 || !rec_.standing then postRecord f p m a bytes e q kernel []
  else
    withPages e q m true 4 [(l, rec_.manifest + 8)] (fun pas =>
      withClean e q pas
        (onRound (e.loadNow q (pasOf pas l)) (fun q1 => postRecord f p m a bytes (e.loadNow q (pasOf pas l)) q1 kernel (pasOf pas l))))

section Post
variable {s : State} {r : Round} {f : RForm} {bytes kernel : List Byte} {owner : List Nat} {e e1 e2 : State} {q q1 q2 : Round}

/-- A record that a round may post gives its node. -/
theorem postRecord_enters {p : Partition} {m : Mask} {a : Word}
    (h : recordReason e p bytes kernel (ofBytes (e.bytesOf owner)) = none) :
    postRecord f p m a bytes e q kernel owner =
      let d := e.enterNode p (readNodeRecord bytes)
        (if (readNodeRecord bytes).kind = 0 then readKernel p (readNodeRecord bytes).kernel kernel else Kernel.none) owner
      finish e d.1 [rA f] (writeOperand m f.d (tab (fun _ => d.2))) := by
  rw [State.bytesOf] at h
  rw [postRecord]
  dsimp only
  rw [h]

/-- A record whose manifest is unnamed goes on at once. -/
theorem postOwner_none {p : Partition} {m : Mask} {a : Word} (h : (readNodeRecord bytes).manifest = 0) :
    postOwner f p m a bytes e q kernel = postRecord f p m a bytes e q kernel [] :=
  if_pos (by simp [h])

/-- A manifest's owner field is read as a load of the round (R314). -/
theorem postOwner_reads {p : Partition} {m : Mask} {a : Word} (hman : (readNodeRecord bytes).manifest ≠ 0)
    (hform : (readNodeRecord bytes).manifest.toNat % 4096 = 0 ∧ (readNodeRecord bytes).standing = true)
    (hpages : PagesAt e2 q2 true ((lowestLane m).getD 0) ((readNodeRecord bytes).manifest + 8) 4 owner) (he : e = e2.loadNow q2 owner)
    (hq : e.issuing = some q) : postOwner f p m a bytes e2 q2 kernel = postRecord f p m a bytes e q kernel owner := by
  obtain ⟨ps, rfl, hgo⟩ := pagesAt_ok (m := m) (fun pas => onRound (e2.loadNow q2 (pasOf pas ((lowestLane m).getD 0))) (fun q1 =>
    postRecord f p m a bytes (e2.loadNow q2 (pasOf pas ((lowestLane m).getD 0))) q1 kernel (pasOf pas ((lowestLane m).getD 0)))) hpages
  subst he
  refine (if_neg (by simpa [hform.1, hform.2] using hman)).trans (hgo.trans ?_)
  exact onRound_eq hq _

/-- A round that may post still issues once it has read its records. -/
theorem Postable.issuing {m : Mask} {a : Word} (h : Postable s r m a bytes kernel owner e q) : e.issuing = some q := by
  obtain ⟨e1, q1, e2, q2, ⟨_, -, -, -, hq1, -⟩, -, hkernel, hnone, howner, hfree, -⟩ := h
  have hq2 : e2.issuing = some q2 := by
    by_cases hkind : (readNodeRecord bytes).kind = 0
    · obtain ⟨_, -, -, -, hq2, -⟩ := hkernel hkind
      exact hq2
    · obtain ⟨rfl, rfl, -⟩ := hnone hkind
      exact hq1
  by_cases hman : (readNodeRecord bytes).manifest = 0
  · obtain ⟨-, rfl, rfl⟩ := hfree hman
    exact hq2
  · exact (howner hman).2.2

/-- GPOST of a record of good shape goes on to the owner field, past the kernel record where the node has one (R305). -/
theorem exec_gpost_reads (hs : Starts s r [rA f] (regNames f.d 1)) (hm : r.passing f.g ≠ 0)
    (hload : LoadsAt (s.begun r f.g [rA f]) (r.noted f.g [rA f]) (r.passing f.g) (lowValue (r.passing f.g) (sources s r [rA f]) 0) 256
      e1 q1 bytes)
    (hshape : shapeReason (s.partOf r) bytes = none) :
    exec (.gpost f) s =
      let rec_ := readNodeRecord bytes
      let go := postOwner f (s.partOf r) (r.passing f.g) (lowValue (r.passing f.g) (sources s r [rA f]) 0) bytes
      if rec_.kind = 0 && rec_.kernel.toNat % 64 == 0 then withLoad e1 q1 (r.passing f.g) rec_.kernel 64 go else go e1 q1 [] := by
  have hpart : (s.begun r f.g [rA f]).partOf (r.noted f.g [rA f]) = s.partOf r := rfl
  rw [exec_gpost, execGpost, begin_started hs]
  dsimp only
  rw [if_neg hm, withLoad_ok _ hload, hpart, hshape]
  rfl

/-- GPOST of a record that a round may post enters its node (R305, R306, R314). -/
theorem exec_gpost_enters (hs : Starts s r [rA f] (regNames f.d 1)) (hm : r.passing f.g ≠ 0)
    (hpost : Postable (s.begun r f.g [rA f]) (r.noted f.g [rA f]) (r.passing f.g) (lowValue (r.passing f.g) (sources s r [rA f]) 0)
      bytes kernel owner e q) :
    exec (.gpost f) s =
      let d := e.enterNode (s.partOf r) (readNodeRecord bytes)
        (if (readNodeRecord bytes).kind = 0 then readKernel (s.partOf r) (readNodeRecord bytes).kernel kernel else Kernel.none) owner
      finish e d.1 [rA f] (writeOperand (r.passing f.g) f.d (tab (fun _ => d.2))) := by
  obtain ⟨e1, q1, e2, q2, hload, hshape, hkernel, hnone, howner, hfree, hreason⟩ := hpost
  obtain ⟨halign, hform⟩ := recordReason_none hreason
  have hread : exec (.gpost f) s = postOwner f (s.partOf r) (r.passing f.g)
      (lowValue (r.passing f.g) (sources s r [rA f]) 0) bytes e2 q2 kernel := by
    rw [exec_gpost_reads hs hm hload hshape]
    dsimp only
    by_cases hkind : (readNodeRecord bytes).kind = 0
    · rw [if_pos (by simp [hkind, halign hkind]), withLoad_ok _ (hkernel hkind)]
    · obtain ⟨rfl, rfl, rfl⟩ := hnone hkind
      rw [if_neg (by simp [hkind])]
  rw [hread]
  by_cases hman : (readNodeRecord bytes).manifest = 0
  · obtain ⟨rfl, rfl, rfl⟩ := hfree hman
    rw [postOwner_none hman]
    exact postRecord_enters hreason
  · obtain ⟨hpages, he, hq⟩ := howner hman
    rw [postOwner_reads hman (hform hman) hpages he hq]
    exact postRecord_enters hreason

end Post

/-- Settles O46, an instruction at a time. -/
theorem graphCompletes : Obligations.GraphCompletes := by
  intro s r f m
  refine ⟨?_, ?_, ?_⟩
  · intro fs b a n hm
    refine ⟨?_, ?_, ?_⟩
    · intro die c hs hat
      have hb : b.issuing = some (r.noted f.g fs) := begun_issuing hs _ _
      refine ⟨fun hroom hf => ?_, fun hn hf => ?_, fun hn hfirst hholds hf => ?_, fun hn hgo => ?_⟩
      · rw [exec_semp_adds hs hm hat hroom]
        exact finish_done hb hf
      · rw [exec_semw_zero hs hm hat hn]
        exact finish_done hb hf
      · rw [exec_semw_acts hs hm hat hn]
        exact (if_pos ⟨hfirst, hholds⟩).trans (finish_done hb hf)
      · rw [exec_semw_acts hs hm hat hn]
        exact if_neg hgo
    · intro k x hs hlive hx
      have hb : b.issuing = some (r.noted f.g fs) := begun_issuing hs _ _
      refine ⟨fun hn hf => ?_, fun hn hf => ?_⟩
      · rw [exec_garm_arms hm hlive hs hn]
        exact finish_done hb hf
      · rw [exec_garm_ends hm hlive hs hx hn]
        exact finish_done hb hf
    · intro hs
      have hb : b.issuing = some (r.noted f.g fs) := begun_issuing hs _ _
      refine ⟨fun hgone hf => ?_, fun k x hlive hx => ⟨fun hn hf => ?_, fun hn hown => ?_⟩⟩
      · rw [exec_gwait_gone hm hs hgone]
        exact finish_done hb hf
      · rw [exec_gwait_counts hm hlive hs hx hn]
        exact finish_done hb hf
      · rw [exec_gwait_waits hm hlive hs hx hn hown]
        rfl
  · intro fs b a rb kb owner e1 q rec_ k e write hs hm hpost hf
    rw [exec_gpost_enters hs hm hpost]
    exact finish_done hpost.issuing hf
  · intro k e hs hm hk hf
    rw [exec_grdy_marks hs hm hk]
    exact finish_done hs.1 hf

end Sys2Proof.Machine
end

section
/-! PROOFS. The manifest (R313, R314, R317): MADMIT and MRETIRE find its pages and act on its bytes past their release; MREAD gives a word of
the snapshot of its round's dispatch. -/
namespace Sys2Proof.Machine

theorem exec_madmit (f : RForm) (s : State) : exec (.madmit f) s = execMadmit f s := rfl
theorem exec_mretire (f : RForm) (s : State) : exec (.mretire f) s = execMretire f s := rfl
theorem exec_mread (f : RForm) (s : State) : exec (.mread f) s = execMread f s := rfl

/-- A round that has started finds its pages as before. -/
theorem pagesAt_begun {s : State} {r : Round} {w : Bool} {l : Nat} {a : Word} {n : Nat} {pas : List Nat} (h : PagesAt s r w l a n pas)
    (g : Guard) (fs : List Field) : PagesAt (s.begun r g fs) (r.noted g fs) w l a n pas := by
  obtain ⟨ps, hpages, hclean, hpas⟩ := h
  exact ⟨ps, by rw [xlat_begun]; exact hpages, hclean, hpas⟩

/-- A manifest instruction that has started goes on at the home slice (R317). -/
theorem onManifest_begun {s : State} {r : Round} {fs : List Field} {names : List Nat} {a : Word} {m : Mask} {pas : List Nat}
    (hs : Starts s r fs names) (hp : PagesAt s r true ((lowestLane m).getD 0) a manifestSize pas) (g : Guard)
    (k : State → List Nat → Res) :
    onManifest (s.begun r g fs) (r.noted g fs) m a k = k ((s.begun r g fs).atManifest r pas) pas :=
  onManifest_ok k (begun_issuing hs g fs) (pagesAt_begun hp g fs)

/-- Byte i of a manifest whose bytes stand at the places given. -/
def State.manifestByte (s : State) (pas : List Nat) (i : Nat) : Byte := Memory.read s.mem (pas.getD i 0)

/-- What MADMIT writes of slot k: its two words, its state, and the count (R317). -/
def State.admitCells (s : State) (pas : List Nat) (k : Nat) (x y : Word) : List (Nat × Byte) :=
  (toBytes 8 x.toNat ++ toBytes 8 y.toNat).zipIdx.map (fun p => (pas.getD (2048 + 16 * k + p.2) 0, p.1))
    ++ [(pas.getD (64 + k / 4) 0, withSlotState (s.manifestByte pas (64 + k / 4)) k 1)]
    ++ (toBytes 2 ((s.manifestByte pas 0).toNat + 256 * (s.manifestByte pas 1).toNat + 1)).zipIdx.map (fun p => (pas.getD p.2 0, p.1))

/-- The state that MRETIRE gives a member: retiring while the owner's dispatch holds its slot, else free (R317). -/
def State.retiredState (s : State) (part : Nat) (pas : List Nat) (k : Nat) : Nat :=
  if s.ownerHolds part (ofBytes ((List.range 4).map (fun i => s.manifestByte pas (8 + i)))) k then 2 else 0

/-- What MRETIRE writes of slot k: its state and the count (R317). -/
def State.retireCells (s : State) (part : Nat) (pas : List Nat) (k : Nat) : List (Nat × Byte) :=
  (pas.getD (64 + k / 4) 0, withSlotState (s.manifestByte pas (64 + k / 4)) k (s.retiredState part pas k))
    :: (toBytes 2 ((s.manifestByte pas 0).toNat + 256 * (s.manifestByte pas 1).toNat + 2 ^ 16 - 1)).zipIdx.map (fun p => (pas.getD p.2 0, p.1))

section Admit
variable {s : State} {r : Round} {f : RForm} {pas : List Nat} (hs : Starts s r [rA f, rB f, rC f] (regNames f.d 1))
  (hm : r.passing f.g ≠ 0)
  (hp : PagesAt s r true ((lowestLane (r.passing f.g)).getD 0) (lowValue (r.passing f.g) (sources s r [rA f, rB f, rC f]) 0) manifestSize pas)
include hs hm hp

/-- MADMIT fills the lowest free slot (R317). -/
theorem exec_madmit_fills {k : Nat} (hk : k < manifestSlots)
    (hfree : slotState (((s.begun r f.g [rA f, rB f, rC f]).atManifest r pas).manifestByte pas) k = 0)
    (hlow : ∀ j < k, slotState (((s.begun r f.g [rA f, rB f, rC f]).atManifest r pas).manifestByte pas) j ≠ 0) :
    let b := s.begun r f.g [rA f, rB f, rC f]
    let value := lowValue (r.passing f.g) (sources s r [rA f, rB f, rC f])
    exec (.madmit f) s = finish b
      ((b.atManifest r pas).writeBytes ((b.atManifest r pas).admitCells pas k (value 1) (value 2))) [rA f, rB f, rC f]
      (writeOperand (r.passing f.g) f.d (tab (fun _ => BitVec.ofNat 64 k))) := by
  intro b value
  have hfind : (List.range manifestSlots).find? (fun k =>
      slotState (fun i => Memory.read (b.atManifest r pas).mem (pas.getD i 0)) k == 0) = some k :=
    List.find?_range_eq_some.2 ⟨beq_iff_eq.2 hfree, List.mem_range.2 hk, fun j hj => bne_iff_ne.2 (hlow j hj)⟩
  rw [exec_madmit, execMadmit, begin_started hs]
  dsimp only
  rw [if_neg hm, onManifest_begun hs hp, hfind]
  rfl

/-- MADMIT of a full manifest gives all ones (R317). -/
theorem exec_madmit_full
    (hfull : ∀ k < manifestSlots, slotState (((s.begun r f.g [rA f, rB f, rC f]).atManifest r pas).manifestByte pas) k ≠ 0) :
    let b := s.begun r f.g [rA f, rB f, rC f]
    exec (.madmit f) s = finish b (b.atManifest r pas) [rA f, rB f, rC f]
      (writeOperand (r.passing f.g) f.d (tab (fun _ => BitVec.allOnes 64))) := by
  intro b
  have hfind : (List.range manifestSlots).find? (fun k =>
      slotState (fun i => Memory.read (b.atManifest r pas).mem (pas.getD i 0)) k == 0) = none :=
    List.find?_range_eq_none.2 fun k hk => bne_iff_ne.2 (hfull k hk)
  rw [exec_madmit, execMadmit, begin_started hs]
  dsimp only
  rw [if_neg hm, onManifest_begun hs hp, hfind]

end Admit

section Retire
variable {s : State} {r : Round} {f : RForm} {pas : List Nat} (hs : Starts s r [rA f, rB f] [])
  (hm : r.passing f.g ≠ 0)
  (hp : PagesAt s r true ((lowestLane (r.passing f.g)).getD 0) (pairValue s r f 0) manifestSize pas)
  (hk : (pairValue s r f 1).toNat < manifestSlots)
include hs hm hp hk

/-- MRETIRE takes a member out, and leaves another slot as it is (R317). -/
theorem exec_mretire_acts :
    let b := pairBegun s r f
    let e := b.atManifest r pas
    let k := (pairValue s r f 1).toNat
    exec (.mretire f) s =
      if slotState (e.manifestByte pas) k = 1 then
        finish b (e.writeBytes (e.retireCells (e.teamOf r).part pas k)) [rA f, rB f] (fun q => q)
      else finish b e [rA f, rB f] (fun q => q) := by
  intro b e k
  rw [exec_mretire, execMretire, begin_started hs]
  dsimp only
  rw [if_neg hm, if_neg (Nat.not_le.2 hk), onManifest_begun hs hp]
  by_cases hmember : slotState (e.manifestByte pas) k = 1
  · rw [if_pos hmember]
    exact if_neg fun h => bne_iff_ne.1 h hmember
  · rw [if_neg hmember]
    exact if_pos (bne_iff_ne.2 hmember)

end Retire

/-- MREAD gives a word of the snapshot of its round's dispatch, past its release (R317). -/
theorem exec_mread_reads {s : State} {r : Round} {f : RForm} {node : Node} {snap : List Nat × Nat}
    (hs : Starts s r [rA f] (regNames f.d 1)) (hm : r.passing f.g ≠ 0) (hnode : s.nodeOf r = some node) (hsnap : node.snapshot = some snap)
    (hw : (lowValue (r.passing f.g) (sources s r [rA f]) 0).toNat ≤ 65) :
    let b := s.begun r f.g [rA f]
    exec (.mread f) s = finish b (b.afterRelease r 5 false) [rA f] (writeOperand (r.passing f.g) f.d
      (tab (fun _ => snapshotWord snap (lowValue (r.passing f.g) (sources s r [rA f]) 0).toNat))) := by
  intro b
  have hfound : (b.nodeOf (r.noted f.g [rA f])).bind (fun n => n.snapshot) = some snap := by
    rw [show b.nodeOf (r.noted f.g [rA f]) = some node from hnode, Option.bind_some, hsnap]
  rw [exec_mread, execMread, begin_started hs]
  dsimp only
  rw [if_neg hm, hfound]
  dsimp only
  rw [if_neg (Nat.not_lt.2 hw), withRelease_package hs]

/-- Settles O47, an instruction at a time. -/
theorem manifestCompletes : Obligations.ManifestCompletes := by
  intro s r f pas m at_ hm
  refine ⟨?_, ?_, ?_⟩
  · intro fs b xs e read hs hp
    have hb : b.issuing = some (r.noted f.g fs) := begun_issuing hs _ _
    refine ⟨?_, ?_⟩
    · intro k cells write hk hfree hlow hf
      rw [exec_madmit_fills hs hm hp hk hfree hlow]
      exact finish_done hb hf
    · intro write hfull hf
      rw [exec_madmit_full hs hm hp hfull]
      exact finish_done hb hf
  · intro fs b xs k e read new cells hs hp hk
    have hb : b.issuing = some (r.noted f.g fs) := begun_issuing hs _ _
    refine ⟨fun hmember hf => ?_, fun hother hf => ?_⟩
    · rw [exec_mretire_acts hs hm hp hk]
      exact (if_pos hmember).trans (finish_done hb hf)
    · rw [exec_mretire_acts hs hm hp hk]
      exact (if_neg hother).trans (finish_done hb hf)
  · intro node snap fs b w e write hs hnode hsnap hw hf
    rw [exec_mread_reads hs hm hnode hsnap hw]
    exact finish_done (begun_issuing hs _ _) hf

end Sys2Proof.Machine
end

section
/-! PROOFS. The sorting office (R307 to R313): what SORTING_OFFICE_ADMIT does first on a die, and how nodes of each kind complete. -/
namespace Sys2Proof.Machine

theorem exec_sortingOfficeAdmit (die : Nat) (s : State) : exec (.sortingOfficeAdmit die) s = execSortingOfficeAdmit die s := rfl
theorem exec_nodeComplete (n : Nat) (s : State) : exec (.nodeComplete n) s = execNodeComplete n s := rfl
theorem exec_courierNodeStop (n : Nat) (s : State) : exec (.courierNodeStop n) s = execCourierNodeStop n s := rfl

/-! ### SORTING_OFFICE_ADMIT (R308, R313) -/

/-- The state in which the sorting office of a die chooses, once the holds that have ended are gone (R308). -/
abbrev State.office (s : State) (die : Nat) : State := s.dropHolds die (s.candidates die)

section Office
variable {s : State} {die : Nat}

theorem exec_admit_returns {n : Nat} {r : Round} (hback : (s.office die).returning die = some (n, r)) :
    exec (.sortingOfficeAdmit die) s = .next ((s.office die).bringBack n r) := by
  rw [exec_sortingOfficeAdmit, execSortingOfficeAdmit]
  dsimp only
  rw [hback]

section Settled
variable (hback : (s.office die).returning die = none)
include hback

theorem exec_admit_removes {n : Nat} {x : Node} (hgo : (s.office die).nodeToRemove die = some (n, x)) :
    exec (.sortingOfficeAdmit die) s = .next ((s.office die).tryRemove n x) := by
  rw [exec_sortingOfficeAdmit, execSortingOfficeAdmit]
  dsimp only
  rw [hback, hgo]

/-- Where no round comes back and no node goes, the first node of C acts if it can (R308). -/
theorem exec_admit_first {n : Nat} {x : Node} {rest : List (Nat × Node)} {t : State} (hgo : (s.office die).nodeToRemove die = none)
    (hfirst : (s.office die).candidates die = (n, x) :: rest) (ht : (s.office die).tryNode ((n, x) :: rest) n x = some t) :
    exec (.sortingOfficeAdmit die) s = .next t := by
  have hfind : ((n, x) :: rest).findSome? (fun y => (s.office die).tryNode ((n, x) :: rest) y.1 y.2) = some t := by
    rw [List.findSome?_cons, ht]
  rw [exec_sortingOfficeAdmit, execSortingOfficeAdmit]
  dsimp only
  rw [hback, hgo]
  dsimp only
  rw [hfirst, hfind]

end Settled
end Office

/-- A node's next gang is admitted on some places, and the node's hold ends (R308, R309). -/
def State.admitGang (e : State) (n : Nat) (x : Node) (places : List Nat) : State :=
  let e1 := e.admitNew n x places
  let e2 := e1.setDie x.onDie { e1.die x.onDie with holds := (e1.die x.onDie).holds.filter (fun h => h.2 != n) }
  e2.modNode n (fun y =>
    ({ y with firstSince := none, state := if y.state == .earlyReady then .earlyReady else .dispatching } : Node).settle)

section Admission
variable {e : State} {n : Nat} {x : Node}

/-- A node without a manifest has none to look at (R313). -/
theorem manifestState_none (hman : x.record.manifest = 0) : e.manifestState n x = .none := if_pos (by simp [hman])

/-- The next unit of a node with no resumable team is a gang of new teams (R308). -/
theorem nextUnit_new (hres : x.resumable = []) (hteams : 0 < x.undispatched) : e.nextUnit x = some (.new x.record.gang) := by
  rw [State.nextUnit, hres]
  exact if_pos hteams

/-- A compute node whose next gang fits is given it (R308). -/
theorem tryNode_admits {c : List (Nat × Node)} {places : List Nat} (hkind : x.record.kind = 0) (hman : x.record.manifest = 0)
    (hres : x.resumable = []) (hteams : 0 < x.undispatched) (hplaces : e.placesFor n x (.new x.record.gang) e.roomOf = some places) :
    e.tryNode c n x = some (e.admitGang n x places) := by
  rw [State.tryNode, hkind]
  dsimp only
  rw [manifestState_none hman]
  dsimp only
  rw [nextUnit_new hres hteams]
  dsimp only
  rw [hplaces]
  rfl

end Admission

/-! ### NODE_COMPLETE (R307, R309, R311) -/

section Completion
variable {s : State} {n : Nat} {x : Node} (hx : s.nodes[n]? = some x) (hrun : x.state = .running)
include hx hrun

/-- A compute node completes once all its teams have ended (R307, R311, R313). -/
theorem exec_nodeComplete_compute (hkind : x.record.kind = 0) (hended : ∀ t ∈ s.teams, t.node = some n → t.status = .ended) :
    exec (.nodeComplete n) s = .next (if x.snapshot.isSome || !x.standing then
      s.withManifest n x 0 1088 (fun e pas => e.completeNode n x pas) else s.completeNode n x []) := by
  have hall : s.teams.all (fun t => t.node != some n || t.status == .ended) = true := by
    rw [List.all_eq_true]
    intro t ht
    by_cases hnode : t.node = some n
    · simp [hended t ht hnode]
    · simp [hnode]
  rw [exec_nodeComplete, execNodeComplete, hx]
  dsimp only
  rw [if_neg (by simp [hrun]), hkind]
  exact if_pos hall

/-- A copy node completes once its bytes have moved (R309). -/
theorem exec_nodeComplete_copy {m : Member} {mv : Move} {src : Nat → Nat ⊕ Byte} {s1 : State} (hkind : x.record.kind = 1)
    (hfault : x.fault = none)
    (hwork : x.work = some m) (hservice : m.service = none) (hmove : m.work.move = some (mv, src))
    (hlink : mv.usesHost = true → s.linkReady (linkOf x.part) = true)
    (hdone : s.moveBytes (nodeAgent x) m mv src (wordBytes mv none m.moved) = .done s1) :
    exec (.nodeComplete n) s = .next (s1.completeNode n x []) := by
  have hcopy : s.runCopyNode n x m = s1.completeNode n x [] := by
    rw [State.runCopyNode, hmove]
    dsimp only
    rw [if_neg (by simpa using hlink), hdone]
  rw [exec_nodeComplete, execNodeComplete, hx]
  dsimp only
  rw [if_neg (by simp [hrun]), hkind, hfault, hwork]
  exact (if_neg (by simp [hservice])).trans (congrArg _ hcopy)

/-- A Courier node completes with its job (R309). -/
theorem exec_nodeComplete_courier {j : CourierJob} (hkind : x.record.kind = 2) (hfault : x.fault = none)
    (hjob : s.jobs.find? (fun j => j.node == some n) = some j) (hstate : j.state = .complete) :
    exec (.nodeComplete n) s = .next (s.completeNode n x []) := by
  rw [exec_nodeComplete, execNodeComplete, hx]
  dsimp only
  rw [if_neg (by simp [hrun]), hkind, hfault, hjob]
  dsimp only
  rw [hstate]
  rfl

/-- A node with no work of its own completes at once (R309). -/
theorem exec_nodeComplete_empty (hkind : x.record.kind = 3) : exec (.nodeComplete n) s = .next (s.completeNode n x []) := by
  rw [exec_nodeComplete, execNodeComplete, hx]
  dsimp only
  rw [if_neg (by simp [hrun]), hkind]
  rfl

end Completion

/-! ### COURIER_NODE_STOP (R358) -/

/-- The better of the best so far and the next one, which replaces it only where it comes before it. -/
def pickBefore {α : Type} (before : α → α → Bool) (acc : Option α) (y : α) : Option α :=
  match acc with
  | none => some y
  | some z => if before y z then some y else some z

/-- What nothing in a list comes before stays picked. -/
theorem foldl_pickBefore_keeps {α : Type} {before : α → α → Bool} {x : α} {l : List α} (hmin : ∀ y ∈ l, before y x = false) :
    l.foldl (pickBefore before) (some x) = some x := by
  induction l with
  | nil => rfl
  | cons y l ih =>
    have hy : pickBefore before (some x) y = some x := if_neg (by simp [hmin y List.mem_cons_self])
    rw [List.foldl_cons, hy]
    exact ih fun z hz => hmin z (List.mem_cons_of_mem _ hz)

/-- An element that comes before every other one, and that none comes before, is picked. -/
theorem foldl_pickBefore {α : Type} {before : α → α → Bool} {x : α} {l : List α} (hx : x ∈ l) (hmin : ∀ y ∈ l, before y x = false)
    (hfirst : ∀ y ∈ l, y ≠ x → before x y = true) {acc : Option α} (hacc : ∀ z, acc = some z → z ≠ x → before x z = true) :
    l.foldl (pickBefore before) acc = some x := by
  induction l generalizing acc with
  | nil => cases hx
  | cons y l ih =>
    have hmin' : ∀ z ∈ l, before z x = false := fun z hz => hmin z (List.mem_cons_of_mem _ hz)
    rw [List.foldl_cons]
    by_cases hy : y = x
    · have hpick : pickBefore before acc y = some x := by
        subst hy
        cases acc with
        | none => rfl
        | some z =>
          by_cases hz : z = y
          · subst hz
            exact if_neg (by simp [hmin z List.mem_cons_self])
          · exact if_pos (hacc z rfl hz)
      rw [hpick]
      exact foldl_pickBefore_keeps hmin'
    · refine ih ((List.mem_cons.1 hx).resolve_left (Ne.symm hy)) hmin' (fun z hz => hfirst z (List.mem_cons_of_mem _ hz)) ?_
      intro z hz hzx
      have hcase : z = y ∨ acc = some z := by
        cases acc with
        | none => exact .inl (Option.some.inj hz).symm
        | some w =>
          unfold pickBefore at hz
          dsimp only at hz
          split at hz
          · exact .inl (Option.some.inj hz).symm
          · exact .inr hz
      obtain rfl | hz := hcase
      · exact hfirst z List.mem_cons_self hzx
      · exact hacc z hz hzx

/-- Whether a Courier node comes before another one among those to stop: its priority is lower, or it started later (R358). -/
def stopsBefore (y z : Node × Nat) : Bool :=
  y.1.record.priority < z.1.record.priority || (y.1.record.priority == z.1.record.priority && decide (z.1.started < y.1.started))

/-- Nothing comes before what comes before it. -/
theorem stopsBefore_asymm {y z : Node × Nat} (h : stopsBefore y z = true) : stopsBefore z y = false := by
  simp only [stopsBefore, Bool.or_eq_true, Bool.and_eq_true, decide_eq_true_eq, beq_iff_eq] at h
  simp only [stopsBefore, Bool.or_eq_false_iff, Bool.and_eq_false_iff, decide_eq_false_iff_not, beq_eq_false_iff_ne]
  omega

theorem stopsBefore_irrefl (y : Node × Nat) : stopsBefore y y = false := by simp [stopsBefore]

theorem pickBefore_stopsBefore : pickBefore stopsBefore = fun acc y =>
    match acc with
    | none => some y
    | some z =>
      if y.1.record.priority < z.1.record.priority
          || (y.1.record.priority == z.1.record.priority && decide (z.1.started < y.1.started)) then some y else some z := by
  funext acc y
  cases acc <;> rfl

/-- Whether a Courier node has a job that may stop (R358). -/
def State.courierRuns (s : State) (k : Nat) : Prop :=
  ∃ j ∈ s.jobs, j.node = some k ∧ (j.state = .waiting ∨ j.state = .running) ∧ j.failed = false

theorem courierRuns_iff {s : State} {k : Nat} :
    (s.jobs.any (fun j => j.node == some k && (j.state == .waiting || j.state == .running) && !j.failed)) = true ↔ s.courierRuns k := by
  simp [State.courierRuns, and_assoc]

/-- The Courier nodes of a die that may stop, each with its position (R358). -/
def State.stoppable (s : State) (die : Nat) : List (Node × Nat) :=
  s.nodes.zipIdx.filter (fun y => y.1.onDie == die && y.1.record.kind == 2 && decide (y.1.record.priority ≤ 3)
    && s.jobs.any (fun j => j.node == some y.2 && (j.state == .waiting || j.state == .running) && !j.failed))

theorem mem_stoppable {s : State} {die k : Nat} {z : Node} :
    (z, k) ∈ s.stoppable die ↔
      s.nodes[k]? = some z ∧ z.onDie = die ∧ z.record.kind = 2 ∧ z.record.priority ≤ 3 ∧ s.courierRuns k := by
  rw [State.stoppable, List.mem_filter, List.mem_zipIdx_iff_getElem?, Bool.and_eq_true, courierRuns_iff]
  simp [and_assoc]

/-- The Courier node to stop is the first of those that may (R358). -/
theorem exec_courierNodeStop_stops {s : State} {n m : Nat} {x y : Node} {rest : List (Nat × Node)} (hx : s.nodes[n]? = some x)
    (hfirst : s.candidates x.onDie = (m, y) :: rest) (hkind : y.record.kind = 2) (hprio : 6 ≤ y.record.priority)
    (hfull : 64 ≤ s.engineJobs x.onDie) (hmem : (x, n) ∈ s.stoppable x.onDie)
    (hbefore : ∀ z ∈ s.stoppable x.onDie, z ≠ (x, n) → stopsBefore (x, n) z = true) :
    exec (.courierNodeStop n) s =
      .next ((s.stopNodeJob n).modNode n (fun y => { y with state := .ready, since := s.now })) := by
  have hmin : ∀ z ∈ s.stoppable x.onDie, stopsBefore z (x, n) = false := by
    intro z hz
    by_cases hzx : z = (x, n)
    · rw [hzx]
      exact stopsBefore_irrefl _
    · exact stopsBefore_asymm (hbefore z hz hzx)
  have hpick : (s.stoppable x.onDie).foldl (pickBefore stopsBefore) none = some (x, n) :=
    foldl_pickBefore hmem hmin hbefore (fun z hz => nomatch hz)
  rw [exec_courierNodeStop, execCourierNodeStop, hx]
  dsimp only
  rw [hfirst]
  refine if_pos ?_
  rw [pickBefore_stopsBefore] at hpick
  simp only [hkind, hprio, hfull, decide_true, beq_self_eq_true, Bool.true_and]
  exact beq_iff_eq.2 (congrArg (Option.map (fun y => y.2)) hpick)

end Sys2Proof.Machine
end

section
/-! PROOFS. The engines' events (R352, R353, R358, R380, R381): a Courier job starts and its segments complete; a collective starts, reads what
it has not read, and writes its results. Then O54. -/
namespace Sys2Proof.Machine

theorem exec_courierJobStart (n : Nat) (s : State) : exec (.courierJobStart n) s = execCourierJobStart n s := rfl
theorem exec_courierSegmentComplete (n k : Nat) (outside : ExtData) (s : State) :
    exec (.courierSegmentComplete n k outside) s = execCourierSegmentComplete n k outside s := rfl
theorem exec_collectiveStart (n : Nat) (s : State) : exec (.collectiveStart n) s = execCollectiveStart n s := rfl
theorem exec_collectiveComplete (n : Nat) (outside : List CollIn) (s : State) :
    exec (.collectiveComplete n outside) s = execCollectiveComplete n outside s := rfl

/-! ### COURIER_JOB_START (R352, R358) -/

/-- A job stands where a cursor names a segment of its plan (R351). -/
theorem at_segment {j : CourierJob} {c : Cursor} (hstate : c.state = 1 ∨ c.state = 3) (hseg : ∃ x ∈ j.plan, x.src = c.src ∧ x.seg = c.seg) :
    ∃ n, (j.plan[n]?).map (fun x => (x.src, x.seg)) = some (c.src, c.seg)
      ∧ j.at_ c = { j with committed := n, bytes := c.bytes, segs := c.segs, state := .waiting } := by
  have hsome : (j.plan.findIdx? (fun x => x.src == c.src && x.seg == c.seg)).isSome = true := by
    obtain ⟨x, hx, hsrc, hseg⟩ := hseg
    rw [List.findIdx?_isSome, List.any_eq_true]
    exact ⟨x, hx, by simp [hsrc, hseg]⟩
  obtain ⟨n, hn⟩ := Option.isSome_iff_exists.1 hsome
  obtain ⟨hlt, hnamed, -⟩ := List.findIdx?_eq_some_iff_getElem.1 hn
  refine ⟨n, ?_, ?_⟩
  · rw [List.getElem?_eq_getElem hlt]
    simpa using hnamed
  · have hopen : c.state ≠ 2 := by omega
    simp only [CourierJob.at_, hopen, if_false, hn, Option.getD_some, Nat.not_le.2 hlt]

section Start
variable {s : State} {n : Nat} {j : CourierJob} (hj : s.jobs[n]? = some j) (hwait : j.state = .waiting) (hready : s.courierReady j.die = true)
  (hroom : (s.jobs.filter (fun x => x.die == j.die && (x.state == .running || x.state == .stopping))).length < 64)
  (hserve : s.segmentsWait n = false)
include hj hwait hready hroom hserve

/-- A job that was not stopped runs (R352). -/
theorem exec_courierJobStart_runs (hresume : j.resume = false) :
    exec (.courierJobStart n) s = .next (s.setJob n { j with state := .running }) := by
  rw [exec_courierJobStart, execCourierJobStart, hj]
  dsimp only
  rw [if_neg (by simp [hwait, hready, hroom, hserve])]
  exact if_pos (by simp [hresume])

/-- A job that was stopped goes on from its cursor record (R358). -/
theorem exec_courierJobStart_resumes {b : List Byte} {pas : List Nat} {s1 : State} (hresume : j.resume = true)
    (hs1 : s1 = s.readyJob j (((List.range 64).map (fun i => j.cursor + BitVec.ofNat 64 i)).filterMap (s.userAt j.part)))
    (hb : gather (((List.range 64).map (fun i => j.cursor + BitVec.ofNat 64 i)).map (s1.userByte j.part)) = .ok b)
    (hpas : s1.cursorPlaces j = .ok pas) (hid : (readCursor b).jobid = j.jobid)
    (hstate : (readCursor b).state = 1 ∨ (readCursor b).state = 3)
    (hseg : ∃ x ∈ j.plan, x.src = (readCursor b).src ∧ x.seg = (readCursor b).seg) :
    ∃ k : CourierJob, exec (.courierJobStart n) s = .next ((s1.setJob n k).beginCursor { k with state := .waiting } pas (some (readCursor b)))
      ∧ k.state = .running ∧ k.bytes = (readCursor b).bytes ∧ k.segs = (readCursor b).segs ∧ k.plan = j.plan
      ∧ (j.plan[k.committed]?).map (fun x => (x.src, x.seg)) = some ((readCursor b).src, (readCursor b).seg) := by
  obtain ⟨i, hi, hat⟩ := at_segment hstate hseg
  have hok : ((readCursor b).jobid == j.jobid && ((readCursor b).state == 2 || (((readCursor b).state == 1 || (readCursor b).state == 3)
      && j.plan.any (fun x => x.src == (readCursor b).src && x.seg == (readCursor b).seg)))) = true := by
    have hany : j.plan.any (fun x => x.src == (readCursor b).src && x.seg == (readCursor b).seg) = true := by
      simpa [List.any_eq_true] using hseg
    simpa [hid, hany] using .inr hstate
  refine ⟨{ j with committed := i, bytes := (readCursor b).bytes, segs := (readCursor b).segs, state := .running, resume := false },
    ?_, rfl, rfl, rfl, rfl, hi⟩
  subst hs1
  rw [exec_courierJobStart, execCourierJobStart, hj]
  dsimp only
  rw [if_neg (by simp [hwait, hready, hroom, hserve]), if_neg (by simp [hresume]), hb]
  dsimp only
  rw [if_pos hok, hat]
  dsimp only
  rw [if_neg (by decide), hpas]

end Start

/-! ### COURIER_SEGMENT_COMPLETE (R352, R353, R357) -/

section Segment
variable {s : State} {n k : Nat} {j : CourierJob} {x : Segment} (hj : s.jobs[n]? = some j)
  (hstate : j.state = .running ∨ j.state = .stopping) (hx : j.plan[k]? = some x) (hcommitted : j.committed ≤ k) (hdone : k ∉ j.done)
  (hserve : ∀ v ∈ s.services, v.work ≠ .courier n k)
  (hbegun : j.begun k = true ∨ (j.state = .running ∧ j.failed = false ∧ j.table ∉ (s.part j.part).frozen))
include hj hstate hx hcommitted hdone hserve hbegun

/-- A segment that is not complete moves where it is in flight, or where nothing keeps its job from beginning it (R352, R358, R367). -/
theorem movable_some : s.movable n k = some (j, x) := by
  have hwaits : s.services.any (fun v => v.work == .courier n k) = false := by
    rw [List.any_eq_false]
    intro v hv
    simpa using hserve v hv
  have hruns : (j.state == .running || j.state == .stopping) = true := by simpa using hstate
  have hlate : (!(j.failed || j.state == .stopping || (s.part j.part).frozen.contains j.table) || j.begun k) = true := by
    obtain hb | ⟨hrun, hfail, hfrozen⟩ := hbegun
    · simp [hb]
    · simp [hrun, hfail, hfrozen]
  rw [State.movable, hj]
  dsimp only
  rw [hx]
  dsimp only
  rw [hwaits, if_pos]
  rw [hruns, hlate]
  simp [hcommitted, hdone]

/-- What remains of a segment moves, and its job commits (R352, R353). -/
theorem exec_segment_moves {outside : ExtData} {l : List (Nat × Byte)} {pas : List Nat} {j1 : CourierJob} {todo unread : List Nat}
    {s1 : State} (htodo : todo = (List.range x.len).filter (fun i => !j.wrote.contains (segmentKey k i)))
    (hunread : unread = todo.filter (fun i => (SMap.find j.read (segmentKey k i)).isNone))
    (hs1 : s1 = (s.readyJob j (s.segmentSource j x unread)).settleDest j (s.segmentDest j x todo))
    (hcome : unread = [] ∨ s.awaitsOutside j x outside = false) (hj1 : s1.jobs[n]? = some j1)
    (hcells : s1.segmentCells j1 k x outside todo = .ok l) (hpas : s1.cursorPlaces j1 = .ok pas) (hclean : s1.lastingDest x l = none) :
    exec (.courierSegmentComplete n k outside) s =
      .next ((s1.writeJob j1 l).commitJob n { j1.without k with done := k :: j1.done } pas) := by
  have hgo : ¬(!unread.isEmpty && s.awaitsOutside j x outside) = true := by
    obtain h | h := hcome <;> simp [h]
  subst hs1 hunread htodo
  rw [exec_courierSegmentComplete, execCourierSegmentComplete, hj]
  dsimp only
  rw [if_neg (by simp [hx]), movable_some hj hstate hx hcommitted hdone hserve hbegun]
  dsimp only
  rw [if_neg hgo, hj1]
  dsimp only
  rw [hcells, hpas]
  dsimp only
  rw [hclean]

end Segment

/-! ### COLLECTIVE_START and COLLECTIVE_COMPLETE (R380, R381, R383) -/

/-- A ready engine with room starts a collective that waits (R380). -/
theorem exec_collectiveStart_runs {s : State} {n : Nat} {c : Coll} (hc : s.colls[n]? = some c) (hwait : c.state = .waiting)
    (hready : s.collReady c.die = true) (hroom : (s.colls.filter (fun x => x.die == c.die && x.state == .running)).length < 16) :
    exec (.collectiveStart n) s = .next { s with colls := s.colls.set n { c with state := .running } } := by
  rw [exec_collectiveStart, execCollectiveStart, hc]
  exact if_pos (by simp [hwait, hready, hroom])

/-- A collective that has its results writes what remains of them (R383). -/
theorem exec_collective_writes {s : State} {n : Nat} {c : Coll} {out : List (Nat × Byte)} (hc : s.colls[n]? = some c)
    (hrun : c.state = .running) (hout : c.out = some out) (outside : List CollIn) :
    exec (.collectiveComplete n outside) s =
      .next { s.writeColl c out with colls := (s.writeColl c out).colls.set n { c with state := .complete, out := none } } := by
  rw [exec_collectiveComplete, execCollectiveComplete, hc]
  dsimp only
  rw [hout]
  exact if_neg (by simp [hrun])

/-- A participant's accesses on this package that all succeed. -/
def CollPart.Reached (g : CollPart) : Prop := (∃ y, g.here = some y) ∧ (∃ b, g.source = .ok b) ∧ ∃ d, g.dest = .ok d

/-- What a participant's collective receives, where it goes (R381). -/
def Peer.cells (sources : List (List Byte)) (pas : Nat → List Nat) (p : Peer × Nat) : Option (Nat × Coll × List (Nat × Byte)) :=
  match p.1 with
  | .here i x => some (i, x, (pas p.2).zip (x.result sources p.2))
  | _ => none

/-- Functions that agree on a list keep the same of it. -/
theorem filterMap_eq_of_mem {α β : Type} {f g : α → Option β} {l : List α} (h : ∀ x ∈ l, f x = g x) : l.filterMap f = l.filterMap g := by
  induction l with
  | nil => rfl
  | cons x l ih =>
    obtain ⟨hx, hl⟩ := List.forall_mem_cons.1 h
    rw [List.filterMap_cons, List.filterMap_cons, hx, ih hl]

section Run
variable {e : State} {now : List (Peer × Nat)} {srcs : Nat → List Byte} {pas : Nat → List Nat}
  (hnow : ∀ p ∈ now, ∃ i x, p.1 = .here i x ∧ e.collSource x p.2 = .ok (srcs p.2) ∧ e.collDest x p.2 = .ok (pas p.2))
include hnow

/-- Every participant of this package is reached. -/
theorem collParts_reached : ∀ g ∈ now.map e.collPart, g.Reached := by
  intro g hg
  obtain ⟨p, hp, rfl⟩ := List.mem_map.1 hg
  obtain ⟨i, x, hpeer, hsource, hdest⟩ := hnow p hp
  rw [State.collPart, hpeer]
  exact ⟨⟨_, rfl⟩, ⟨_, hsource⟩, ⟨_, hdest⟩⟩

/-- What gives the bytes that were read gives the sources of all participants. -/
theorem collSources_reached {f : CollPart → List Byte} (hf : ∀ g b, g.source = .ok b → f g = b) :
    (now.map e.collPart).map f = now.map (fun q => srcs q.2) := by
  rw [List.map_map]
  refine List.map_congr_left fun p hp => hf _ _ ?_
  obtain ⟨i, x, hpeer, hsource, -⟩ := hnow p hp
  rw [State.collPart, hpeer]
  exact hsource

/-- What participants that are reached receive (R381). -/
theorem collCells_reached :
    collCells (now.map e.collPart) = now.filterMap (Peer.cells (now.map (fun q => srcs q.2)) pas) := by
  rw [collCells, collSources_reached hnow (fun g b h => by simp only [h]), List.filterMap_map]
  refine filterMap_eq_of_mem fun p hp => ?_
  obtain ⟨i, x, hpeer, -, hdest⟩ := hnow p hp
  simp only [Function.comp_apply, State.collPart, Peer.cells, hpeer, hdest]

end Run

/-- Where every participant is reached, all results are written at once (R381, R383). -/
theorem runColl_reached {e : State} {c : Coll} {now : List (Peer × Nat)} (h : ∀ g ∈ now.map e.collPart, g.Reached) :
    e.runColl c now =
      let cells := collCells (now.map e.collPart)
      let w := cells.foldl (fun s x => s.writeColl x.2.1 x.2.2) e
      { w with colls := cells.foldl (fun (l : List Coll) x => l.set x.1 { x.2.1 with state := .complete, read := [] }) w.colls } := by
  unfold State.runColl
  dsimp only
  split
  · next f hf =>
    obtain ⟨g, hg, he⟩ := List.exists_of_findSome?_eq_some hf
    obtain ⟨-, ⟨b, hb⟩, -⟩ := h g hg
    simp [hb] at he
  · split
    · next hf =>
      obtain ⟨g, hg, he⟩ := List.exists_of_findSome?_eq_some hf
      obtain ⟨⟨y, hy⟩, ⟨b, hb⟩, d, hd⟩ := h g hg
      simp [hy, hb, hd] at he
    · rw [if_neg]
      · split
        · next f hf =>
          obtain ⟨g, hg, he⟩ := List.exists_of_findSome?_eq_some hf
          obtain ⟨-, -, d, hd⟩ := h g hg
          simp [hd] at he
        · rfl
      · simp only [List.any_eq_true, not_exists, not_and]
        intro g hg
        obtain ⟨-, ⟨b, hb⟩, d, hd⟩ := h g hg
        simp [hb, hd]

/-- A running collective whose participants are all of this package and agree reads what is left and goes on to its results (R380, R383). -/
theorem exec_collective_goes {s : State} {n : Nat} {c : Coll} (hc : s.colls[n]? = some c) (hrun : c.state = .running) (hout : c.out = none)
    (hagree : s.mismatched n c (s.peers c []) = false) (hserve : ∀ v ∈ s.services, ∀ k, v.work ≠ .collective k)
    (hhere : ∀ p ∈ s.peers c [], ∃ i x, p.1 = .here i x) :
    exec (.collectiveComplete n []) s =
      let e := (s.peers c []).foldl (fun e p => match p.1 with | .here _ x => e.readyColl x (x.unread p.2) | _ => e) s
      .next (e.runColl c (e.peers c [])) := by
  rw [exec_collectiveComplete, execCollectiveComplete, hc]
  dsimp only
  rw [hout]
  dsimp only
  have hrefused : (s.peers c []).find? (fun p => p.1 == .refused) = none := by
    rw [List.find?_eq_none]
    intro p hp
    obtain ⟨i, x, hpeer⟩ := hhere p hp
    simp [hpeer]
  have habsent : (s.peers c []).any (fun p => p.1 == .absent) = false := by
    rw [List.any_eq_false]
    intro p hp
    obtain ⟨i, x, hpeer⟩ := hhere p hp
    simp [hpeer]
  rw [if_neg, if_neg (ne_true_of_eq_false hagree), hrefused]
  · dsimp only
    rw [if_neg (ne_true_of_eq_false habsent)]
    split
    · next f hf =>
      obtain ⟨p, hp, he⟩ := List.exists_of_findSome?_eq_some hf
      obtain ⟨i, x, hpeer⟩ := hhere p hp
      simp [hpeer] at he
    · rfl
  · rw [hrun]
    simp only [bne_self_eq_false, Bool.false_or, List.any_eq_true, not_exists, not_and]
    intro v hv
    split
    · next k hk => exact absurd hk (hserve v hv k)
    · exact Bool.false_ne_true

/-- The results of participants of this package are written one after another (R381, R383). -/
theorem runColl_here {e : State} {c : Coll} {now : List (Peer × Nat)} {srcs : Nat → List Byte} {pas : Nat → List Nat}
    (hnow : ∀ p ∈ now, ∃ i x, p.1 = .here i x ∧ e.collSource x p.2 = .ok (srcs p.2) ∧ e.collDest x p.2 = .ok (pas p.2)) :
    e.runColl c now =
      let w := now.foldl (fun (t : State) p => match p.1 with
        | .here _ x => t.writeColl x ((pas p.2).zip (x.result (now.map (fun q => srcs q.2)) p.2))
        | _ => t) e
      { w with colls := now.foldl (fun l p => match p.1 with
        | .here i x => l.set i { x with state := .complete, read := [] }
        | _ => l) w.colls } := by
  have hfold {β : Type} (sources : List (List Byte)) (g : β → Nat × Coll × List (Nat × Byte) → β) (b : β) :
      (now.filterMap (Peer.cells sources pas)).foldl g b = now.foldl (fun b p => match p.1 with
        | .here i x => g b (i, x, (pas p.2).zip (x.result sources p.2))
        | _ => b) b := by
    rw [List.foldl_filterMap]
    congr 1
    funext b p
    obtain ⟨p, i⟩ := p
    cases p <;> rfl
  rw [runColl_reached (collParts_reached hnow), collCells_reached hnow]
  dsimp only
  rw [hfold, hfold]

/-- Settles O54: the sorting office, nodes that complete, Courier jobs, and collectives. -/
theorem officeEvents : Obligations.OfficeEvents := by
  refine ⟨?_, ?_, ?_, ?_, ?_⟩
  · intro s die e
    refine ⟨fun n r hback => exec_admit_returns hback, fun hback => ⟨fun n x hgo => exec_admit_removes hback hgo, ?_⟩⟩
    rintro n x rest places e1 e2 hgo hfirst rfl hkind hman hres hteams hplaces
    exact exec_admit_first hback hgo hfirst (tryNode_admits hkind hman hres hteams hplaces)
  · intro s n x hx hrun
    refine ⟨fun hkind hended => exec_nodeComplete_compute hx hrun hkind hended, ?_, ?_, fun hkind => exec_nodeComplete_empty hx hrun hkind⟩
    · intro m mv src s1 hkind hfault hwork hservice hmove hlink hdone
      exact exec_nodeComplete_copy hx hrun hkind hfault hwork hservice hmove hlink hdone
    · intro j hkind hfault hjob hstate
      exact exec_nodeComplete_courier hx hrun hkind hfault hjob hstate
  · intro s n j hj
    refine ⟨fun hwait hready hroom hserve => ⟨exec_courierJobStart_runs hj hwait hready hroom hserve, ?_⟩, ?_⟩
    · intro b pas hresume vas s1 hb hpas c hid hstate hseg
      exact exec_courierJobStart_resumes hj hwait hready hroom hserve hresume rfl hb hpas hid hstate hseg
    · intro k x outside l pas j1 todo unread s1 hstate hx hcommitted hdone hserve hbegun hcome hj1 hcells hpas hclean
      exact exec_segment_moves hj hstate hx hcommitted hdone hserve hbegun rfl rfl rfl hcome hj1 hcells hpas hclean
  · intro s n m x y rest hx hfirst hkind hprio hfull hxkind hxprio hxruns hothers
    refine exec_courierNodeStop_stops hx hfirst hkind hprio hfull (mem_stoppable.2 ⟨hx, rfl, hxkind, hxprio, hxruns⟩) ?_
    rintro ⟨z, k⟩ hz hne
    obtain ⟨hz, hdie, hzkind, hzprio, hzruns⟩ := mem_stoppable.1 hz
    have hk : k ≠ n := by
      rintro rfl
      exact hne (by rw [Option.some.inj (hz.symm.trans hx)])
    simpa [stopsBefore] using hothers k z hk hz hdie hzkind hzruns
  · intro s n c hc
    refine ⟨fun hwait hready hroom => exec_collectiveStart_runs hc hwait hready hroom, ?_, ?_⟩
    · intro srcs pas peers e now w hrun hout hagree hserve hhere hnow
      rw [exec_collective_goes hc hrun hout hagree hserve hhere]
      exact congrArg _ (runColl_here hnow)
    · intro out hrun hout
      exact exec_collective_writes hc hrun hout []

end Sys2Proof.Machine
end

section
/-! PROOFS. The package's registers (R332, R337, R338, R341, R342): the bring-up, attestation, power, the offsets of BAR0 beside the inbox, reset
and self-tests. -/
namespace Sys2Proof.Machine

theorem exec_attestationRequest (n : Nat) (s : State) : exec (.attestationRequest n) s = execAttestationRequest n s := rfl
theorem exec_attestationReportReady (n : Nat) (s : State) : exec (.attestationReportReady n) s = execAttestationReportReady n s := rfl
theorem exec_powlimWrite (x : Word) (s : State) : exec (.powlimWrite x) s = execPowlimWrite x s := rfl
theorem exec_powerThrottle (clk watts : Nat) (s : State) : exec (.powerThrottle clk watts) s = execPowerThrottle clk watts s := rfl
theorem exec_bar0Write (n o : Nat) (l : List Byte) (s : State) : exec (.bar0Write n o l) s = execBar0Write n o l s := rfl
theorem exec_packageReset (s : State) : exec .packageReset s = execPackageReset s := rfl
theorem exec_selfTestComplete (w b : Nat) (s : State) : exec (.selfTestComplete w b) s = execSelfTestComplete w b s := rfl

/-! ### The bring-up (R337) -/

theorem step_boot {s : State} {ts : List Turn} (h : s.agenda = .boot :: ts) : step s = .next ({ s with agenda := ts } : State).bringUp := by
  rw [step, runStep, h]
  rfl

/-- The firmware is measured, and runs (R337). -/
theorem bringUp_firmware {s : State} (h : s.package.boot = 0) : s.bringUp = { s with package := { s.package with boot := 1 } } := by
  rw [State.bringUp, h]
  rfl

/-- The hypervisor starts where it verifies (R337). -/
theorem bringUp_hypervisor {s : State} (h : s.package.boot = 1) :
    s.bringUp = if edVerify Config.rootKey Config.hypervisor Config.hypervisorSignature = true
      then { s with package := { s.package with boot := 2 } } else s := by
  rw [State.bringUp, h]
  rfl

/-! ### Attestation (R341) -/

/-- A request latches the nonce that stands (R341). -/
theorem exec_attestationRequest_latches {s : State} {fn : Nat} (he : s.fnEnabled fn = true) (hidle : (s.attestation fn).status ≠ 1) :
    exec (.attestationRequest fn) s =
      .next (s.setAttestation fn { s.attestation fn with latched := (s.attestation fn).nonce, status := 1 }) := by
  rw [exec_attestationRequest, execAttestationRequest]
  exact congrArg _ (if_pos (by simp [he, hidle]))

/-- A report is given, signed, once all that it names has been measured (R341). -/
theorem exec_report {s : State} {fn : Nat} (hasked : (s.attestation fn).status = 1) :
    exec (.attestationReportReady fn) s = .next (if s.reportable fn = true then s.setAttestation fn { s.attestation fn with
        status := 2
        report := s.reportBody fn (s.attestation fn).latched
          ++ edSign Config.privateKey (s.reportBody fn (s.attestation fn).latched) } else s) := by
  rw [exec_attestationReportReady, execAttestationReportReady]
  dsimp only
  by_cases hall : s.reportable fn = true
  · rw [if_neg (by simp [hasked, hall]), if_pos hall]
  · rw [if_pos (by simp [hall]), if_neg hall]

/-! ### Power (R342) -/

theorem clampLimit_eq (x : Nat) :
    clampLimit x = if x % 2 ^ 16 < 2000 then 2000 else if 6000 < x % 2 ^ 16 then 6000 else x % 2 ^ 16 := by
  unfold clampLimit
  split
  · omega
  · split <;> omega

/-- POWLIM_WRITE sets LIMIT, which the power then keeps to (R342). -/
theorem exec_powlimWrite_limits (s : State) (value : Word) :
    exec (.powlimWrite value) s = .next { s with package := { s.package with
      limit := clampLimit value.toNat, watts := min s.package.watts (clampLimit value.toNat) } } := rfl

/-- POWER_THROTTLE within its ranges (R342). -/
theorem exec_powerThrottle_sets {s : State} {clk watts : Nat} (hlow : 8 ≤ clk) (hhigh : clk ≤ 17) (hwatts : watts ≤ s.package.limit) :
    exec (.powerThrottle clk watts) s = .next { s with package := { s.package with clk := clk, watts := watts } } := by
  rw [exec_powerThrottle, execPowerThrottle, if_pos (by simp [hlow, hhigh, hwatts])]

/-! ### BAR0 beside the inbox (R332, R341, R342) -/

/-- A list that is read byte by byte, each of which is there, is there. -/
theorem mapM_of_some {α β : Type} {f : α → Option β} {g : α → β} {l : List α} (h : ∀ x ∈ l, f x = some (g x)) :
    l.mapM f = some (l.map g) := by
  induction l with
  | nil => rfl
  | cons x l ih =>
    obtain ⟨hx, hl⟩ := List.forall_mem_cons.1 h
    rw [List.mapM_cons, hx, ih hl]
    rfl

theorem getD_toBytes {n x i : Nat} (h : i < n) : (toBytes n x).getD i 0 = BitVec.ofNat 8 (x / 2 ^ (8 * i)) := by
  simp [toBytes, h]

section Bar
variable {s : State} {fn : Nat}

/-- A read of a function that waits behind no write gives its bytes (R332). -/
theorem bar0Read_bytes {offset n : Nat} {g : Nat → Byte} (hw : s.barWaits fn = false) (h : ∀ i < n, s.bar0Byte fn (offset + i) = some (g i)) :
    s.bar0Read fn offset n = some ((List.range n).map g) := by
  rw [State.bar0Read, if_neg (ne_true_of_eq_false hw)]
  exact mapM_of_some fun i hi => h i (List.mem_range.1 hi)

/-- A byte of POWLIM (R342). -/
theorem bar0Byte_powlim {i : Nat} (hfn : 16 ≤ fn) (he : s.fnEnabled fn = true) (hi : i < 8) :
    s.bar0Byte fn (0x20000 + i) = some ((toBytes 8 s.package.powlim.toNat).getD i 0) := by
  have hinbox : ¬0x20000 + i < slotBytes + 16 := by simp only [slotBytes]; omega
  have hin : (decide (16 ≤ fn) && decide (0x20000 ≤ 0x20000 + i) && decide (0x20000 + i < 0x20008)) = true := by simp [hfn]; omega
  rw [State.bar0Byte, if_neg (by simp [he]), if_neg hinbox, if_neg (by simp; omega), if_neg (by omega), if_neg (by simp), if_pos hin,
    Nat.add_sub_cancel_left]

/-- Nothing stands above POWLIM (R332). -/
theorem bar0Byte_above {offset : Nat} (he : s.fnEnabled fn = true) (ho : 0x20008 ≤ offset) : s.bar0Byte fn offset = some 0 := by
  have hinbox : ¬offset < slotBytes + 16 := by simp only [slotBytes]; omega
  rw [State.bar0Byte, if_neg (by simp [he]), if_neg hinbox, if_neg (by simp; omega), if_neg (by omega), if_neg (by simp; omega),
    if_neg (by simp; omega)]

/-- POWLIM reads LIMIT, the power and the clock (R342). -/
theorem bar0Read_powlim (hfn : 16 ≤ fn) (he : s.fnEnabled fn = true) (hw : s.barWaits fn = false) :
    s.bar0Read fn 0x20000 8 = some (toBytes 8 s.package.powlim.toNat) := by
  rw [bar0Read_bytes hw fun i hi => bar0Byte_powlim hfn he hi]
  refine congrArg some (List.map_congr_left fun i hi => ?_)
  rw [getD_toBytes (List.mem_range.1 hi)]

theorem bar0Read_above {offset n : Nat} (he : s.fnEnabled fn = true) (hw : s.barWaits fn = false) (ho : 0x20008 ≤ offset) :
    s.bar0Read fn offset n = some (List.replicate n 0) := by
  rw [bar0Read_bytes hw fun i _ => bar0Byte_above he (Nat.le_trans ho (Nat.le_add_right offset i)), List.map_const']
  rw [List.length_range]

section Writes
variable {offset : Nat} {data : List Byte}

/-- A write above the inbox leaves it alone (R332). -/
theorem barInbox_above (ho : slotBytes + 8 ≤ offset) : s.barInbox { fn := fn, offset := offset, data := data } = some s := by
  have hslots : barBytes offset data 0 slotBytes = [] := barBytes_outside (.inr (by omega))
  have hprod : barBytes offset data slotBytes 8 = [] := barBytes_outside (.inr ho)
  unfold State.barInbox
  split
  · rfl
  · dsimp only
    rw [hslots, hprod]
    exact congrArg some (writeBytes_nil s)

/-- A write of the nonce (R341). -/
theorem applyBar_nonce (hlen : data.length ≤ 64) : s.applyBar { fn := fn, offset := 0x11000, data := data } =
    some (if data = [] then s else s.setAttestation fn { s.attestation fn with
      nonce := overwrite (s.attestation fn).nonce (data.zipIdx.map (fun x => (x.2, x.1))) }) := by
  have hinbox : (if fn < 16 then s.barInbox { fn := fn, offset := 0x11000, data := data } else some s) = some s :=
    ite_eq_right_iff.2 fun _ => barInbox_above (by decide)
  have hnonce : barBytes 0x11000 data 0x11000 64 = data.zipIdx.map (fun x => (x.2, x.1)) := by
    rw [barBytes_within (Nat.le_refl _) (Nat.add_le_add_left hlen _)]
    exact List.ext_getElem (by simp) fun i h1 h2 => by simp
  have hpower : barBytes 0x11000 data 0x20000 2 = [] := barBytes_outside (.inl (by omega))
  have hask : barBytes 0x11000 data 0x11040 1 = [] := barBytes_outside (.inl (by omega))
  rw [State.applyBar, hinbox, Option.map_some]
  dsimp only
  rw [hnonce, hpower, hask]
  simp

/-- A write above POWLIM goes nowhere (R332). -/
theorem applyBar_above (ho : 0x20002 ≤ offset) : s.applyBar { fn := fn, offset := offset, data := data } = some s := by
  have hinbox : (if fn < 16 then s.barInbox { fn := fn, offset := offset, data := data } else some s) = some s :=
    ite_eq_right_iff.2 fun _ => barInbox_above (by simp only [slotBytes]; omega)
  have hnonce : barBytes offset data 0x11000 64 = [] := barBytes_outside (.inr (by omega))
  have hpower : barBytes offset data 0x20000 2 = [] := barBytes_outside (.inr ho)
  have hask : barBytes offset data 0x11040 1 = [] := barBytes_outside (.inr (by omega))
  rw [State.applyBar, hinbox, Option.map_some]
  dsimp only
  rw [hnonce, hpower, hask]
  simp

end Writes
end Bar

/-! ### Self-tests (R337, R338) -/

/-- The readiness map has no function above bit 63. -/
theorem readyBit_lt {word bit : Nat} (h : readyBit word bit = true) : bit < 64 := by
  unfold readyBit at h
  split at h
  · simpa using h
  split at h
  · simp at h; omega
  split at h
  · simp at h; omega
  split at h
  · simpa using h
  · simp at h; omega

/-- A function is ready. -/
def State.setReady (s : State) (word bit : Nat) : State :=
  { s with package := { s.package with
    ready := SMap.set s.package.ready word (SMap.get s.package.ready 0 word ||| BitVec.ofNat 64 (2 ^ bit)) } }

theorem exec_selfTest_sets {s : State} {word bit : Nat} (hboot : s.package.boot = 2) (hbit : readyBit word bit = true) :
    exec (.selfTestComplete word bit) s = .next (s.setReady word bit) := by
  rw [exec_selfTestComplete, execSelfTestComplete, if_pos (by simp [hboot, hbit])]
  rfl

/-- A function that is set ready is ready beside those that were. -/
theorem isReady_setReady (s : State) (word bit w : Nat) {b : Nat} (hb : b < 64) :
    (s.setReady word bit).isReady w b = (s.isReady w b || (decide (w = word) && decide (b = bit))) := by
  have hget : SMap.get (s.setReady word bit).package.ready 0 w =
      if word = w then SMap.get s.package.ready 0 word ||| BitVec.ofNat 64 (2 ^ bit) else SMap.get s.package.ready 0 w := by
    simp only [SMap.get, State.setReady, SMap.find_set]
    split <;> rfl
  rw [State.isReady, hget]
  by_cases hw : word = w
  · subst hw
    rw [if_pos rfl, BitVec.getLsbD_or, BitVec.getLsbD_ofNat, Nat.testBit_two_pow]
    simp [State.isReady, hb, eq_comm]
  · simp [State.isReady, hw, Ne.symm hw]

end Sys2Proof.Machine
end

section
/-! PROOFS. Partitions (R304, R336, R337, R341): what a new partition receives and what goes with those that held its dies; the start of an
image round. Then O56. -/
namespace Sys2Proof.Machine

theorem exec_partitionAssign (x : PartSpec) (s : State) : exec (.partitionAssign x) s = execPartitionAssign x s := rfl
theorem exec_partitionImageStart (n core : Nat) (entry : Word) (s : State) :
    exec (.partitionImageStart n core entry) s = execPartitionImageStart n core entry s := rfl

/-! ### PARTITION_ASSIGN (R336) -/

/-- The numbers of the partitions that hold one of some dies, and the partitions that hold none (R336). -/
def State.holdersOf (s : State) (dies : BitVec 6) : List Nat := (s.parts.filter (fun p => p.dies &&& dies != 0)).map (fun p => p.num)
def State.partsBeside (s : State) (dies : BitVec 6) : List Partition := s.parts.filter (fun p => !(s.holdersOf dies).contains p.num)

/-- A die, with its number, once its partition is assigned: cleared where the new partition has it, else free where its partition is gone
(R336). -/
def dieAfter (spec : PartSpec) (gone : List Nat) (x : Die × Nat) : Die :=
  if spec.dies.getLsbD x.2 then
    { Die.reset with part := some spec.num, clock := x.1.clock, slotSeq := x.1.slotSeq, serviceSeq := x.1.serviceSeq }
  else if (x.1.part.map gone.contains).getD false then { x.1 with part := none } else x.1

/-- The partition that a request makes (R336, R337). -/
def newPart (spec : PartSpec) : Partition :=
  { Partition.blank with
    num := spec.num, dies := spec.dies, control := spec.control, diag := spec.diag, grants := spec.grants, inbox := spec.inbox
    image := spec.image, images := spec.images }

/-- What becomes of the dies, the memory, the rounds, the buffered stores and the partitions where a request is taken (R336). -/
theorem exec_partitionAssign_gives {s : State} {spec : PartSpec} (hboot : s.package.boot = 2) (hdies : spec.dies ∈ dieSets)
    (hnum : numberOk spec = true) (hnew : ∀ p ∈ s.partsBeside spec.dies, p.num ≠ spec.num)
    (hcontrol : controlOk spec (s.partsBeside spec.dies) = true) :
    ∃ t, exec (.partitionAssign spec) s = .next t
      ∧ t.dies = s.dies.zipIdx.map (dieAfter spec (s.holdersOf spec.dies))
      ∧ t.mem = s.mem.filter (fun c => !spec.dies.getLsbD (homeDie c.1))
      ∧ t.rounds = s.rounds.map (fun r => if (s.holdersOf spec.dies).contains (s.teamOf r).part then r.removed else r)
      ∧ t.stores = s.stores.filter (fun e => !(s.holdersOf spec.dies).any (fun k => s.roundIn e.round k))
      ∧ t.parts = s.partsBeside spec.dies ++ [newPart spec] := by
  have hother : (s.partsBeside spec.dies).any (fun p => p.num == spec.num) = false := by
    rw [List.any_eq_false]
    intro p hp
    simpa using hnew p hp
  have hgo : ¬(s.package.boot < 2 || !dieSets.contains spec.dies || !numberOk spec
      || (s.partsBeside spec.dies).any (fun p => p.num == spec.num) || !controlOk spec (s.partsBeside spec.dies)) = true := by
    simp [hboot, hdies, hnum, hother, hcontrol]
  exact ⟨_, if_neg hgo, rfl, rfl, rfl, rfl, rfl⟩

/-- The die at a number of a list of dies that a map has changed. -/
theorem die_map {s t : State} {f : Die × Nat → Die} (ht : t.dies = s.dies.zipIdx.map f) {d : Nat} (hd : d < s.dies.length) :
    t.die d = f (s.die d, d) := by
  simp [State.die, ht, List.getD_eq_getElem?_getD, hd]

/-- The last partition of a list in which no other has its number. -/
theorem part_last {t : State} {l : List Partition} {p : Partition} (ht : t.parts = l ++ [p]) (hl : ∀ q ∈ l, q.num ≠ p.num) :
    t.part p.num = p := by
  have hnone : l.find? (fun q => q.num == p.num) = none := by
    rw [List.find?_eq_none]
    intro q hq
    simpa using hl q hq
  rw [State.part, ht, List.find?_append, hnone]
  simp

/-- What a key has once some keys are gone. -/
theorem find_filter_key {α : Type} (m : SMap α) (p : Nat → Bool) (k : Nat) :
    SMap.find (m.filter (fun c => p c.1)) k = if p k then SMap.find m k else none := by
  induction m with
  | nil => simp [SMap.find]
  | cons c m ih =>
    obtain ⟨i, a⟩ := c
    by_cases hi : i = k
    · subst hi
      by_cases hp : p i = true <;> simp [hp, SMap.find, ih]
    · by_cases hp : p i = true <;> simp [hp, SMap.find, ih, hi]

/-- Bytes whose addresses a filter drops read as zero, and others as before (R336). -/
theorem read_filter (m : Memory) (p : Nat → Bool) (a : Nat) :
    Memory.read (m.filter (fun c => p c.1)) a = if p a then Memory.read m a else 0 := by
  rw [Memory.read, SMap.get, find_filter_key]
  split <;> rfl

/-! ### PARTITION_IMAGE_START (R304, R336, R337, R341) -/

/-- The partition once its first image round has started: measured from then on (R304, R341). -/
def Partition.begun (p : Partition) : Partition :=
  { p with started := true, measured := if p.started then p.measured else shake256 p.image }

/-- The team, and the round, of an image (R304, R336). -/
def State.imageTeam (s : State) (p : Partition) (core : Nat) : Team :=
  Team.fresh none 0 s.gangs.length 0 p.num core false { Kernel.none with width := 16, rounds := 1 } 0 s.nextAdmission
def State.imageHandle (s : State) (p : Partition) (core : Nat) : State × BitVec 32 :=
  s.newHandle (lowestDie p.dies) (core - p.firstControl) 0 (if p.firstControl = controlBase then 6 else 7)
def State.imageRound (s : State) (p : Partition) (core : Nat) (entry : Word) : Round :=
  Round.fresh s.teams.length 0 16 core 0 0 (s.imageHandle p core).2 true entry (List.replicate 128 0)

/-- The state once an image round has started (R304, R336). -/
def State.withImage (s : State) (p : Partition) (core : Nat) (entry : Word) : State :=
  ({ (s.imageHandle p core).1 with
    gangs := s.gangs ++ [Gang.blank]
    teams := s.teams ++ [s.imageTeam p core]
    rounds := s.rounds ++ [s.imageRound p core entry] } : State).setPart p.begun

section Image
variable {s : State} {p : Partition} {core : Nat} {entry : Word}

/-- An image round starts on a ready control core on which none is (R304, R336). -/
theorem exec_imageStart_starts (hp : s.parts.find? (fun q => q.num == p.num) = some p) (hcore : core ∈ p.control)
    (hready : s.isReady 16 (core - controlBase) = true) (hfree : ∀ r ∈ s.rounds, r.core = core → r.status = .ended) :
    exec (.partitionImageStart p.num core entry) s = .next (s.withImage p core entry) := by
  have hidle : s.rounds.any (fun r => r.core == core && r.status != .ended) = false := by
    rw [List.any_eq_false]
    intro r hr
    simpa using hfree r hr
  rw [exec_partitionImageStart, execPartitionImageStart, hp]
  exact if_neg (by rw [hidle]; simp [hcore, hready])

theorem teamOf_imageRound : (s.withImage p core entry).teamOf (s.imageRound p core entry) = s.imageTeam p core := by
  simp [State.teamOf, State.withImage, State.setPart, State.imageRound, Round.fresh, List.getD_eq_getElem?_getD]

theorem part_withImage (hp : s.parts.find? (fun q => q.num == p.num) = some p) : (s.withImage p core entry).part p.num = p.begun :=
  State.part_setPart (List.any_eq_true.2 ⟨p, List.mem_of_find?_eq_some hp, by simp⟩) rfl

end Image

/-- Settles O56, an event at a time. -/
theorem packageEvents : Obligations.PackageEvents := by
  intro s
  refine ⟨?_, ?_, ?_, ?_, ?_, ?_, ?_, rfl, ?_, ?_, ?_⟩
  · intro ts hts
    refine ⟨fun hboot => ?_, fun hboot => ?_⟩
    · exact (step_boot hts).trans (congrArg _ (bringUp_firmware (s := { s with agenda := ts }) hboot))
    · exact (step_boot hts).trans (congrArg _ (bringUp_hypervisor (s := { s with agenda := ts }) hboot))
  · exact fun fn he hidle => exec_attestationRequest_latches he hidle
  · intro fn hasked body
    refine ⟨fun hall => ?_, fun hall => ?_⟩
    · rw [exec_report hasked, if_pos hall]
    · rw [exec_report hasked, if_neg (ne_true_of_eq_false hall)]
  · intro value v limit
    rw [exec_powlimWrite_limits, clampLimit_eq]
  · exact fun clk watts hlow hhigh hwatts => exec_powerThrottle_sets hlow hhigh hwatts
  · exact fun fn hfn he hw => bar0Read_powlim hfn he hw
  · intro fn data he hw hlen
    refine ⟨?_, ?_, bar0Read_above he hw (by decide)⟩
    · exact congrArg _ (barWrite_now he hw (applyBar_nonce hlen))
    · exact congrArg _ (barWrite_now he hw (applyBar_above (by decide)))
  · intro word bit hboot hbit
    refine ⟨_, exec_selfTest_sets hboot hbit, ?_, rfl, rfl, ?_⟩
    · simp [isReady_setReady s word bit word (readyBit_lt hbit)]
    · intro w b hb hne
      rw [isReady_setReady s word bit w hb]
      obtain hw | hb := hne
      · simp [hw]
      · simp [hb]
  · intro spec gone others hboot hdies hnum hnew hcontrol
    obtain ⟨t, ht, htdies, htmem, htrounds, htstores, htparts⟩ := exec_partitionAssign_gives hboot hdies hnum hnew hcontrol
    have hpart : t.part spec.num = newPart spec := part_last htparts hnew
    refine ⟨t, ht, ?_, congrArg (·.dies) hpart, congrArg (·.started) hpart, congrArg (·.grants) hpart, congrArg (·.control) hpart,
      ?_, ?_, ?_, ?_⟩
    · intro d hd hmine
      rw [die_map htdies hd, dieAfter, if_pos hmine]
    · intro d hd hnot hkept
      rw [die_map htdies hd, dieAfter, if_neg (ne_true_of_eq_false hnot), if_neg]
      cases hholder : (s.die d).part with
      | none => simp
      | some p =>
        rw [Option.map_some, Option.getD_some, List.contains_iff_mem]
        exact hkept p hholder
    · intro _ a
      rw [htmem, read_filter s.mem (fun a => !spec.dies.getLsbD (homeDie a))]
      cases spec.dies.getLsbD (homeDie a) <;> rfl
    · intro n r hr
      rw [htrounds, List.getElem?_map, hr]
      simp only [Option.map_some, List.contains_iff_mem]
      rfl
    · intro e he
      rw [htstores, List.mem_filter] at he
      obtain ⟨hmem, hnone⟩ := he
      exact ⟨hmem, fun g hg => by simpa using List.any_eq_false.1 (Bool.not_eq_true' _ ▸ hnone) g hg⟩
  · intro p core entry hp hcore hready hfree
    have hpart := part_withImage (core := core) (entry := entry) hp
    refine ⟨_, s.imageRound p core entry, exec_imageStart_starts hp hcore hready hfree, rfl, rfl, rfl, rfl, rfl, rfl,
      congrArg (·.part) teamOf_imageRound, rfl, congrArg (·.started) hpart, congrArg (·.measured) hpart⟩

end Sys2Proof.Machine
end
